-- ==== Sys2Proof/Word.lean ====
section
/-! DEFINITION. The word types of the cube (spec/00_scope.md R6, R7) and the plainest bit-field helpers. -/

namespace Sys2Proof

/-- A 64-bit register or dword. -/
abbrev Word := BitVec 64
/-- A byte of memory. -/
abbrev Byte := BitVec 8
/-- An instruction word (R11). -/
abbrev Half := BitVec 16

/-- `x[hi:lo]` as a natural number (R6, R8). -/
def bits {n : Nat} (x : BitVec n) (hi lo : Nat) : Nat := (x.toNat >>> lo) % 2 ^ (hi + 1 - lo)

/-- Bit `i` of `x` (R6). -/
def bit {n : Nat} (x : BitVec n) (i : Nat) : Bool := x.getLsbD i

/-- The 64-bit word of a natural number, reduced modulo 2^64 (R8, wrap). -/
def word (n : Nat) : Word := BitVec.ofNat 64 n

/-- `word` of a truth value in bit `i`. -/
def flagBit (b : Bool) (i : Nat) : Nat := if b then 2 ^ i else 0

end Sys2Proof
end

