-- ==== Sys2Proof/Syntax.lean ====
section
/-! DEFINITION. The syntax: every row of the opcode table is one constructor of `Instr`.
The 225 coded rows carry the chain they stand in (spec/01_instruction_words.md R11-R24); the 130 rows without an
encoding (spec/95_what_each_step_holds.md) carry what the step acts on. -/

namespace Sys2Proof

/-- Memory scope of XCTL (R21). -/
inductive Scope where
  | core | cluster | cube | pod
  deriving DecidableEq, Repr

/-- The XREG payload (R19): third register field, fifth bits, guard. -/
structure XReg where
  b     : BitVec 4
  d5    : Bool
  a5    : Bool
  b5    : Bool
  guard : BitVec 4
  deriving DecidableEq, Repr

/-- The XCTL payload (R21). -/
structure XCtl where
  scope : Scope
  etype : BitVec 3
  urg   : Bool
  nt    : Bool
  deriving DecidableEq, Repr

/-- One chain: the fields of its base word and the prefixes it holds (R13-R21). The page is the mnemonic's; `neg` is
the guard negation of XPAGE. `ximm` lists the XIMM payloads in order (R17). `imm6` is zero in form D. -/
structure Chain where
  marker : Bool
  d      : BitVec 4
  a      : BitVec 4
  imm6   : BitVec 6
  ximm   : List (BitVec 11)
  xreg   : Option XReg
  neg    : Bool
  xctl   : Option XCtl
  deriving DecidableEq, Repr

/-- What training exchanges (R381): the peer's cube and port number, its accepted atomic classes, its next transmit
counter, and the lanes that passed (4 or 8). -/
structure TrainInfo where
  cube    : Nat
  port    : Nat
  pcls    : BitVec 3
  counter : BitVec 48
  lanes   : Nat
  deriving DecidableEq, Repr

/-- A flit as it comes from the line (R382): header, 240-byte body and tag; `fec` says that its forward error
correction succeeded. -/
structure Flit where
  hdr  : BitVec 64
  body : List Byte
  tag  : BitVec 64
  fec  : Bool
  deriving DecidableEq, Repr

/-- The place of a soft error (R411). -/
inductive ErrSite where
  | dram (line : Nat)
  | lstore (core word : Nat)
  | bstore (core word : Nat)
  | istore (core word : Nat)
  | cache (core line word : Nat)
  | meshPayload (pkt word : Nat)
  | meshHeader (pkt : Nat)
  | greg (core slot r : Nat)
  | predWord (core slot : Nat)
  | vreg (core slot r : Nat)
  | vmask (core slot r : Nat)
  deriving DecidableEq, Repr

/-- One constructor per row of the opcode table. -/
inductive Instr where
  -- page 0: scalar integer, address and control (R53)
  | nop (c : Chain)
  | mov (c : Chain)
  | neg (c : Chain)
  | not (c : Chain)
  | abs (c : Chain)
  | clz (c : Chain)
  | ctz (c : Chain)
  | popc (c : Chain)
  | brev (c : Chain)
  | bswap (c : Chain)
  | sext (c : Chain)
  | add (c : Chain)
  | sub (c : Chain)
  | mul (c : Chain)
  | mulh (c : Chain)
  | mulhn (c : Chain)
  | div (c : Chain)
  | divn (c : Chain)
  | rem (c : Chain)
  | remn (c : Chain)
  | and (c : Chain)
  | or (c : Chain)
  | xor (c : Chain)
  | andn (c : Chain)
  | shl (c : Chain)
  | shr (c : Chain)
  | sar (c : Chain)
  | rol (c : Chain)
  | min (c : Chain)
  | max (c : Chain)
  | minn (c : Chain)
  | maxn (c : Chain)
  | cmpeq (c : Chain)
  | cmpne (c : Chain)
  | cmplt (c : Chain)
  | cmple (c : Chain)
  | cmpltn (c : Chain)
  | cmplen (c : Chain)
  | tst (c : Chain)
  | pand (c : Chain)
  | por (c : Chain)
  | pxor (c : Chain)
  | pnot (c : Chain)
  | rdpw (c : Chain)
  | wrpw (c : Chain)
  | sel (c : Chain)
  | ldl (c : Chain)
  | stl (c : Chain)
  | jr (c : Chain)
  | callr (c : Chain)
  | exit (c : Chain)
  | yield (c : Chain)
  | rdcyc (c : Chain)
  | movi (c : Chain)
  | addi (c : Chain)
  | bt (c : Chain)
  | bf (c : Chain)
  | call (c : Chain)
  | andi (c : Chain)
  -- page 1: scalar floating point and FMT (R55)
  | fadd (c : Chain)
  | fsub (c : Chain)
  | fmul (c : Chain)
  | fdiv (c : Chain)
  | fmin (c : Chain)
  | fmax (c : Chain)
  | fma (c : Chain)
  | fms (c : Chain)
  | fsqrt (c : Chain)
  | fabs (c : Chain)
  | fneg (c : Chain)
  | fcmpeq (c : Chain)
  | fcmplt (c : Chain)
  | fcmple (c : Chain)
  | fcmpun (c : Chain)
  | fclass (c : Chain)
  | fcvt (c : Chain)
  | ftoi (c : Chain)
  | fton (c : Chain)
  | itof (c : Chain)
  | ntof (c : Chain)
  | frnd (c : Chain)
  | fclrf (c : Chain)
  | fmt (c : Chain)
  -- page 2: vector arithmetic (R56)
  | viadd (c : Chain)
  | visub (c : Chain)
  | vimul (c : Chain)
  | vimulh (c : Chain)
  | vimin (c : Chain)
  | vimax (c : Chain)
  | vand (c : Chain)
  | vor (c : Chain)
  | vxor (c : Chain)
  | vshl (c : Chain)
  | vshr (c : Chain)
  | viadds (c : Chain)
  | visubs (c : Chain)
  | viabs (c : Chain)
  | vineg (c : Chain)
  | vimad (c : Chain)
  | vadd (c : Chain)
  | vsub (c : Chain)
  | vmul (c : Chain)
  | vdiv (c : Chain)
  | vmin (c : Chain)
  | vmax (c : Chain)
  | vfma (c : Chain)
  | vsqrt (c : Chain)
  | vabs (c : Chain)
  | vneg (c : Chain)
  | vicmpeq (c : Chain)
  | vicmplt (c : Chain)
  | vicmple (c : Chain)
  | vcmpeq (c : Chain)
  | vcmplt (c : Chain)
  | vcmple (c : Chain)
  | vcmpun (c : Chain)
  | mand (c : Chain)
  | mor (c : Chain)
  | mxor (c : Chain)
  | mnot (c : Chain)
  | mpop (c : Chain)
  | mall (c : Chain)
  | virsum (c : Chain)
  | virmin (c : Chain)
  | virmax (c : Chain)
  | vrsum (c : Chain)
  | vrmin (c : Chain)
  | vrmax (c : Chain)
  | vperm (c : Chain)
  | vbcast (c : Chain)
  | vext (c : Chain)
  | vins (c : Chain)
  | vmov (c : Chain)
  | viota (c : Chain)
  | vsplati (c : Chain)
  -- page 3: vector memory, conversion and quantisation (R57)
  | vfree (c : Chain)
  | vld (c : Chain)
  | vst (c : Chain)
  | vlds (c : Chain)
  | vsts (c : Chain)
  | vgath (c : Chain)
  | vscat (c : Chain)
  | vcvt (c : Chain)
  | vcvti (c : Chain)
  | vcvtf (c : Chain)
  | mxq (c : Chain)
  | mxdq (c : Chain)
  | tsq (c : Chain)
  | tsdq (c : Chain)
  | vldm (c : Chain)
  | vstm (c : Chain)
  | vlease (c : Chain)
  -- page 4: engines (R58)
  | mcfg (c : Chain)
  | mgang (c : Chain)
  | mresume (c : Chain)
  | mbook (c : Chain)
  | fopen (c : Chain)
  | fjoin (c : Chain)
  | fclose (c : Chain)
  | smode (c : Chain)
  | sstop (c : Chain)
  | cpyg (c : Chain)
  | cpyp (c : Chain)
  | cpyd (c : Chain)
  | mwait (c : Chain)
  | bdcfg (c : Chain)
  | bdot (c : Chain)
  | bdotq (c : Chain)
  | rowcopy (c : Chain)
  | rowzero (c : Chain)
  -- page 5: global memory and synchronisation (R59)
  | ld (c : Chain)
  | st (c : Chain)
  | strel (c : Chain)
  | aadd (c : Chain)
  | aand (c : Chain)
  | aor (c : Chain)
  | axor (c : Chain)
  | amin (c : Chain)
  | amax (c : Chain)
  | aminn (c : Chain)
  | amaxn (c : Chain)
  | afadd (c : Chain)
  | faadd (c : Chain)
  | faand (c : Chain)
  | faor (c : Chain)
  | faxor (c : Chain)
  | famin (c : Chain)
  | famax (c : Chain)
  | faminn (c : Chain)
  | famaxn (c : Chain)
  | fafadd (c : Chain)
  | swp (c : Chain)
  | cas (c : Chain)
  | fence (c : Chain)
  | ldfe (c : Chain)
  | ldff (c : Chain)
  | stfe (c : Chain)
  | stff (c : Chain)
  | feclr (c : Chain)
  | binit (c : Chain)
  | barr (c : Chain)
  | bwait (c : Chain)
  | baw (c : Chain)
  | bdrop (c : Chain)
  | send (c : Chain)
  | recv (c : Chain)
  | spawn (c : Chain)
  | tpost (c : Chain)
  | tbind (c : Chain)
  -- page 6: system (R60)
  | gcall (c : Chain)
  | gret (c : Chain)
  | trap (c : Chain)
  | tret (c : Chain)
  | ctlr (c : Chain)
  | ctlw (c : Chain)
  | slinv (c : Chain)
  | setkey (c : Chain)
  | setown (c : Chain)
  | istw (c : Chain)
  | start (c : Chain)
  | buoys (c : Chain)
  | buoyc (c : Chain)
  | haltrq (c : Chain)
  | csave (c : Chain)
  | cload (c : Chain)
  -- steps of the machine without an encoding (spec/95_what_each_step_holds.md)
  | matrixWord0Push (core slot : Nat) (w : Word)
  | compute (core slot : Nat) (w : Word)
  | acczero (core slot : Nat) (w : Word)
  | accload (core slot : Nat) (w : Word)
  | accstore (core slot : Nat) (w : Word)
  | copyDescriptorPush (core slot : Nat) (w : Word)
  | queuePortPop (core slot : Nat) (port d : BitVec 4)
  | blockRelease (core slot : Nat)
  | leaseGrant (core : Nat)
  | resultReturn (core slot : Nat)
  | trapEntry (core slot : Nat)
  | ferryDepart (core slot : Nat)
  | ferryArrive (pkt : Nat)
  | ferryAdmit (core : Nat)
  | sliceTranslate (pkt : Nat)
  | tableWalkRead (pkt : Nat)
  | messagePerform (pkt : Nat)
  | heldMessagesRelease (core : Nat)
  | ackReceive (pkt : Nat)
  | stfeArrive (pkt : Nat)
  | feSleepExpire (core slot : Nat)
  | stfeQueueExpire (core : Nat)
  | mwaitTimeout (core slot : Nat)
  | landedPacket (pkt : Nat)
  | rangeLockRegister (core op : Nat)
  | copyComplete (core op : Nat)
  | copyFault (core op : Nat)
  | copyResume (core op : Nat)
  | copyAbandon (core op : Nat)
  | streamStripFetch (core slot v : Nat)
  | streamStripWrite (core : Nat)
  | matrixCommandStart (core : Nat)
  | arrayModeChange (core : Nat)
  | gangJoin (core : Nat)
  | gangTimeout (core : Nat)
  | matrixKblock (core : Nat)
  | matrixSplit (core : Nat)
  | matrixStatusPost (core : Nat)
  | folioDeliver (core : Nat)
  | folioFree (quire slot : Nat)
  | bankDotPerform (pkt : Nat)
  | bdotqResultDeliver (core slot : Nat)
  | rowCommandPerform (core op : Nat)
  | rowCommandComplete (core op : Nat)
  | barrierUnitArrival (pkt : Nat)
  | barrierUnitInit (pkt : Nat)
  | barrierAnswer (pkt : Nat)
  | barrierReleaseDeliver (pkt : Nat)
  | barrierQuery (pkt : Nat)
  | barrierQueryRetry (core slot : Nat)
  | messageDeliver (pkt : Nat)
  | streamPortWrite (writer front off : Nat) (w : Word)
  | streamPacketEnter (front : Nat)
  | feGo (front : Nat)
  | launchHeader (front : Nat)
  | taskPacket (front : Nat)
  | semaphoreWait (front : Nat)
  | semaphorePoll (front : Nat)
  | semaphoreTimeout (front : Nat)
  | semaphoreSignal (front : Nat)
  | groupPlace (front : Nat)
  | exitReport (pkt : Nat)
  | taskRecordState (front slot : Nat) (w : Word)
  | spawnArrive (pkt : Nat)
  | triggerPost (pkt : Nat)
  | triggerBind (pkt : Nat)
  | triggerOvfClear (entry : Nat)
  | istwPerform (pkt : Nat)
  | startPerform (pkt : Nat)
  | threadStop (core slot : Nat)
  | groupStop (group : BitVec 30)
  | quireStop (core : Nat)
  | coreStop (core : Nat)
  | threadRelease (core slot : Nat)
  | groupRelease (group : BitVec 30)
  | quireRelease (core : Nat)
  | coreRelease (core : Nat)
  | haltTreeDeliver (part : Nat) (stop : Bool)
  | buoyForward (pkt : Nat)
  | relocationNotice (pkt : Nat)
  | relocationFenceAck (pkt : Nat)
  | buoyRetire (core slot : Nat)
  | dtabWrite (core : Nat) (w : Word)
  | frecClear (core slot : Nat)
  | mberrClear (core : Nat) (group : BitVec 30) (w : Word)
  | splitcWrite (w : Word)
  | aliasEntryWrite (k : Nat) (w : Word)
  | aliasDrain (k : Nat)
  | aliasMarkLost (k : Nat)
  | routeEntryWrite (dest : Nat) (w : Word)
  | routeSwitch (dest : Nat)
  | pathClassWrite (idx : Nat) (w : Word)
  | hcDropFrame (core : Nat) (w : Word)
  | hcDropAll (core : Nat)
  | logicalNumberWrite (w : Word)
  | configWordWrite (writer off : Nat) (w : Word)
  | portEnable (port : Nat)
  | portRetrain (port : Nat)
  | txkeyStage (port : Nat) (high : Bool) (w : Word)
  | rxkeyStage (port : Nat) (high : Bool) (w : Word)
  | trainingComplete (port : Nat) (peer : TrainInfo)
  | portFail (port : Nat)
  | linkLoss (port : Nat)
  | flitSlotTransmit (port : Nat)
  | flitReceive (port : Nat) (flit : Flit)
  | nakTimer (port : Nat)
  | replayTimeout (port seq : Nat)
  | linkPacketArrive (port : Nat)
  | adaptiveFallback (pkt : Nat)
  | receiptReceive (pkt : Nat)
  | abandonNotice (pkt : Nat)
  | retryTimeout (port pid : Nat)
  | pidRecordExpire (idx : Nat)
  | forwardWindowExpire (k : Nat)
  | homeQuery (pkt : Nat)
  | tensorCombine (tree block : Nat)
  | softError (site : ErrSite) (corrected : Bool)
  | dramScrub (line : Nat)
  | verticalBusChange (column state nbad spare : Nat)
  | elogHeadRead (die : Nat)
  | attestRequest
  | attestReport
  | ucieRead (dword0 : Word)
  | ucieWrite (dword0 dword1 : Word)
  | ucieLinkDown
  | coldReset
  | powerLoss
  | ucieLinkUp
  | engineRead (pkt : Nat)
  | meshPacketTimeout (pkt : Nat)
  deriving DecidableEq, Repr

/-- The 225 coded mnemonics. -/
inductive Op where
  | nop
  | mov
  | neg
  | not
  | abs
  | clz
  | ctz
  | popc
  | brev
  | bswap
  | sext
  | add
  | sub
  | mul
  | mulh
  | mulhn
  | div
  | divn
  | rem
  | remn
  | and
  | or
  | xor
  | andn
  | shl
  | shr
  | sar
  | rol
  | min
  | max
  | minn
  | maxn
  | cmpeq
  | cmpne
  | cmplt
  | cmple
  | cmpltn
  | cmplen
  | tst
  | pand
  | por
  | pxor
  | pnot
  | rdpw
  | wrpw
  | sel
  | ldl
  | stl
  | jr
  | callr
  | exit
  | yield
  | rdcyc
  | movi
  | addi
  | bt
  | bf
  | call
  | andi
  | fadd
  | fsub
  | fmul
  | fdiv
  | fmin
  | fmax
  | fma
  | fms
  | fsqrt
  | fabs
  | fneg
  | fcmpeq
  | fcmplt
  | fcmple
  | fcmpun
  | fclass
  | fcvt
  | ftoi
  | fton
  | itof
  | ntof
  | frnd
  | fclrf
  | fmt
  | viadd
  | visub
  | vimul
  | vimulh
  | vimin
  | vimax
  | vand
  | vor
  | vxor
  | vshl
  | vshr
  | viadds
  | visubs
  | viabs
  | vineg
  | vimad
  | vadd
  | vsub
  | vmul
  | vdiv
  | vmin
  | vmax
  | vfma
  | vsqrt
  | vabs
  | vneg
  | vicmpeq
  | vicmplt
  | vicmple
  | vcmpeq
  | vcmplt
  | vcmple
  | vcmpun
  | mand
  | mor
  | mxor
  | mnot
  | mpop
  | mall
  | virsum
  | virmin
  | virmax
  | vrsum
  | vrmin
  | vrmax
  | vperm
  | vbcast
  | vext
  | vins
  | vmov
  | viota
  | vsplati
  | vfree
  | vld
  | vst
  | vlds
  | vsts
  | vgath
  | vscat
  | vcvt
  | vcvti
  | vcvtf
  | mxq
  | mxdq
  | tsq
  | tsdq
  | vldm
  | vstm
  | vlease
  | mcfg
  | mgang
  | mresume
  | mbook
  | fopen
  | fjoin
  | fclose
  | smode
  | sstop
  | cpyg
  | cpyp
  | cpyd
  | mwait
  | bdcfg
  | bdot
  | bdotq
  | rowcopy
  | rowzero
  | ld
  | st
  | strel
  | aadd
  | aand
  | aor
  | axor
  | amin
  | amax
  | aminn
  | amaxn
  | afadd
  | faadd
  | faand
  | faor
  | faxor
  | famin
  | famax
  | faminn
  | famaxn
  | fafadd
  | swp
  | cas
  | fence
  | ldfe
  | ldff
  | stfe
  | stff
  | feclr
  | binit
  | barr
  | bwait
  | baw
  | bdrop
  | send
  | recv
  | spawn
  | tpost
  | tbind
  | gcall
  | gret
  | trap
  | tret
  | ctlr
  | ctlw
  | slinv
  | setkey
  | setown
  | istw
  | start
  | buoys
  | buoyc
  | haltrq
  | csave
  | cload
  deriving DecidableEq, Repr

/-- The instruction of a mnemonic and a chain. -/
def Instr.ofOp (o : Op) (c : Chain) : Instr :=
  match o with
  | .nop => .nop c
  | .mov => .mov c
  | .neg => .neg c
  | .not => .not c
  | .abs => .abs c
  | .clz => .clz c
  | .ctz => .ctz c
  | .popc => .popc c
  | .brev => .brev c
  | .bswap => .bswap c
  | .sext => .sext c
  | .add => .add c
  | .sub => .sub c
  | .mul => .mul c
  | .mulh => .mulh c
  | .mulhn => .mulhn c
  | .div => .div c
  | .divn => .divn c
  | .rem => .rem c
  | .remn => .remn c
  | .and => .and c
  | .or => .or c
  | .xor => .xor c
  | .andn => .andn c
  | .shl => .shl c
  | .shr => .shr c
  | .sar => .sar c
  | .rol => .rol c
  | .min => .min c
  | .max => .max c
  | .minn => .minn c
  | .maxn => .maxn c
  | .cmpeq => .cmpeq c
  | .cmpne => .cmpne c
  | .cmplt => .cmplt c
  | .cmple => .cmple c
  | .cmpltn => .cmpltn c
  | .cmplen => .cmplen c
  | .tst => .tst c
  | .pand => .pand c
  | .por => .por c
  | .pxor => .pxor c
  | .pnot => .pnot c
  | .rdpw => .rdpw c
  | .wrpw => .wrpw c
  | .sel => .sel c
  | .ldl => .ldl c
  | .stl => .stl c
  | .jr => .jr c
  | .callr => .callr c
  | .exit => .exit c
  | .yield => .yield c
  | .rdcyc => .rdcyc c
  | .movi => .movi c
  | .addi => .addi c
  | .bt => .bt c
  | .bf => .bf c
  | .call => .call c
  | .andi => .andi c
  | .fadd => .fadd c
  | .fsub => .fsub c
  | .fmul => .fmul c
  | .fdiv => .fdiv c
  | .fmin => .fmin c
  | .fmax => .fmax c
  | .fma => .fma c
  | .fms => .fms c
  | .fsqrt => .fsqrt c
  | .fabs => .fabs c
  | .fneg => .fneg c
  | .fcmpeq => .fcmpeq c
  | .fcmplt => .fcmplt c
  | .fcmple => .fcmple c
  | .fcmpun => .fcmpun c
  | .fclass => .fclass c
  | .fcvt => .fcvt c
  | .ftoi => .ftoi c
  | .fton => .fton c
  | .itof => .itof c
  | .ntof => .ntof c
  | .frnd => .frnd c
  | .fclrf => .fclrf c
  | .fmt => .fmt c
  | .viadd => .viadd c
  | .visub => .visub c
  | .vimul => .vimul c
  | .vimulh => .vimulh c
  | .vimin => .vimin c
  | .vimax => .vimax c
  | .vand => .vand c
  | .vor => .vor c
  | .vxor => .vxor c
  | .vshl => .vshl c
  | .vshr => .vshr c
  | .viadds => .viadds c
  | .visubs => .visubs c
  | .viabs => .viabs c
  | .vineg => .vineg c
  | .vimad => .vimad c
  | .vadd => .vadd c
  | .vsub => .vsub c
  | .vmul => .vmul c
  | .vdiv => .vdiv c
  | .vmin => .vmin c
  | .vmax => .vmax c
  | .vfma => .vfma c
  | .vsqrt => .vsqrt c
  | .vabs => .vabs c
  | .vneg => .vneg c
  | .vicmpeq => .vicmpeq c
  | .vicmplt => .vicmplt c
  | .vicmple => .vicmple c
  | .vcmpeq => .vcmpeq c
  | .vcmplt => .vcmplt c
  | .vcmple => .vcmple c
  | .vcmpun => .vcmpun c
  | .mand => .mand c
  | .mor => .mor c
  | .mxor => .mxor c
  | .mnot => .mnot c
  | .mpop => .mpop c
  | .mall => .mall c
  | .virsum => .virsum c
  | .virmin => .virmin c
  | .virmax => .virmax c
  | .vrsum => .vrsum c
  | .vrmin => .vrmin c
  | .vrmax => .vrmax c
  | .vperm => .vperm c
  | .vbcast => .vbcast c
  | .vext => .vext c
  | .vins => .vins c
  | .vmov => .vmov c
  | .viota => .viota c
  | .vsplati => .vsplati c
  | .vfree => .vfree c
  | .vld => .vld c
  | .vst => .vst c
  | .vlds => .vlds c
  | .vsts => .vsts c
  | .vgath => .vgath c
  | .vscat => .vscat c
  | .vcvt => .vcvt c
  | .vcvti => .vcvti c
  | .vcvtf => .vcvtf c
  | .mxq => .mxq c
  | .mxdq => .mxdq c
  | .tsq => .tsq c
  | .tsdq => .tsdq c
  | .vldm => .vldm c
  | .vstm => .vstm c
  | .vlease => .vlease c
  | .mcfg => .mcfg c
  | .mgang => .mgang c
  | .mresume => .mresume c
  | .mbook => .mbook c
  | .fopen => .fopen c
  | .fjoin => .fjoin c
  | .fclose => .fclose c
  | .smode => .smode c
  | .sstop => .sstop c
  | .cpyg => .cpyg c
  | .cpyp => .cpyp c
  | .cpyd => .cpyd c
  | .mwait => .mwait c
  | .bdcfg => .bdcfg c
  | .bdot => .bdot c
  | .bdotq => .bdotq c
  | .rowcopy => .rowcopy c
  | .rowzero => .rowzero c
  | .ld => .ld c
  | .st => .st c
  | .strel => .strel c
  | .aadd => .aadd c
  | .aand => .aand c
  | .aor => .aor c
  | .axor => .axor c
  | .amin => .amin c
  | .amax => .amax c
  | .aminn => .aminn c
  | .amaxn => .amaxn c
  | .afadd => .afadd c
  | .faadd => .faadd c
  | .faand => .faand c
  | .faor => .faor c
  | .faxor => .faxor c
  | .famin => .famin c
  | .famax => .famax c
  | .faminn => .faminn c
  | .famaxn => .famaxn c
  | .fafadd => .fafadd c
  | .swp => .swp c
  | .cas => .cas c
  | .fence => .fence c
  | .ldfe => .ldfe c
  | .ldff => .ldff c
  | .stfe => .stfe c
  | .stff => .stff c
  | .feclr => .feclr c
  | .binit => .binit c
  | .barr => .barr c
  | .bwait => .bwait c
  | .baw => .baw c
  | .bdrop => .bdrop c
  | .send => .send c
  | .recv => .recv c
  | .spawn => .spawn c
  | .tpost => .tpost c
  | .tbind => .tbind c
  | .gcall => .gcall c
  | .gret => .gret c
  | .trap => .trap c
  | .tret => .tret c
  | .ctlr => .ctlr c
  | .ctlw => .ctlw c
  | .slinv => .slinv c
  | .setkey => .setkey c
  | .setown => .setown c
  | .istw => .istw c
  | .start => .start c
  | .buoys => .buoys c
  | .buoyc => .buoyc c
  | .haltrq => .haltrq c
  | .csave => .csave c
  | .cload => .cload c

/-- The mnemonic and chain of a coded instruction; a step without an encoding has none. -/
def Instr.op? (i : Instr) : Option (Op × Chain) :=
  match i with
  | .nop c => some (.nop, c)
  | .mov c => some (.mov, c)
  | .neg c => some (.neg, c)
  | .not c => some (.not, c)
  | .abs c => some (.abs, c)
  | .clz c => some (.clz, c)
  | .ctz c => some (.ctz, c)
  | .popc c => some (.popc, c)
  | .brev c => some (.brev, c)
  | .bswap c => some (.bswap, c)
  | .sext c => some (.sext, c)
  | .add c => some (.add, c)
  | .sub c => some (.sub, c)
  | .mul c => some (.mul, c)
  | .mulh c => some (.mulh, c)
  | .mulhn c => some (.mulhn, c)
  | .div c => some (.div, c)
  | .divn c => some (.divn, c)
  | .rem c => some (.rem, c)
  | .remn c => some (.remn, c)
  | .and c => some (.and, c)
  | .or c => some (.or, c)
  | .xor c => some (.xor, c)
  | .andn c => some (.andn, c)
  | .shl c => some (.shl, c)
  | .shr c => some (.shr, c)
  | .sar c => some (.sar, c)
  | .rol c => some (.rol, c)
  | .min c => some (.min, c)
  | .max c => some (.max, c)
  | .minn c => some (.minn, c)
  | .maxn c => some (.maxn, c)
  | .cmpeq c => some (.cmpeq, c)
  | .cmpne c => some (.cmpne, c)
  | .cmplt c => some (.cmplt, c)
  | .cmple c => some (.cmple, c)
  | .cmpltn c => some (.cmpltn, c)
  | .cmplen c => some (.cmplen, c)
  | .tst c => some (.tst, c)
  | .pand c => some (.pand, c)
  | .por c => some (.por, c)
  | .pxor c => some (.pxor, c)
  | .pnot c => some (.pnot, c)
  | .rdpw c => some (.rdpw, c)
  | .wrpw c => some (.wrpw, c)
  | .sel c => some (.sel, c)
  | .ldl c => some (.ldl, c)
  | .stl c => some (.stl, c)
  | .jr c => some (.jr, c)
  | .callr c => some (.callr, c)
  | .exit c => some (.exit, c)
  | .yield c => some (.yield, c)
  | .rdcyc c => some (.rdcyc, c)
  | .movi c => some (.movi, c)
  | .addi c => some (.addi, c)
  | .bt c => some (.bt, c)
  | .bf c => some (.bf, c)
  | .call c => some (.call, c)
  | .andi c => some (.andi, c)
  | .fadd c => some (.fadd, c)
  | .fsub c => some (.fsub, c)
  | .fmul c => some (.fmul, c)
  | .fdiv c => some (.fdiv, c)
  | .fmin c => some (.fmin, c)
  | .fmax c => some (.fmax, c)
  | .fma c => some (.fma, c)
  | .fms c => some (.fms, c)
  | .fsqrt c => some (.fsqrt, c)
  | .fabs c => some (.fabs, c)
  | .fneg c => some (.fneg, c)
  | .fcmpeq c => some (.fcmpeq, c)
  | .fcmplt c => some (.fcmplt, c)
  | .fcmple c => some (.fcmple, c)
  | .fcmpun c => some (.fcmpun, c)
  | .fclass c => some (.fclass, c)
  | .fcvt c => some (.fcvt, c)
  | .ftoi c => some (.ftoi, c)
  | .fton c => some (.fton, c)
  | .itof c => some (.itof, c)
  | .ntof c => some (.ntof, c)
  | .frnd c => some (.frnd, c)
  | .fclrf c => some (.fclrf, c)
  | .fmt c => some (.fmt, c)
  | .viadd c => some (.viadd, c)
  | .visub c => some (.visub, c)
  | .vimul c => some (.vimul, c)
  | .vimulh c => some (.vimulh, c)
  | .vimin c => some (.vimin, c)
  | .vimax c => some (.vimax, c)
  | .vand c => some (.vand, c)
  | .vor c => some (.vor, c)
  | .vxor c => some (.vxor, c)
  | .vshl c => some (.vshl, c)
  | .vshr c => some (.vshr, c)
  | .viadds c => some (.viadds, c)
  | .visubs c => some (.visubs, c)
  | .viabs c => some (.viabs, c)
  | .vineg c => some (.vineg, c)
  | .vimad c => some (.vimad, c)
  | .vadd c => some (.vadd, c)
  | .vsub c => some (.vsub, c)
  | .vmul c => some (.vmul, c)
  | .vdiv c => some (.vdiv, c)
  | .vmin c => some (.vmin, c)
  | .vmax c => some (.vmax, c)
  | .vfma c => some (.vfma, c)
  | .vsqrt c => some (.vsqrt, c)
  | .vabs c => some (.vabs, c)
  | .vneg c => some (.vneg, c)
  | .vicmpeq c => some (.vicmpeq, c)
  | .vicmplt c => some (.vicmplt, c)
  | .vicmple c => some (.vicmple, c)
  | .vcmpeq c => some (.vcmpeq, c)
  | .vcmplt c => some (.vcmplt, c)
  | .vcmple c => some (.vcmple, c)
  | .vcmpun c => some (.vcmpun, c)
  | .mand c => some (.mand, c)
  | .mor c => some (.mor, c)
  | .mxor c => some (.mxor, c)
  | .mnot c => some (.mnot, c)
  | .mpop c => some (.mpop, c)
  | .mall c => some (.mall, c)
  | .virsum c => some (.virsum, c)
  | .virmin c => some (.virmin, c)
  | .virmax c => some (.virmax, c)
  | .vrsum c => some (.vrsum, c)
  | .vrmin c => some (.vrmin, c)
  | .vrmax c => some (.vrmax, c)
  | .vperm c => some (.vperm, c)
  | .vbcast c => some (.vbcast, c)
  | .vext c => some (.vext, c)
  | .vins c => some (.vins, c)
  | .vmov c => some (.vmov, c)
  | .viota c => some (.viota, c)
  | .vsplati c => some (.vsplati, c)
  | .vfree c => some (.vfree, c)
  | .vld c => some (.vld, c)
  | .vst c => some (.vst, c)
  | .vlds c => some (.vlds, c)
  | .vsts c => some (.vsts, c)
  | .vgath c => some (.vgath, c)
  | .vscat c => some (.vscat, c)
  | .vcvt c => some (.vcvt, c)
  | .vcvti c => some (.vcvti, c)
  | .vcvtf c => some (.vcvtf, c)
  | .mxq c => some (.mxq, c)
  | .mxdq c => some (.mxdq, c)
  | .tsq c => some (.tsq, c)
  | .tsdq c => some (.tsdq, c)
  | .vldm c => some (.vldm, c)
  | .vstm c => some (.vstm, c)
  | .vlease c => some (.vlease, c)
  | .mcfg c => some (.mcfg, c)
  | .mgang c => some (.mgang, c)
  | .mresume c => some (.mresume, c)
  | .mbook c => some (.mbook, c)
  | .fopen c => some (.fopen, c)
  | .fjoin c => some (.fjoin, c)
  | .fclose c => some (.fclose, c)
  | .smode c => some (.smode, c)
  | .sstop c => some (.sstop, c)
  | .cpyg c => some (.cpyg, c)
  | .cpyp c => some (.cpyp, c)
  | .cpyd c => some (.cpyd, c)
  | .mwait c => some (.mwait, c)
  | .bdcfg c => some (.bdcfg, c)
  | .bdot c => some (.bdot, c)
  | .bdotq c => some (.bdotq, c)
  | .rowcopy c => some (.rowcopy, c)
  | .rowzero c => some (.rowzero, c)
  | .ld c => some (.ld, c)
  | .st c => some (.st, c)
  | .strel c => some (.strel, c)
  | .aadd c => some (.aadd, c)
  | .aand c => some (.aand, c)
  | .aor c => some (.aor, c)
  | .axor c => some (.axor, c)
  | .amin c => some (.amin, c)
  | .amax c => some (.amax, c)
  | .aminn c => some (.aminn, c)
  | .amaxn c => some (.amaxn, c)
  | .afadd c => some (.afadd, c)
  | .faadd c => some (.faadd, c)
  | .faand c => some (.faand, c)
  | .faor c => some (.faor, c)
  | .faxor c => some (.faxor, c)
  | .famin c => some (.famin, c)
  | .famax c => some (.famax, c)
  | .faminn c => some (.faminn, c)
  | .famaxn c => some (.famaxn, c)
  | .fafadd c => some (.fafadd, c)
  | .swp c => some (.swp, c)
  | .cas c => some (.cas, c)
  | .fence c => some (.fence, c)
  | .ldfe c => some (.ldfe, c)
  | .ldff c => some (.ldff, c)
  | .stfe c => some (.stfe, c)
  | .stff c => some (.stff, c)
  | .feclr c => some (.feclr, c)
  | .binit c => some (.binit, c)
  | .barr c => some (.barr, c)
  | .bwait c => some (.bwait, c)
  | .baw c => some (.baw, c)
  | .bdrop c => some (.bdrop, c)
  | .send c => some (.send, c)
  | .recv c => some (.recv, c)
  | .spawn c => some (.spawn, c)
  | .tpost c => some (.tpost, c)
  | .tbind c => some (.tbind, c)
  | .gcall c => some (.gcall, c)
  | .gret c => some (.gret, c)
  | .trap c => some (.trap, c)
  | .tret c => some (.tret, c)
  | .ctlr c => some (.ctlr, c)
  | .ctlw c => some (.ctlw, c)
  | .slinv c => some (.slinv, c)
  | .setkey c => some (.setkey, c)
  | .setown c => some (.setown, c)
  | .istw c => some (.istw, c)
  | .start c => some (.start, c)
  | .buoys c => some (.buoys, c)
  | .buoyc c => some (.buoyc, c)
  | .haltrq c => some (.haltrq, c)
  | .csave c => some (.csave, c)
  | .cload c => some (.cload, c)
  | _ => none

/-- Coded mnemonics 1 to 25 of the table. -/
def Op.partOne : List Op :=
  [.nop, .mov, .neg, .not, .abs, .clz, .ctz, .popc, .brev, .bswap, .sext, .add, .sub, .mul, .mulh, .mulhn, .div,
   .divn, .rem, .remn, .and, .or, .xor, .andn, .shl]

/-- Coded mnemonics 26 to 50 of the table. -/
def Op.partTwo : List Op :=
  [.shr, .sar, .rol, .min, .max, .minn, .maxn, .cmpeq, .cmpne, .cmplt, .cmple, .cmpltn, .cmplen, .tst, .pand, .por,
   .pxor, .pnot, .rdpw, .wrpw, .sel, .ldl, .stl, .jr, .callr]

/-- Coded mnemonics 51 to 75 of the table. -/
def Op.partThree : List Op :=
  [.exit, .yield, .rdcyc, .movi, .addi, .bt, .bf, .call, .andi, .fadd, .fsub, .fmul, .fdiv, .fmin, .fmax, .fma, .fms,
   .fsqrt, .fabs, .fneg, .fcmpeq, .fcmplt, .fcmple, .fcmpun, .fclass]

/-- Coded mnemonics 76 to 100 of the table. -/
def Op.partFour : List Op :=
  [.fcvt, .ftoi, .fton, .itof, .ntof, .frnd, .fclrf, .fmt, .viadd, .visub, .vimul, .vimulh, .vimin, .vimax, .vand,
   .vor, .vxor, .vshl, .vshr, .viadds, .visubs, .viabs, .vineg, .vimad, .vadd]

/-- Coded mnemonics 101 to 125 of the table. -/
def Op.partFive : List Op :=
  [.vsub, .vmul, .vdiv, .vmin, .vmax, .vfma, .vsqrt, .vabs, .vneg, .vicmpeq, .vicmplt, .vicmple, .vcmpeq, .vcmplt,
   .vcmple, .vcmpun, .mand, .mor, .mxor, .mnot, .mpop, .mall, .virsum, .virmin, .virmax]

/-- Coded mnemonics 126 to 150 of the table. -/
def Op.partSix : List Op :=
  [.vrsum, .vrmin, .vrmax, .vperm, .vbcast, .vext, .vins, .vmov, .viota, .vsplati, .vfree, .vld, .vst, .vlds, .vsts,
   .vgath, .vscat, .vcvt, .vcvti, .vcvtf, .mxq, .mxdq, .tsq, .tsdq, .vldm]

/-- Coded mnemonics 151 to 175 of the table. -/
def Op.partSeven : List Op :=
  [.vstm, .vlease, .mcfg, .mgang, .mresume, .mbook, .fopen, .fjoin, .fclose, .smode, .sstop, .cpyg, .cpyp, .cpyd,
   .mwait, .bdcfg, .bdot, .bdotq, .rowcopy, .rowzero, .ld, .st, .strel, .aadd, .aand]

/-- Coded mnemonics 176 to 200 of the table. -/
def Op.partEight : List Op :=
  [.aor, .axor, .amin, .amax, .aminn, .amaxn, .afadd, .faadd, .faand, .faor, .faxor, .famin, .famax, .faminn,
   .famaxn, .fafadd, .swp, .cas, .fence, .ldfe, .ldff, .stfe, .stff, .feclr, .binit]

/-- Coded mnemonics 201 to 225 of the table. -/
def Op.partNine : List Op :=
  [.barr, .bwait, .baw, .bdrop, .send, .recv, .spawn, .tpost, .tbind, .gcall, .gret, .trap, .tret, .ctlr, .ctlw,
   .slinv, .setkey, .setown, .istw, .start, .buoys, .buoyc, .haltrq, .csave, .cload]

/-- Every coded mnemonic, in the order of the table. -/
def Op.all : List Op :=
  Op.partOne ++ Op.partTwo ++ Op.partThree ++ Op.partFour ++ Op.partFive ++ Op.partSix ++ Op.partSeven ++ Op.partEight ++
  Op.partNine

end Sys2Proof
end

