-- ==== Sys2Proof/Machine/OpMap.lean ====
section
/-! DEFINITION. The opcode map (spec/02_opcode_map.md R48-R61): for every coded mnemonic its page, code, field kinds,
immediate, etype rule and prefixes, and the static checks of a chain (spec/01_instruction_words.md R19, R23, R25,
R28, R30, R49-R52, R58, R59). Every failed check is an ILLOP at the chain's first word. -/

namespace Sys2Proof

/-- What a register field of a base word or of XREG names (R25, R49, R50). `Alu` fields are read as well as written in
the two-operand form only; `Rmw` fields always are; `NQ` fields refuse the queue ports; `Opt` fields are used with
XREG only; `Alw` fields are read always (0 without XREG). -/
inductive FKind where
  | z | gDst | gSrc | gAlu | gRmw | gDstNQ | gSrcNQ | gMem | gAlw | gOpt | gIdx
  | pDst | pSrc | pAlu | pOpt | vDst | vSrc | vAlu | vRmw | vOpt | vAlw | mDst | mSrc | mAlu | mOpt
  deriving DecidableEq, Repr

/-- The code of a base word on its page: a form D opcode or a K opcode (R13, R14). -/
inductive OpCode where
  | d (n : Nat)
  | k (n : Nat)
  deriving DecidableEq, Repr

/-- What XIMM gives an instruction (R50): nothing, a value, mask control, or only the imm6 of the base word. -/
inductive ImmKind where
  | none | value | mask | imm6
  deriving DecidableEq, Repr

/-- The etype table an instruction uses, with its default code (R51). -/
inductive EtKind where
  | none
  | int (dflt : Nat)
  | flt (dflt : Nat)
  deriving DecidableEq, Repr

/-- One row of the opcode map. `perm` holds one bit per permitted etype code; `useScope` says that scope, urg and nt are
used; `long` that the instruction is a long operation (R34). -/
structure OpRow where
  page   : Nat
  code   : OpCode
  fd     : FKind
  fa     : FKind
  fb     : FKind
  imm    : ImmKind
  et     : EtKind
  perm   : BitVec 8
  useScope : Bool
  long   : Bool
  deriving DecidableEq, Repr

/-- Why a chain is refused (R19, R23, R28, R30, R49-R52, R58, R59); each is an ILLOP. -/
inductive DecodeErr where
  | pastEnd | tooManyPrefixes | dupXreg | dupXpage | badXpage | dupXctl | badXctl | unassigned
  | ximmNotAccepted | xctlNotAccepted | fifthBit | thirdField | mustBeZero | vectorField | maskField
  | wkDestination | queuePort | immWithThird | negatedP0 | etypeNotPermitted | xctlFieldNotUsed | immRange
  deriving DecidableEq, Repr

/-- The opcode map (R53-R60). -/
def opRow : Op → OpRow
  | .nop => ⟨0, .d 0x01, .z, .z, .z, .none, .none, 0x00, false, false⟩
  | .mov => ⟨0, .d 0x02, .gDst, .gSrc, .z, .none, .none, 0x00, false, false⟩
  | .neg => ⟨0, .d 0x03, .gDst, .gSrc, .z, .none, .none, 0x00, false, false⟩
  | .not => ⟨0, .d 0x04, .gDst, .gSrc, .z, .none, .none, 0x00, false, false⟩
  | .abs => ⟨0, .d 0x05, .gDst, .gSrc, .z, .none, .none, 0x00, false, false⟩
  | .clz => ⟨0, .d 0x06, .gDst, .gSrc, .z, .none, .none, 0x00, false, false⟩
  | .ctz => ⟨0, .d 0x07, .gDst, .gSrc, .z, .none, .none, 0x00, false, false⟩
  | .popc => ⟨0, .d 0x08, .gDst, .gSrc, .z, .none, .none, 0x00, false, false⟩
  | .brev => ⟨0, .d 0x09, .gDst, .gSrc, .z, .none, .none, 0x00, false, false⟩
  | .bswap => ⟨0, .d 0x0A, .gDst, .gSrc, .z, .none, .none, 0x00, false, false⟩
  | .sext => ⟨0, .d 0x0B, .gDst, .gSrc, .z, .none, .int 3, 0xFF, false, false⟩
  | .add => ⟨0, .d 0x0C, .gAlu, .gSrc, .gOpt, .value, .none, 0x00, false, false⟩
  | .sub => ⟨0, .d 0x0D, .gAlu, .gSrc, .gOpt, .value, .none, 0x00, false, false⟩
  | .mul => ⟨0, .d 0x0E, .gAlu, .gSrc, .gOpt, .value, .none, 0x00, false, false⟩
  | .mulh => ⟨0, .d 0x0F, .gAlu, .gSrc, .gOpt, .value, .none, 0x00, false, false⟩
  | .mulhn => ⟨0, .d 0x10, .gAlu, .gSrc, .gOpt, .value, .none, 0x00, false, false⟩
  | .div => ⟨0, .d 0x11, .gAlu, .gSrc, .gOpt, .value, .none, 0x00, false, true⟩
  | .divn => ⟨0, .d 0x12, .gAlu, .gSrc, .gOpt, .value, .none, 0x00, false, true⟩
  | .rem => ⟨0, .d 0x13, .gAlu, .gSrc, .gOpt, .value, .none, 0x00, false, true⟩
  | .remn => ⟨0, .d 0x14, .gAlu, .gSrc, .gOpt, .value, .none, 0x00, false, true⟩
  | .and => ⟨0, .d 0x15, .gAlu, .gSrc, .gOpt, .value, .none, 0x00, false, false⟩
  | .or => ⟨0, .d 0x16, .gAlu, .gSrc, .gOpt, .value, .none, 0x00, false, false⟩
  | .xor => ⟨0, .d 0x17, .gAlu, .gSrc, .gOpt, .value, .none, 0x00, false, false⟩
  | .andn => ⟨0, .d 0x18, .gAlu, .gSrc, .gOpt, .value, .none, 0x00, false, false⟩
  | .shl => ⟨0, .d 0x19, .gAlu, .gSrc, .gOpt, .value, .none, 0x00, false, false⟩
  | .shr => ⟨0, .d 0x1A, .gAlu, .gSrc, .gOpt, .value, .none, 0x00, false, false⟩
  | .sar => ⟨0, .d 0x1B, .gAlu, .gSrc, .gOpt, .value, .none, 0x00, false, false⟩
  | .rol => ⟨0, .d 0x1C, .gAlu, .gSrc, .gOpt, .value, .none, 0x00, false, false⟩
  | .min => ⟨0, .d 0x1D, .gAlu, .gSrc, .gOpt, .value, .none, 0x00, false, false⟩
  | .max => ⟨0, .d 0x1E, .gAlu, .gSrc, .gOpt, .value, .none, 0x00, false, false⟩
  | .minn => ⟨0, .d 0x1F, .gAlu, .gSrc, .gOpt, .value, .none, 0x00, false, false⟩
  | .maxn => ⟨0, .d 0x20, .gAlu, .gSrc, .gOpt, .value, .none, 0x00, false, false⟩
  | .cmpeq => ⟨0, .d 0x21, .pDst, .gSrc, .gOpt, .value, .none, 0x00, false, false⟩
  | .cmpne => ⟨0, .d 0x22, .pDst, .gSrc, .gOpt, .value, .none, 0x00, false, false⟩
  | .cmplt => ⟨0, .d 0x23, .pDst, .gSrc, .gOpt, .value, .none, 0x00, false, false⟩
  | .cmple => ⟨0, .d 0x24, .pDst, .gSrc, .gOpt, .value, .none, 0x00, false, false⟩
  | .cmpltn => ⟨0, .d 0x25, .pDst, .gSrc, .gOpt, .value, .none, 0x00, false, false⟩
  | .cmplen => ⟨0, .d 0x26, .pDst, .gSrc, .gOpt, .value, .none, 0x00, false, false⟩
  | .tst => ⟨0, .d 0x27, .pDst, .gSrc, .gOpt, .value, .none, 0x00, false, false⟩
  | .pand => ⟨0, .d 0x28, .pAlu, .pSrc, .pOpt, .none, .none, 0x00, false, false⟩
  | .por => ⟨0, .d 0x29, .pAlu, .pSrc, .pOpt, .none, .none, 0x00, false, false⟩
  | .pxor => ⟨0, .d 0x2A, .pAlu, .pSrc, .pOpt, .none, .none, 0x00, false, false⟩
  | .pnot => ⟨0, .d 0x2B, .pDst, .pSrc, .z, .none, .none, 0x00, false, false⟩
  | .rdpw => ⟨0, .d 0x2C, .gDst, .z, .z, .none, .none, 0x00, false, false⟩
  | .wrpw => ⟨0, .d 0x2D, .z, .gSrc, .z, .none, .none, 0x00, false, false⟩
  | .sel => ⟨0, .d 0x2E, .gDst, .gSrc, .gAlw, .none, .none, 0x00, false, false⟩
  | .ldl => ⟨0, .d 0x30, .gDst, .gMem, .gIdx, .value, .int 3, 0xFF, false, false⟩
  | .stl => ⟨0, .d 0x31, .gSrc, .gMem, .gIdx, .value, .int 3, 0xFF, false, false⟩
  | .jr => ⟨0, .d 0x32, .z, .gSrcNQ, .z, .none, .none, 0x00, false, false⟩
  | .callr => ⟨0, .d 0x33, .gDstNQ, .gSrcNQ, .z, .none, .none, 0x00, false, false⟩
  | .exit => ⟨0, .d 0x34, .z, .z, .z, .none, .none, 0x00, false, false⟩
  | .yield => ⟨0, .d 0x35, .z, .z, .z, .none, .none, 0x00, false, false⟩
  | .rdcyc => ⟨0, .d 0x36, .gDst, .z, .z, .none, .none, 0x00, false, false⟩
  | .movi => ⟨0, .k 0, .gDst, .z, .z, .value, .none, 0x00, false, false⟩
  | .addi => ⟨0, .k 1, .gRmw, .z, .z, .value, .none, 0x00, false, false⟩
  | .bt => ⟨0, .k 2, .pSrc, .z, .z, .value, .none, 0x00, false, false⟩
  | .bf => ⟨0, .k 3, .pSrc, .z, .z, .value, .none, 0x00, false, false⟩
  | .call => ⟨0, .k 4, .gDst, .z, .z, .value, .none, 0x00, false, false⟩
  | .andi => ⟨0, .k 5, .gRmw, .z, .z, .value, .none, 0x00, false, false⟩
  | .fadd => ⟨1, .d 0x00, .gAlu, .gSrc, .gOpt, .none, .flt 0, 0x0F, false, false⟩
  | .fsub => ⟨1, .d 0x01, .gAlu, .gSrc, .gOpt, .none, .flt 0, 0x0F, false, false⟩
  | .fmul => ⟨1, .d 0x02, .gAlu, .gSrc, .gOpt, .none, .flt 0, 0x0F, false, false⟩
  | .fdiv => ⟨1, .d 0x03, .gAlu, .gSrc, .gOpt, .none, .flt 0, 0x0F, false, true⟩
  | .fmin => ⟨1, .d 0x04, .gAlu, .gSrc, .gOpt, .none, .flt 0, 0x0F, false, false⟩
  | .fmax => ⟨1, .d 0x05, .gAlu, .gSrc, .gOpt, .none, .flt 0, 0x0F, false, false⟩
  | .fma => ⟨1, .d 0x06, .gRmw, .gSrc, .gAlw, .none, .flt 0, 0x0F, false, false⟩
  | .fms => ⟨1, .d 0x07, .gRmw, .gSrc, .gAlw, .none, .flt 0, 0x0F, false, false⟩
  | .fsqrt => ⟨1, .d 0x08, .gDst, .gSrc, .z, .none, .flt 0, 0x0F, false, true⟩
  | .fabs => ⟨1, .d 0x09, .gDst, .gSrc, .z, .none, .flt 0, 0x0F, false, false⟩
  | .fneg => ⟨1, .d 0x0A, .gDst, .gSrc, .z, .none, .flt 0, 0x0F, false, false⟩
  | .fcmpeq => ⟨1, .d 0x0B, .pDst, .gSrc, .gAlw, .none, .flt 0, 0x7F, false, false⟩
  | .fcmplt => ⟨1, .d 0x0C, .pDst, .gSrc, .gAlw, .none, .flt 0, 0x7F, false, false⟩
  | .fcmple => ⟨1, .d 0x0D, .pDst, .gSrc, .gAlw, .none, .flt 0, 0x7F, false, false⟩
  | .fcmpun => ⟨1, .d 0x0E, .pDst, .gSrc, .gAlw, .none, .flt 0, 0x7F, false, false⟩
  | .fclass => ⟨1, .d 0x0F, .gDst, .gSrc, .z, .none, .flt 0, 0x7F, false, false⟩
  | .fcvt => ⟨1, .d 0x10, .gDst, .gSrc, .z, .none, .flt 0, 0x7F, false, false⟩
  | .ftoi => ⟨1, .d 0x11, .gDst, .gSrc, .z, .none, .flt 0, 0x7F, false, false⟩
  | .fton => ⟨1, .d 0x12, .gDst, .gSrc, .z, .none, .flt 0, 0x7F, false, false⟩
  | .itof => ⟨1, .d 0x13, .gDst, .gSrc, .z, .none, .flt 0, 0x0F, false, false⟩
  | .ntof => ⟨1, .d 0x14, .gDst, .gSrc, .z, .none, .flt 0, 0x0F, false, false⟩
  | .frnd => ⟨1, .d 0x15, .gDst, .gSrc, .z, .none, .flt 0, 0x0F, false, false⟩
  | .fclrf => ⟨1, .d 0x16, .z, .z, .z, .value, .none, 0x00, false, false⟩
  | .fmt => ⟨1, .k 0, .z, .z, .z, .value, .none, 0x00, false, false⟩
  | .viadd => ⟨2, .d 0x00, .vAlu, .vSrc, .vOpt, .mask, .int 2, 0xFF, false, true⟩
  | .visub => ⟨2, .d 0x01, .vAlu, .vSrc, .vOpt, .mask, .int 2, 0xFF, false, true⟩
  | .vimul => ⟨2, .d 0x02, .vAlu, .vSrc, .vOpt, .mask, .int 2, 0xFF, false, true⟩
  | .vimulh => ⟨2, .d 0x03, .vAlu, .vSrc, .vOpt, .mask, .int 2, 0xFF, false, true⟩
  | .vimin => ⟨2, .d 0x04, .vAlu, .vSrc, .vOpt, .mask, .int 2, 0xFF, false, true⟩
  | .vimax => ⟨2, .d 0x05, .vAlu, .vSrc, .vOpt, .mask, .int 2, 0xFF, false, true⟩
  | .vand => ⟨2, .d 0x06, .vAlu, .vSrc, .vOpt, .mask, .int 2, 0xFF, false, true⟩
  | .vor => ⟨2, .d 0x07, .vAlu, .vSrc, .vOpt, .mask, .int 2, 0xFF, false, true⟩
  | .vxor => ⟨2, .d 0x08, .vAlu, .vSrc, .vOpt, .mask, .int 2, 0xFF, false, true⟩
  | .vshl => ⟨2, .d 0x09, .vAlu, .vSrc, .vOpt, .mask, .int 2, 0xFF, false, true⟩
  | .vshr => ⟨2, .d 0x0A, .vAlu, .vSrc, .vOpt, .mask, .int 2, 0xFF, false, true⟩
  | .viadds => ⟨2, .d 0x0B, .vAlu, .vSrc, .vOpt, .mask, .int 2, 0xFF, false, true⟩
  | .visubs => ⟨2, .d 0x0C, .vAlu, .vSrc, .vOpt, .mask, .int 2, 0xFF, false, true⟩
  | .viabs => ⟨2, .d 0x0D, .vDst, .vSrc, .z, .mask, .int 2, 0xFF, false, true⟩
  | .vineg => ⟨2, .d 0x0E, .vDst, .vSrc, .z, .mask, .int 2, 0xFF, false, true⟩
  | .vimad => ⟨2, .d 0x0F, .vRmw, .vSrc, .vAlw, .mask, .int 2, 0xFF, false, true⟩
  | .vadd => ⟨2, .d 0x10, .vAlu, .vSrc, .vOpt, .mask, .flt 1, 0x0F, false, true⟩
  | .vsub => ⟨2, .d 0x11, .vAlu, .vSrc, .vOpt, .mask, .flt 1, 0x0F, false, true⟩
  | .vmul => ⟨2, .d 0x12, .vAlu, .vSrc, .vOpt, .mask, .flt 1, 0x0F, false, true⟩
  | .vdiv => ⟨2, .d 0x13, .vAlu, .vSrc, .vOpt, .mask, .flt 1, 0x0F, false, true⟩
  | .vmin => ⟨2, .d 0x14, .vAlu, .vSrc, .vOpt, .mask, .flt 1, 0x0F, false, true⟩
  | .vmax => ⟨2, .d 0x15, .vAlu, .vSrc, .vOpt, .mask, .flt 1, 0x0F, false, true⟩
  | .vfma => ⟨2, .d 0x16, .vRmw, .vSrc, .vAlw, .mask, .flt 1, 0x0F, false, true⟩
  | .vsqrt => ⟨2, .d 0x17, .vDst, .vSrc, .z, .mask, .flt 1, 0x0F, false, true⟩
  | .vabs => ⟨2, .d 0x18, .vDst, .vSrc, .z, .mask, .flt 1, 0x0F, false, true⟩
  | .vneg => ⟨2, .d 0x19, .vDst, .vSrc, .z, .mask, .flt 1, 0x0F, false, true⟩
  | .vicmpeq => ⟨2, .d 0x1A, .mDst, .vSrc, .vAlw, .mask, .int 2, 0xFF, false, true⟩
  | .vicmplt => ⟨2, .d 0x1B, .mDst, .vSrc, .vAlw, .mask, .int 2, 0xFF, false, true⟩
  | .vicmple => ⟨2, .d 0x1C, .mDst, .vSrc, .vAlw, .mask, .int 2, 0xFF, false, true⟩
  | .vcmpeq => ⟨2, .d 0x1D, .mDst, .vSrc, .vAlw, .mask, .flt 1, 0x7F, false, true⟩
  | .vcmplt => ⟨2, .d 0x1E, .mDst, .vSrc, .vAlw, .mask, .flt 1, 0x7F, false, true⟩
  | .vcmple => ⟨2, .d 0x1F, .mDst, .vSrc, .vAlw, .mask, .flt 1, 0x7F, false, true⟩
  | .vcmpun => ⟨2, .d 0x20, .mDst, .vSrc, .vAlw, .mask, .flt 1, 0x7F, false, true⟩
  | .mand => ⟨2, .d 0x21, .mAlu, .mSrc, .mOpt, .none, .none, 0x00, false, false⟩
  | .mor => ⟨2, .d 0x22, .mAlu, .mSrc, .mOpt, .none, .none, 0x00, false, false⟩
  | .mxor => ⟨2, .d 0x23, .mAlu, .mSrc, .mOpt, .none, .none, 0x00, false, false⟩
  | .mnot => ⟨2, .d 0x24, .mDst, .mSrc, .z, .none, .none, 0x00, false, false⟩
  | .mpop => ⟨2, .d 0x25, .gDst, .mSrc, .z, .none, .none, 0x00, false, false⟩
  | .mall => ⟨2, .d 0x26, .mDst, .z, .z, .none, .none, 0x00, false, false⟩
  | .virsum => ⟨2, .d 0x27, .gDst, .vSrc, .z, .mask, .int 2, 0xFF, false, true⟩
  | .virmin => ⟨2, .d 0x28, .gDst, .vSrc, .z, .mask, .int 2, 0xFF, false, true⟩
  | .virmax => ⟨2, .d 0x29, .gDst, .vSrc, .z, .mask, .int 2, 0xFF, false, true⟩
  | .vrsum => ⟨2, .d 0x2A, .gDst, .vSrc, .z, .mask, .flt 1, 0x0F, false, true⟩
  | .vrmin => ⟨2, .d 0x2B, .gDst, .vSrc, .z, .mask, .flt 1, 0x0F, false, true⟩
  | .vrmax => ⟨2, .d 0x2C, .gDst, .vSrc, .z, .mask, .flt 1, 0x0F, false, true⟩
  | .vperm => ⟨2, .d 0x2D, .vDst, .vSrc, .vAlw, .none, .int 2, 0xFF, false, true⟩
  | .vbcast => ⟨2, .d 0x2E, .vDst, .gSrc, .z, .none, .int 2, 0xFF, false, true⟩
  | .vext => ⟨2, .d 0x2F, .gDst, .vSrc, .z, .value, .int 2, 0xFF, false, false⟩
  | .vins => ⟨2, .d 0x30, .vRmw, .gSrc, .z, .value, .int 2, 0xFF, false, false⟩
  | .vmov => ⟨2, .d 0x31, .vDst, .vSrc, .z, .mask, .none, 0x00, false, true⟩
  | .viota => ⟨2, .d 0x32, .vDst, .z, .z, .mask, .int 2, 0xFF, false, true⟩
  | .vsplati => ⟨2, .k 0, .vDst, .z, .z, .value, .int 2, 0xFF, false, true⟩
  | .vfree => ⟨3, .d 0x00, .z, .z, .z, .none, .none, 0x00, false, false⟩
  | .vld => ⟨3, .d 0x01, .vDst, .gMem, .gIdx, .value, .none, 0x00, false, true⟩
  | .vst => ⟨3, .d 0x02, .vSrc, .gMem, .gIdx, .value, .none, 0x00, false, true⟩
  | .vlds => ⟨3, .d 0x03, .vDst, .gMem, .gAlw, .none, .none, 0x00, false, true⟩
  | .vsts => ⟨3, .d 0x04, .vSrc, .gMem, .gAlw, .none, .none, 0x00, false, true⟩
  | .vgath => ⟨3, .d 0x05, .vDst, .gMem, .vAlw, .mask, .int 2, 0xFF, false, true⟩
  | .vscat => ⟨3, .d 0x06, .vSrc, .gMem, .vAlw, .mask, .int 2, 0xFF, false, true⟩
  | .vcvt => ⟨3, .d 0x07, .vDst, .vSrc, .z, .mask, .flt 1, 0x7F, false, true⟩
  | .vcvti => ⟨3, .d 0x08, .vDst, .vSrc, .z, .mask, .int 2, 0xFF, false, true⟩
  | .vcvtf => ⟨3, .d 0x09, .vDst, .vSrc, .z, .mask, .flt 1, 0x3F, false, true⟩
  | .mxq => ⟨3, .d 0x0A, .vDst, .vSrc, .z, .none, .flt 1, 0x70, false, true⟩
  | .mxdq => ⟨3, .d 0x0B, .vDst, .vSrc, .z, .none, .flt 1, 0x70, false, true⟩
  | .tsq => ⟨3, .d 0x0C, .vDst, .vSrc, .z, .none, .none, 0x00, false, true⟩
  | .tsdq => ⟨3, .d 0x0D, .vDst, .vSrc, .z, .none, .none, 0x00, false, true⟩
  | .vldm => ⟨3, .d 0x0E, .mDst, .gMem, .gIdx, .value, .none, 0x00, false, false⟩
  | .vstm => ⟨3, .d 0x0F, .mSrc, .gMem, .gIdx, .value, .none, 0x00, false, false⟩
  | .vlease => ⟨3, .k 0, .z, .z, .z, .imm6, .none, 0x00, false, false⟩
  | .mcfg => ⟨4, .d 0x00, .z, .gSrc, .z, .none, .none, 0x00, false, false⟩
  | .mgang => ⟨4, .d 0x01, .z, .gSrc, .z, .none, .none, 0x00, false, false⟩
  | .mresume => ⟨4, .d 0x02, .z, .gMem, .gIdx, .value, .none, 0x00, false, false⟩
  | .mbook => ⟨4, .d 0x03, .z, .gMem, .gIdx, .value, .none, 0x00, false, false⟩
  | .fopen => ⟨4, .d 0x04, .gDstNQ, .gSrc, .z, .none, .none, 0x00, false, false⟩
  | .fjoin => ⟨4, .d 0x05, .gDstNQ, .gSrc, .gAlw, .none, .none, 0x00, false, false⟩
  | .fclose => ⟨4, .d 0x06, .z, .gSrc, .z, .none, .none, 0x00, false, false⟩
  | .smode => ⟨4, .d 0x07, .vDst, .gMem, .gIdx, .value, .none, 0x00, false, false⟩
  | .sstop => ⟨4, .d 0x08, .vDst, .z, .z, .none, .none, 0x00, false, false⟩
  | .cpyg => ⟨4, .d 0x09, .gSrc, .gSrc, .gAlw, .value, .none, 0x00, true, false⟩
  | .cpyp => ⟨4, .d 0x0A, .gSrc, .gSrc, .gAlw, .value, .none, 0x00, true, false⟩
  | .cpyd => ⟨4, .d 0x0B, .gSrc, .gSrc, .gAlw, .value, .none, 0x00, true, false⟩
  | .mwait => ⟨4, .d 0x0C, .z, .gSrc, .z, .value, .none, 0x00, false, false⟩
  | .bdcfg => ⟨4, .d 0x0D, .z, .gSrc, .z, .none, .none, 0x00, false, false⟩
  | .bdot => ⟨4, .d 0x0E, .gDst, .gMem, .z, .none, .none, 0x00, false, true⟩
  | .bdotq => ⟨4, .d 0x0F, .z, .gMem, .z, .none, .none, 0x00, false, true⟩
  | .rowcopy => ⟨4, .d 0x10, .gSrc, .gSrc, .z, .value, .none, 0x00, false, false⟩
  | .rowzero => ⟨4, .d 0x11, .gSrc, .z, .z, .value, .none, 0x00, false, false⟩
  | .ld => ⟨5, .d 0x00, .gDst, .gMem, .gIdx, .value, .int 3, 0xFF, true, true⟩
  | .st => ⟨5, .d 0x01, .gSrc, .gMem, .gIdx, .value, .int 3, 0xFF, true, false⟩
  | .strel => ⟨5, .d 0x02, .gSrc, .gMem, .gIdx, .value, .int 3, 0xFF, true, false⟩
  | .aadd => ⟨5, .d 0x03, .gSrc, .gMem, .gIdx, .value, .int 3, 0xFF, true, false⟩
  | .aand => ⟨5, .d 0x04, .gSrc, .gMem, .gIdx, .value, .int 3, 0xFF, true, false⟩
  | .aor => ⟨5, .d 0x05, .gSrc, .gMem, .gIdx, .value, .int 3, 0xFF, true, false⟩
  | .axor => ⟨5, .d 0x06, .gSrc, .gMem, .gIdx, .value, .int 3, 0xFF, true, false⟩
  | .amin => ⟨5, .d 0x07, .gSrc, .gMem, .gIdx, .value, .int 3, 0xFF, true, false⟩
  | .amax => ⟨5, .d 0x08, .gSrc, .gMem, .gIdx, .value, .int 3, 0xFF, true, false⟩
  | .aminn => ⟨5, .d 0x09, .gSrc, .gMem, .gIdx, .value, .int 3, 0xFF, true, false⟩
  | .amaxn => ⟨5, .d 0x0A, .gSrc, .gMem, .gIdx, .value, .int 3, 0xFF, true, false⟩
  | .afadd => ⟨5, .d 0x0B, .gSrc, .gMem, .gIdx, .value, .flt 0, 0x0F, true, false⟩
  | .faadd => ⟨5, .d 0x0C, .gRmw, .gMem, .gIdx, .value, .int 3, 0xFF, true, true⟩
  | .faand => ⟨5, .d 0x0D, .gRmw, .gMem, .gIdx, .value, .int 3, 0xFF, true, true⟩
  | .faor => ⟨5, .d 0x0E, .gRmw, .gMem, .gIdx, .value, .int 3, 0xFF, true, true⟩
  | .faxor => ⟨5, .d 0x0F, .gRmw, .gMem, .gIdx, .value, .int 3, 0xFF, true, true⟩
  | .famin => ⟨5, .d 0x10, .gRmw, .gMem, .gIdx, .value, .int 3, 0xFF, true, true⟩
  | .famax => ⟨5, .d 0x11, .gRmw, .gMem, .gIdx, .value, .int 3, 0xFF, true, true⟩
  | .faminn => ⟨5, .d 0x12, .gRmw, .gMem, .gIdx, .value, .int 3, 0xFF, true, true⟩
  | .famaxn => ⟨5, .d 0x13, .gRmw, .gMem, .gIdx, .value, .int 3, 0xFF, true, true⟩
  | .fafadd => ⟨5, .d 0x14, .gRmw, .gMem, .gIdx, .value, .flt 0, 0x0F, true, true⟩
  | .swp => ⟨5, .d 0x15, .gRmw, .gMem, .gIdx, .value, .int 3, 0xFF, true, true⟩
  | .cas => ⟨5, .d 0x16, .gRmw, .gMem, .gAlw, .value, .int 3, 0xFF, true, true⟩
  | .fence => ⟨5, .d 0x17, .z, .z, .z, .none, .none, 0x00, true, false⟩
  | .ldfe => ⟨5, .d 0x18, .gDst, .gMem, .gIdx, .value, .none, 0x00, true, true⟩
  | .ldff => ⟨5, .d 0x19, .gDst, .gMem, .gIdx, .value, .none, 0x00, true, true⟩
  | .stfe => ⟨5, .d 0x1A, .gSrc, .gMem, .gIdx, .value, .none, 0x00, true, false⟩
  | .stff => ⟨5, .d 0x1B, .gSrc, .gMem, .gIdx, .value, .none, 0x00, true, false⟩
  | .feclr => ⟨5, .d 0x1C, .z, .gMem, .gIdx, .value, .none, 0x00, true, false⟩
  | .binit => ⟨5, .d 0x1D, .z, .gSrc, .z, .value, .none, 0x00, true, false⟩
  | .barr => ⟨5, .d 0x1E, .z, .z, .z, .value, .none, 0x00, true, false⟩
  | .bwait => ⟨5, .d 0x1F, .gDstNQ, .z, .z, .value, .none, 0x00, true, false⟩
  | .baw => ⟨5, .d 0x20, .gDstNQ, .z, .z, .value, .none, 0x00, true, false⟩
  | .bdrop => ⟨5, .d 0x21, .z, .z, .z, .value, .none, 0x00, true, false⟩
  | .send => ⟨5, .d 0x22, .gSrc, .gSrc, .z, .value, .none, 0x00, true, false⟩
  | .recv => ⟨5, .d 0x23, .gDstNQ, .gSrc, .z, .none, .none, 0x00, false, false⟩
  | .spawn => ⟨5, .d 0x24, .gSrc, .gSrc, .z, .none, .none, 0x00, true, false⟩
  | .tpost => ⟨5, .d 0x25, .gSrc, .gSrc, .z, .none, .none, 0x00, true, false⟩
  | .tbind => ⟨5, .d 0x26, .gSrc, .gSrc, .z, .none, .none, 0x00, false, false⟩
  | .gcall => ⟨6, .d 0x00, .z, .z, .z, .value, .none, 0x00, false, false⟩
  | .gret => ⟨6, .d 0x01, .z, .z, .z, .value, .none, 0x00, false, false⟩
  | .trap => ⟨6, .d 0x02, .z, .z, .z, .value, .none, 0x00, false, false⟩
  | .tret => ⟨6, .d 0x03, .z, .z, .z, .none, .none, 0x00, false, false⟩
  | .ctlr => ⟨6, .d 0x04, .gDst, .z, .z, .value, .none, 0x00, false, false⟩
  | .ctlw => ⟨6, .d 0x05, .z, .gSrc, .z, .value, .none, 0x00, false, false⟩
  | .slinv => ⟨6, .d 0x06, .z, .gSrc, .z, .none, .none, 0x00, true, false⟩
  | .setkey => ⟨6, .d 0x07, .gSrc, .gSrc, .z, .none, .none, 0x00, false, false⟩
  | .setown => ⟨6, .d 0x08, .z, .gSrc, .z, .none, .none, 0x00, false, false⟩
  | .istw => ⟨6, .d 0x09, .gSrc, .gSrc, .z, .none, .none, 0x00, false, false⟩
  | .start => ⟨6, .d 0x0A, .gSrc, .gSrc, .z, .none, .none, 0x00, false, false⟩
  | .buoys => ⟨6, .d 0x0B, .gDstNQ, .gSrc, .z, .none, .none, 0x00, false, false⟩
  | .buoyc => ⟨6, .d 0x0C, .z, .gSrc, .z, .none, .none, 0x00, false, false⟩
  | .haltrq => ⟨6, .d 0x0D, .z, .gSrc, .z, .none, .none, 0x00, false, false⟩
  | .csave => ⟨6, .d 0x0E, .gRmw, .gSrc, .z, .none, .none, 0x00, false, false⟩
  | .cload => ⟨6, .d 0x0F, .gRmw, .gSrc, .z, .none, .none, 0x00, false, false⟩
/-- The field names a vector register (R30). -/
def FKind.isVec : FKind → Bool
  | .vDst | .vSrc | .vAlu | .vRmw | .vOpt | .vAlw => true
  | _ => false

/-- The field names a mask (R49). -/
def FKind.isMask : FKind → Bool
  | .mDst | .mSrc | .mAlu | .mOpt => true
  | _ => false

/-- The field names a predicate (R49). -/
def FKind.isPred : FKind → Bool
  | .pDst | .pSrc | .pAlu | .pOpt => true
  | _ => false

/-- The field names a scalar register (R25). -/
def FKind.isScalar : FKind → Bool
  | .gDst | .gSrc | .gAlu | .gRmw | .gDstNQ | .gSrcNQ | .gMem | .gAlw | .gOpt | .gIdx => true
  | _ => false

/-- The field is a destination. -/
def FKind.isDst : FKind → Bool
  | .gDst | .gAlu | .gRmw | .gDstNQ | .pDst | .pAlu | .vDst | .vAlu | .vRmw | .mDst | .mAlu => true
  | _ => false

/-- A scalar field value 12 to 15 names a queue port (R25). -/
def isQueue (f : BitVec 4) : Bool := 12 ≤ f.toNat

/-- XREG's b field, 0 without XREG. -/
def Chain.b (c : Chain) : BitVec 4 := (c.xreg.map (·.b)).getD 0
/-- The guard predicate, p0 without XREG (R19). -/
def Chain.guard (c : Chain) : BitVec 4 := (c.xreg.map (·.guard)).getD 0
/-- The chain holds an XIMM. -/
def Chain.hasImm (c : Chain) : Bool := !c.ximm.isEmpty
/-- The chain holds an XREG. -/
def Chain.hasReg (c : Chain) : Bool := c.xreg.isSome

/-- The five-bit number of the vector register a field names (R30). -/
def Chain.vd (c : Chain) : Nat := c.d.toNat + flagBit ((c.xreg.map (·.d5)).getD false) 4
def Chain.va (c : Chain) : Nat := c.a.toNat + flagBit ((c.xreg.map (·.a5)).getD false) 4
def Chain.vb (c : Chain) : Nat := c.b.toNat + flagBit ((c.xreg.map (·.b5)).getD false) 4

/-- The value XIMM words accumulate (R17): the first starts at sx(pay, 11), each later one multiplies by 2,048 and
adds its payload. -/
def ximmAcc : List (BitVec 11) → Int
  | [] => 0
  | p :: rest => rest.foldl (fun acc q => acc * 2048 + (q.toNat : Int)) p.toInt

/-- The base word is of form K (R14). -/
def Op.isK (o : Op) : Bool := match (opRow o).code with | .d _ => false | .k _ => true

/-- The immediate a base word receives, before its extension to 64 bits (R18). -/
def immInt (o : Op) (c : Chain) : Int :=
  if o.isK then (if c.hasImm then ximmAcc c.ximm * 64 + (c.imm6.toNat : Int) else c.imm6.toInt)
  else ximmAcc c.ximm

/-- The immediate extended to 64 bits (R18). -/
def immVal (o : Op) (c : Chain) : Word := BitVec.ofInt 64 (immInt o c)

/-- The etype code in force: XCTL's, or the default of the instruction (R51). -/
def etCode (o : Op) (c : Chain) : Nat :=
  match c.xctl with
  | some x => x.etype.toNat
  | none => match (opRow o).et with | .none => 0 | .int d => d | .flt d => d

/-- The scope in force: XCTL's, or pod (R51). -/
def Chain.scope (c : Chain) : Scope := (c.xctl.map (·.scope)).getD .pod
def Chain.urg (c : Chain) : Bool := (c.xctl.map (·.urg)).getD false
def Chain.nt (c : Chain) : Bool := (c.xctl.map (·.nt)).getD false

/-- The chain holds an XPAGE word: always on pages 1 to 6, on page 0 only to carry a negated guard (R20). -/
def hasXpage (o : Op) (c : Chain) : Bool := (opRow o).page != 0 || c.neg

/-- The number of prefix words of a chain (R23). -/
def prefixCount (o : Op) (c : Chain) : Nat :=
  c.ximm.length + c.xreg.isSome.toNat + c.xctl.isSome.toNat + (hasXpage o c).toNat

/-- The bytes a chain occupies (R22). -/
def chainBytes (o : Op) (c : Chain) : Nat := 2 * (prefixCount o c + 1)

/-- The third field is an operand of this chain: an optional one with XREG and no value immediate, an always-read one
in any case (R50). -/
def usesB (o : Op) (c : Chain) : Bool :=
  match (opRow o).fb with
  | .z => false
  | .gAlw | .vAlw => true
  | .gOpt | .gIdx => c.hasReg && !c.hasImm
  | _ => c.hasReg

/-- The two-operand form d := d op a (R50). -/
def twoOperand (o : Op) (c : Chain) : Bool :=
  match (opRow o).fd with
  | .gAlu => !c.hasReg && !c.hasImm
  | .pAlu | .vAlu | .mAlu => !c.hasReg
  | _ => false

/-- d is read as a source of the operation as well as written (R13). -/
def dReadWritten (o : Op) (c : Chain) : Bool :=
  match (opRow o).fd with
  | .gRmw | .vRmw => true
  | .gAlu | .pAlu | .vAlu | .mAlu => twoOperand o c
  | _ => false

/-- FSEL obeys the rules of R80: RMO, AFMT and BFMT are zero where RO, AV and BV are. -/
def fselOk (f : BitVec 12) : Bool :=
  (bit f 10 || bits f 9 8 == 0) && (bit f 7 || bits f 6 4 == 0) && (bit f 3 || bits f 2 0 == 0)

/-- The queue ports a chain names as sources (R28). -/
def queueSources (o : Op) (c : Chain) : List (BitVec 4) :=
  let r := opRow o
  (if r.fd == .gSrc && isQueue c.d then [c.d] else []) ++
  (if r.fa == .gSrc && isQueue c.a then [c.a] else []) ++
  (if r.fb.isScalar && usesB o c && isQueue c.b then [c.b] else [])

/-- d names a queue port the chain pushes to (R25). -/
def queueDest (o : Op) (c : Chain) : Bool :=
  ((opRow o).fd == .gDst || (opRow o).fd == .gAlu) && isQueue c.d

/-- The rules of R19 on fifth bits and the third field. -/
def fieldErr (o : Op) (c : Chain) : Option DecodeErr :=
  let r := opRow o
  match c.xreg with
  | none => none
  | some x =>
    if (x.d5 && !r.fd.isVec) || (x.a5 && !r.fa.isVec) || (x.b5 && !r.fb.isVec) then some .fifthBit
    else if r.fb == .z && x.b != 0 then some .thirdField
    else if (r.fb == .gOpt || r.fb == .gIdx) && r.imm == .value && c.hasImm && x.b != 0 then some .immWithThird
    else none

/-- The register fields (R25, R28, R30, R49). -/
def regErr (o : Op) (c : Chain) : Option DecodeErr :=
  let r := opRow o
  if (r.fd == .z && c.d != 0) || (r.fa == .z && c.a != 0) then some .mustBeZero
  else if (o.isK && c.a != 0) || (!o.isK && c.imm6 != 0) then some .mustBeZero
  else if !c.hasReg && ((r.fd.isVec && 8 ≤ c.d.toNat) || (r.fa.isVec && 8 ≤ c.a.toNat)) then some .vectorField
  else if (r.fd.isMask && 4 ≤ c.d.toNat) || (r.fa.isMask && 4 ≤ c.a.toNat) || (r.fb.isMask && 4 ≤ c.b.toNat) then
    some .maskField
  else if r.fd.isScalar && r.fd.isDst && c.d == 11 then some .wkDestination
  else if r.fd.isScalar && r.fd.isDst && c.d == 15 then some .queuePort
  else if (r.fd == .gDstNQ && isQueue c.d) || ((r.fa == .gSrcNQ || r.fa == .gMem) && isQueue c.a) then some .queuePort
  else if r.fd.isScalar && dReadWritten o c && isQueue c.d then some .queuePort
  else if 2 ≤ (queueSources o c).length then some .queuePort
  else if r.long && queueDest o c then some .queuePort
  else none

/-- XIMM, XCTL and the guard (R23, R51). -/
def acceptErr (o : Op) (c : Chain) : Option DecodeErr :=
  let r := opRow o
  if 4 < prefixCount o c then some .tooManyPrefixes
  else if c.hasImm && (r.imm == .none || r.imm == .imm6) then some .ximmNotAccepted
  else if c.neg && c.guard == 0 then some .negatedP0
  else match c.xctl with
    | none => if r.et == .none || bit r.perm (etCode o c) then none else some .etypeNotPermitted
    | some x =>
      if r.et == .none && !r.useScope then some .xctlNotAccepted
      else if r.et == .none && x.etype != 0 then some .xctlFieldNotUsed
      else if !r.useScope && (x.scope != .core || x.urg || x.nt) then some .xctlFieldNotUsed
      else if r.et != .none && !bit r.perm x.etype.toNat then some .etypeNotPermitted
      else none

/-- The element count of an integer etype code in a vector register (R31). -/
def etCount (code : Nat) : Nat := 128 / 2 ^ (code % 4)

/-- The immediates that a fixed range limits (R52, R55, R57-R60, R135), scope 0b00 of a barrier apart. -/
def immRangeOk (o : Op) (c : Chain) : Bool :=
  let i := immInt o c
  let upto (n : Int) : Bool := decide (0 ≤ i) && decide (i ≤ n)
  match o with
  | .fclrf => upto 31
  | .fmt => upto 4095 && fselOk (BitVec.ofInt 12 i)
  | .vlease => decide (1 ≤ i) && decide (i ≤ 4)
  | .vext | .vins => decide (0 ≤ i) && decide (i < (etCount (etCode o c) : Int))
  | .cpyg | .cpyp | .cpyd | .mwait | .rowcopy | .rowzero => upto 15
  | .smode | .sstop => decide (4 ≤ c.vd) && decide (c.vd ≤ 7)
  | .binit | .barr | .bwait | .baw | .bdrop => upto (if c.scope == .cluster then 63 else 255)
  | .send => decide (1 ≤ i) && decide (i ≤ 16)
  | .gcall => upto 4095
  | .gret => upto 1023
  | .trap => upto 2047
  | .ctlr | .ctlw => decide (0 ≤ i)
  | .spawn | .tpost | .slinv => c.scope == .cube || c.scope == .pod
  | .fence => !c.urg && !c.nt
  | _ => (opRow o).imm != .mask || (upto 15 && (i / 4 % 4 != 2))

/-- Every static check of a chain: the first that fails. -/
def chainErr (o : Op) (c : Chain) : Option DecodeErr :=
  match acceptErr o c with
  | some e => some e
  | none =>
    match fieldErr o c with
    | some e => some e
    | none =>
      match regErr o c with
      | some e => some e
      | none => if immRangeOk o c then none else some .immRange

/-- Does a row stand at this page and 7-bit opcode (R12-R14, R48)? -/
def OpRow.sits (r : OpRow) (page opcode : Nat) : Bool :=
  r.page == page &&
    match r.code with
    | .d n => opcode == n
    | .k k => opcode / 4 == 24 + k

/-- The instruction at a page and opcode; none where it is unassigned (R48). -/
def opAt (page opcode : Nat) : Option Op := Op.all.find? (fun o => (opRow o).sits page opcode)

end Sys2Proof
end

