-- ==== Sys2Proof/WellFormed.lean ====
section
/-! DEFINITION. Well-formed instructions: chains that no static check refuses (spec/01_instruction_words.md R19, R23,
R28, R30; spec/02_opcode_map.md R49-R52), and steps whose numbers name parts that the cube has (spec/00_scope.md R1,
R2). -/

namespace Sys2Proof

/-- A core number of the cube: 1,024 compute cores and 4 steward cores (R1, R2). -/
def isCore (n : Nat) : Bool := n < 1028
/-- A context slot (spec/08_threads_and_work.md R228). -/
def isSlot (n : Nat) : Bool := n < 64
/-- A front end (R2). -/
def isFront (n : Nat) : Bool := n < 64
/-- A Nerven port (R1). -/
def isPort (n : Nat) : Bool := n < 16

/-- A chain passes every static check. -/
def chainWf (o : Op) (c : Chain) : Bool := (chainErr o c).isNone

/-- The parts a step without an encoding names exist. -/
def eventWf : Instr → Bool
  | .matrixWord0Push core slot _ | .compute core slot _ | .acczero core slot _ | .accload core slot _
  | .accstore core slot _ | .copyDescriptorPush core slot _ | .queuePortPop core slot _ _ | .blockRelease core slot
  | .resultReturn core slot | .trapEntry core slot | .ferryDepart core slot | .feSleepExpire core slot
  | .mwaitTimeout core slot | .streamStripFetch core slot _ | .bdotqResultDeliver core slot
  | .barrierQueryRetry core slot | .threadStop core slot | .threadRelease core slot | .buoyRetire core slot
  | .frecClear core slot => isCore core && (isSlot slot)
  | .leaseGrant core | .ferryAdmit core | .heldMessagesRelease core | .stfeQueueExpire core
  | .rangeLockRegister core _ | .copyComplete core _ | .copyFault core _ | .copyResume core _ | .copyAbandon core _
  | .streamStripWrite core | .matrixCommandStart core | .arrayModeChange core | .gangJoin core | .gangTimeout core
  | .matrixKblock core | .matrixSplit core | .matrixStatusPost core | .folioDeliver core
  | .rowCommandPerform core _ | .rowCommandComplete core _ | .quireStop core | .coreStop core | .quireRelease core
  | .coreRelease core | .dtabWrite core _ | .mberrClear core _ _ | .hcDropFrame core _ | .hcDropAll core =>
    isCore core
  | .streamPacketEnter f | .feGo f | .launchHeader f | .taskPacket f | .semaphoreWait f | .semaphorePoll f
  | .semaphoreTimeout f | .semaphoreSignal f | .groupPlace f | .taskRecordState f _ _ | .streamPortWrite _ f _ _ =>
    isFront f
  | .portEnable p | .portRetrain p | .txkeyStage p _ _ | .rxkeyStage p _ _ | .trainingComplete p _ | .portFail p
  | .linkLoss p | .flitSlotTransmit p | .flitReceive p _ | .nakTimer p | .replayTimeout p _ | .linkPacketArrive p
  | .retryTimeout p _ => isPort p
  | .folioFree q slot => q < 64 && slot < 64
  | .triggerOvfClear k => k < 256
  | .elogHeadRead die => die < 4
  | _ => true

/-- A well-formed instruction. -/
def Instr.wf (i : Instr) : Bool :=
  match i.op? with
  | some (o, c) => chainWf o c
  | none => eventWf i

end Sys2Proof
end

