-- ==== Sys2Proof/Decode.lean ====
section
/-! DEFINITION. Decoding and encoding of chains (spec/01_instruction_words.md R11-R24). `decodeWords` reads a chain
from the words at the pc and refuses by name; `encodeWords` writes the words of a chain, its prefixes in the order of
R43 (XPAGE, XCTL, XREG, XIMM). -/

namespace Sys2Proof

/-- The payload of a prefix word (R16). -/
def payload (w : Half) : BitVec 11 := BitVec.ofNat 11 (bits w 15 15 * 1024 + bits w 9 0)

/-- A word is a prefix word (R12, R16). -/
def isPrefixWord (w : Half) : Bool := bits w 14 12 == 5

/-- Scope codes of XCTL (R21). -/
def scopeOf : Nat → Scope
  | 0 => .core
  | 1 => .cluster
  | 2 => .cube
  | _ => .pod

/-- The code of a scope (R21). -/
def Scope.code : Scope → Nat
  | .core => 0
  | .cluster => 1
  | .cube => 2
  | .pod => 3

/-- The XREG payload read as fields (R19). -/
def xregOf (p : BitVec 11) : XReg :=
  ⟨BitVec.ofNat 4 (bits p 10 7), bit p 6, bit p 5, bit p 4, BitVec.ofNat 4 (bits p 3 0)⟩

/-- The XCTL payload read as fields (R21). -/
def xctlOf (p : BitVec 11) : XCtl :=
  ⟨scopeOf (bits p 10 9), BitVec.ofNat 3 (bits p 8 6), bit p 5, bit p 4⟩

/-- The prefixes read so far (R23): their count, the XIMM payloads in order, and at most one of each other kind; of
XPAGE the page and the negation. -/
structure Prefixes where
  count : Nat
  ximm  : List (BitVec 11)
  xreg  : Option XReg
  xpage : Option (Nat × Bool)
  xctl  : Option XCtl
  deriving DecidableEq, Repr

/-- Add one prefix word (R17, R19-R21, R23). -/
def addPrefix (s : Prefixes) (w : Half) : Except DecodeErr Prefixes :=
  if 4 ≤ s.count then .error .tooManyPrefixes
  else
    let p := payload w
    let s' := { s with count := s.count + 1 }
    match bits w 11 10 with
    | 0 => .ok { s' with ximm := s.ximm ++ [p] }
    | 1 => if s.xreg.isSome then .error .dupXreg else .ok { s' with xreg := some (xregOf p) }
    | 2 =>
      if s.xpage.isSome then .error .dupXpage
      else if bits p 10 4 != 0 || bits p 2 0 == 7 || (bits p 2 0 == 0 && !bit p 3) then .error .badXpage
      else .ok { s' with xpage := some (bits p 2 0, bit p 3) }
    | _ =>
      if s.xctl.isSome then .error .dupXctl
      else if bits p 3 0 != 0 then .error .badXctl
      else .ok { s' with xctl := some (xctlOf p) }

/-- The chain that a base word ends (R13, R14, R23). -/
def finishChain (s : Prefixes) (w : Half) : Except DecodeErr (Op × Chain) :=
  let page := (s.xpage.map (·.1)).getD 0
  match opAt page (bits w 14 8) with
  | none => .error .unassigned
  | some o =>
    let c : Chain :=
      if o.isK then ⟨bit w 15, BitVec.ofNat 4 (bits w 3 0), 0, BitVec.ofNat 6 (bits w 9 4), s.ximm, s.xreg,
        (s.xpage.map (·.2)).getD false, s.xctl⟩
      else ⟨bit w 15, BitVec.ofNat 4 (bits w 7 4), BitVec.ofNat 4 (bits w 3 0), 0, s.ximm, s.xreg,
        (s.xpage.map (·.2)).getD false, s.xctl⟩
    match chainErr o c with
    | some e => .error e
    | none => .ok (o, c)

/-- Read a chain from the words that stand from its first word on (R22, R23); the words end where the instruction
store ends. -/
def decodeFrom (s : Prefixes) : List Half → Except DecodeErr (Op × Chain)
  | [] => .error .pastEnd
  | w :: rest =>
    if isPrefixWord w then
      match addPrefix s w with
      | .error e => .error e
      | .ok s' => decodeFrom s' rest
    else finishChain s w

/-- Decode a chain (R23). -/
def decodeChain (ws : List Half) : Except DecodeErr (Op × Chain) := decodeFrom ⟨0, [], none, none, none⟩ ws

/-- Decode a chain to an instruction. -/
def decodeWords (ws : List Half) : Except DecodeErr Instr :=
  match decodeChain ws with
  | .error e => .error e
  | .ok (o, c) => .ok (Instr.ofOp o c)

/-- Two little-endian bytes make a word (R11). -/
def halvesOf : List Byte → List Half
  | lo :: hi :: rest => BitVec.ofNat 16 (lo.toNat + 256 * hi.toNat) :: halvesOf rest
  | _ => []

/-- Decode any bytes. -/
def decodeBytes (bs : List Byte) : Except DecodeErr Instr := decodeWords (halvesOf bs)

/-- A prefix word of a kind and payload (R16). -/
def prefixWord (kind : Nat) (p : BitVec 11) : Half :=
  BitVec.ofNat 16 (bits p 10 10 * 32768 + 0x5000 + kind * 1024 + bits p 9 0)

/-- The XREG payload (R19). -/
def XReg.payload (x : XReg) : BitVec 11 :=
  BitVec.ofNat 11 (x.b.toNat * 128 + flagBit x.d5 6 + flagBit x.a5 5 + flagBit x.b5 4 + x.guard.toNat)

/-- The XCTL payload (R21). -/
def XCtl.payload (x : XCtl) : BitVec 11 :=
  BitVec.ofNat 11 (x.scope.code * 512 + x.etype.toNat * 64 + flagBit x.urg 5 + flagBit x.nt 4)

/-- The base word of a chain (R13, R14). -/
def baseWord (o : Op) (c : Chain) : Half :=
  BitVec.ofNat 16 (flagBit c.marker 15 +
    match (opRow o).code with
    | .d n => n * 256 + c.d.toNat * 16 + c.a.toNat
    | .k k => 0x6000 + k * 1024 + c.imm6.toNat * 16 + c.d.toNat)

/-- The words of a chain, prefixes in the order of R43. -/
def encodeWords (o : Op) (c : Chain) : List Half :=
  (if hasXpage o c then [prefixWord 2 (BitVec.ofNat 11 (flagBit c.neg 3 + (opRow o).page))] else []) ++
  (c.xctl.map (fun x => prefixWord 3 x.payload)).toList ++
  (c.xreg.map (fun x => prefixWord 1 x.payload)).toList ++
  c.ximm.map (prefixWord 0) ++ [baseWord o c]

/-- The words of a coded instruction; a step without an encoding has none. -/
def encode (i : Instr) : List Half :=
  match i.op? with
  | some (o, c) => encodeWords o c
  | none => []

/-- The bytes of words, each little-endian (R11). -/
def bytesOf : List Half → List Byte
  | [] => []
  | w :: rest => BitVec.ofNat 8 w.toNat :: BitVec.ofNat 8 (w.toNat / 256) :: bytesOf rest

/-- The halfwords of an instruction of the opcode table, numbered from bit 0 of its first word, followed by zero words
up to the longest chain. -/
def tableHalves (nbits w : Nat) : List Half :=
  (List.range (max 5 ((nbits + 15) / 16))).map (fun k => BitVec.ofNat 16 (w % 2 ^ nbits / 2 ^ (16 * k)))

/-- What the decoder reads from the word of an opcode-table row. The table gives base words without their prefixes, so
a word of pages 1 to 6 is read here as the chain without XPAGE that it also is: on page 0 (R20). -/
def decodeTableWord (nbits w : Nat) : Option Instr :=
  match decodeBytes (bytesOf (tableHalves nbits w)) with
  | .ok i => some i
  | .error _ => none

end Sys2Proof
end

