-- ==== Sys2Proof/Machine/Crypto.lean ====
section
/-! DEFINITION. The ciphers of the memory ports, gateways and links: AES-128 and XTS as IEEE 1619 has it (spec/15
R342-R344), and AES-128-GCM (spec/19 R390). A 128-bit block is a number whose byte 0 is bits [7:0]. -/

namespace Sys2Proof.Machine

/-- Doubling in the AES field. -/
def gfDouble (x : Nat) : Nat := if x < 128 then 2 * x else (2 * x) % 256 ^^^ 0x1B

/-- Product in the AES field; `k` counts the bits of y still to use. -/
def gfMul : Nat → Nat → Nat → Nat
  | 0, _, _ => 0
  | k + 1, x, y => (if y % 2 == 1 then x else 0) ^^^ gfMul k (gfDouble x) (y / 2)

/-- Square and multiply: x to the power 2^k − 2 for k = 8 is the inverse. -/
def gfInv (x : Nat) : Nat :=
  let sq (v : Nat) : Nat := gfMul 8 v v
  let x2 := sq x
  let x4 := sq x2
  let x8 := sq x4
  let x16 := sq x8
  let x32 := sq x16
  let x64 := sq x32
  let x128 := sq x64
  gfMul 8 x2 (gfMul 8 x4 (gfMul 8 x8 (gfMul 8 x16 (gfMul 8 x32 (gfMul 8 x64 x128)))))

/-- Rotate a byte left. -/
def rotByte (x k : Nat) : Nat := (x * 2 ^ k) % 256 + x / 2 ^ (8 - k)

/-- The AES substitution of a byte. -/
def sbox (x : Nat) : Nat :=
  let i := gfInv x
  i ^^^ rotByte i 1 ^^^ rotByte i 2 ^^^ rotByte i 3 ^^^ rotByte i 4 ^^^ 0x63

/-- Its inverse. -/
def invSbox (y : Nat) : Nat :=
  gfInv (rotByte y 1 ^^^ rotByte y 3 ^^^ rotByte y 6 ^^^ 0x05)

/-- The 16 bytes of a block, byte 0 first. -/
def blockBytes (b : Nat) : List Nat := (List.range 16).map (fun i => b / 256 ^ i % 256)

/-- The number of bytes, byte 0 lowest. -/
def bytesNum : List Nat → Nat
  | [] => 0
  | x :: rest => x + 256 * bytesNum rest

def xorBytes (xs ys : List Nat) : List Nat := List.zipWith (· ^^^ ·) xs ys

/-- One key-schedule step: the next four words from the last four. -/
def nextRoundKey (k : List Nat) (rcon : Nat) : List Nat :=
  let g (i : Nat) : Nat := k.getD i 0
  let t := [sbox (g 13) ^^^ rcon, sbox (g 14), sbox (g 15), sbox (g 12)]
  let w0 := xorBytes (k.take 4) t
  let w1 := xorBytes ((k.drop 4).take 4) w0
  let w2 := xorBytes ((k.drop 8).take 4) w1
  let w3 := xorBytes (k.drop 12) w2
  w0 ++ w1 ++ w2 ++ w3

/-- The round keys from a key, one per round constant. -/
def roundKeys : List Nat → List Nat → List (List Nat)
  | k, [] => [k]
  | k, r :: rest => k :: roundKeys (nextRoundKey k r) rest

def aesRcon : List Nat := [1, 2, 4, 8, 16, 32, 64, 128, 0x1B, 0x36]

def shiftRows (s : List Nat) : List Nat := (List.range 16).map (fun i => s.getD ((i + 4 * (i % 4)) % 16) 0)
def unshiftRows (s : List Nat) : List Nat := (List.range 16).map (fun i => s.getD ((i + 12 * (i % 4)) % 16) 0)

/-- One output byte of the column mix with coefficients c0 to c3 rotated to its row. -/
def mixWith (c0 c1 c2 c3 : Nat) (s : List Nat) : List Nat :=
  (List.range 16).map (fun i =>
    let col := i / 4 * 4
    let b (k : Nat) : Nat := s.getD (col + (i + k) % 4) 0
    gfMul 4 (b 0) c0 ^^^ gfMul 4 (b 1) c1 ^^^ gfMul 4 (b 2) c2 ^^^ gfMul 4 (b 3) c3)

/-- The rounds of encryption after the first key addition. -/
def aesRounds : List Nat → List (List Nat) → List Nat
  | s, [] => s
  | s, [k] => xorBytes (shiftRows (s.map sbox)) k
  | s, k :: rest => aesRounds (xorBytes (mixWith 2 3 1 1 (shiftRows (s.map sbox))) k) rest

/-- AES-128 encryption of a block. -/
def aesEnc (key block : Nat) : Nat :=
  match roundKeys (blockBytes key) aesRcon with
  | [] => 0
  | k :: rest => bytesNum (aesRounds (xorBytes (blockBytes block) k) rest)

/-- The rounds of decryption, keys last first. -/
def aesUnrounds : List Nat → List (List Nat) → List Nat
  | s, [] => s
  | s, [k] => xorBytes ((unshiftRows s).map invSbox) k
  | s, k :: rest => aesUnrounds (mixWith 14 11 13 9 (xorBytes ((unshiftRows s).map invSbox) k)) rest

/-- AES-128 decryption of a block. -/
def aesDec (key block : Nat) : Nat :=
  match (roundKeys (blockBytes key) aesRcon).reverse with
  | [] => 0
  | k :: rest => bytesNum (aesUnrounds (xorBytes (blockBytes block) k) rest)

/-- Multiply the XTS tweak by its generator. -/
def xtsNext (t : Nat) : Nat :=
  if t < 2 ^ 127 then 2 * t else (2 * t) % 2 ^ 128 ^^^ 0x87

/-- XTS over whole blocks: `dec` chooses the direction; blocks in order. -/
def xtsBlocks (dec : Bool) (k1 : Nat) : Nat → List Nat → List Nat
  | _, [] => []
  | t, b :: rest => (t ^^^ (if dec then aesDec k1 (b ^^^ t) else aesEnc k1 (b ^^^ t))) :: xtsBlocks dec k1 (xtsNext t) rest

/-- XTS of blocks under a 256-bit key record (k1 low, k2 high) and a tweak. -/
def xts (dec : Bool) (key : BitVec 256) (tweak : Nat) (blocks : List Nat) : List Nat :=
  xtsBlocks dec (key.toNat % 2 ^ 128) (aesEnc (key.toNat / 2 ^ 128) tweak) blocks

/-- A 32-byte DRAM line under a key, the tweak its line number (R343). -/
def xtsLine (dec : Bool) (key : BitVec 256) (line : Nat) (data : BitVec 256) : BitVec 256 :=
  match xts dec key line [data.toNat % 2 ^ 128, data.toNat / 2 ^ 128] with
  | [lo, hi] => BitVec.ofNat 256 (lo + hi * 2 ^ 128)
  | _ => 0

/-- A block with its bytes reversed: GCM numbers bits from the first byte's top. -/
def revBlock (b : Nat) : Nat := bytesNum (blockBytes b).reverse

/-- Product in the GCM field on bit strings read most significant first; `k` counts bits of x still to use. -/
def ghashMul : Nat → Nat → Nat → Nat → Nat
  | 0, _, _, z => z
  | k + 1, x, v, z =>
    ghashMul k x (if v % 2 == 1 then v / 2 ^^^ 0xE1 * 2 ^ 120 else v / 2) (if x.testBit k then z ^^^ v else z)

/-- GHASH over blocks read most significant byte first. -/
def ghash (h : Nat) : Nat → List Nat → Nat
  | y, [] => y
  | y, b :: rest => ghash h (ghashMul 128 (y ^^^ b) h 0) rest

/-- AES on a block read most significant byte first. -/
def aesBE (key block : Nat) : Nat := revBlock (aesEnc key (revBlock block))

/-- Counter-mode blocks from counter c on. -/
def gcmStream (key nonce : Nat) : Nat → List Nat → List Nat
  | _, [] => []
  | c, b :: rest => (b ^^^ aesBE key (nonce * 2 ^ 32 + c)) :: gcmStream key nonce (c + 1) rest

/-- AES-128-GCM with a 96-bit nonce over whole blocks: output blocks and tag. Blocks, nonce, key stream and tag are read
most significant byte first; the key is a number whose byte 0 is lowest. `aadBits` and `textBits` are the lengths.
`dec` says that the input is ciphertext. -/
def gcm (dec : Bool) (key nonce : Nat) (aad blocks : List Nat) (aadBits textBits : Nat) : List Nat × Nat :=
  let h := aesBE key 0
  let out := gcmStream key nonce 2 blocks
  let cipher := if dec then blocks else out
  let s := ghash h 0 (aad ++ cipher ++ [aadBits * 2 ^ 64 + textBits])
  (out, s ^^^ aesBE key (nonce * 2 ^ 32 + 1))

end Sys2Proof.Machine
end

