-- ==== Sys2Proof/Config.lean ====
section
/-! DEFINITION. What an implementation or its environment fixes and the spec leaves open. Every `opaque` constant is a
free value: nothing can be proved of it, so a statement holds whatever it is. The assumption log names each. -/

namespace Sys2Proof.Config

/-- Cycles that pass at an issue beyond the one the core needs (R34, R116, R444: latencies; log 5). The argument is
the free-value counter of the state. -/
opaque issueDelay : Nat → Nat

/-- The 256 bits of the boot key record: k1 in [127:0], k2 in [255:128] (R342, R436; log 10). -/
opaque bootKey : BitVec 256

/-- Level, tickets and launch levels of a group of another cube, which a core fetches through the group slot when it
creates a queue (R245; log 17). Arguments: the packed group identity and the field (5 its task). -/
opaque foreignLaunch : Nat → Nat → Nat

/-- The gate level at which the lease of a restored thread is suspended, which the save area does not hold (spec/16
R358; log 25). -/
opaque restoredGate : Nat → Nat

/-- Whether a fetch sees the new value of an instruction word that ISTW has written and START has not yet made visible
(spec/07 R225). Arguments: the free-value counter and the word number. -/
opaque fetchNew : Nat → Nat → Bool

/-- Strips a sink stream holds beyond the one it always takes (spec/05 R128, R170; log 26). -/
opaque sinkDepth : Nat

/-- Whether steward firmware resends a ferry whose translation failed (spec/21 R433; log 29). -/
opaque repairFerry : Nat → Bool

/-- What a load reads at an offset of the configuration region to which the spec gives no meaning (spec/21 R430; log
37). -/
opaque unassigned : Nat → Word

/-- The configuration flash, which holds the two firmware image slots (spec/21 R435; log 10). -/
opaque flash : Nat → Byte

/-- The fused hash of the key that signs firmware, and the fused minimum of its security version (spec/21 R436; log 10).
-/
opaque keyHash : List Byte
opaque fusedMin : Nat

/-- The private key of the cube's identity, and the numbers that its signatures use once (spec/21 R437; log 10). -/
opaque identityKey : Nat
opaque signNonce : Nat → Nat

/-- The core that an error of a memory line is logged for (spec/20 R413; log 50). -/
opaque lineCore : Nat → Nat

/-- The die that logs a change of a via column (spec/20 R413; log 50). -/
opaque columnDie : Nat → Nat

/-- The xaddr of a GATE trap that no GCALL raises, where no table number n exists (spec/07 R217; log 55). Arguments: the
detail and the free-value counter. -/
opaque gateAddr : Nat → Nat → Word

/-- What a core load that ends with status 2 leaves in a store of its target, 0 local store or 1 B-store (R357; log 57):
byte writes, each an address and a value, by the free-value counter, the core and the store. -/
opaque abandoned : Nat → Nat → Nat → List (Nat × Nat)

/-- A fresh 64-bit free value (log 2). -/
opaque freeWord : Nat → Word

end Sys2Proof.Config
end

