-- ==== Sys2Proof/Machine/Maps.lean ====
section
/-! DEFINITION. Tables keyed by a number and byte memories, as lists in one canonical form: keys strictly rising; a
memory lists no byte equal to what an unlisted address reads as, which is 0 (NOTES.md, log 7 to 9). -/

namespace Sys2Proof.Machine

/-- A table keyed by a number, keys strictly rising. -/
abbrev Tab (α : Type) := List (Nat × α)

/-- The entry of a key. -/
def tget {α : Type} : Tab α → Nat → Option α
  | [], _ => none
  | (k, v) :: rest, i => if k == i then some v else tget rest i

/-- Set the entry of a key. -/
def tset {α : Type} : Tab α → Nat → α → Tab α
  | [], i, x => [(i, x)]
  | (k, v) :: rest, i, x =>
    if k == i then (i, x) :: rest else if i < k then (i, x) :: (k, v) :: rest else (k, v) :: tset rest i x

/-- Remove the entry of a key. -/
def tdel {α : Type} (t : Tab α) (i : Nat) : Tab α := t.filter (fun e => e.1 != i)

/-- The entry of a key, with a default. -/
def tgetD {α : Type} (t : Tab α) (i : Nat) (d : α) : α := (tget t i).getD d

/-- Keys strictly rising, each above `lo`. -/
def tsorted {α : Type} : Option Nat → Tab α → Bool
  | _, [] => true
  | none, (k, _) :: rest => tsorted (some k) rest
  | some l, (k, _) :: rest => decide (l < k) && tsorted (some k) rest

/-- A byte memory. -/
abbrev Memory := List Host.Cell

/-- What an address reads as: the listed byte, or 0. -/
def Memory.byte : Memory → Nat → Byte
  | [], _ => 0
  | (k, v) :: rest, a => if k == a then v else Memory.byte rest a

/-- Write one byte; writing 0 removes the entry. -/
def Memory.setByte : Memory → Nat → Byte → Memory
  | [], a, b => if b == 0 then [] else [(a, b)]
  | (k, v) :: rest, a, b =>
    if a == k then (if b == 0 then rest else (a, b) :: rest)
    else if a < k then (if b == 0 then (k, v) :: rest else (a, b) :: (k, v) :: rest)
    else (k, v) :: Memory.setByte rest a b

/-- The canonical form: addresses strictly rising above `lo`, no byte 0 listed. -/
def Memory.wfFrom : Option Nat → Memory → Bool
  | _, [] => true
  | lo, (k, v) :: rest =>
    (match lo with | none => true | some l => decide (l < k)) && v != 0 && Memory.wfFrom (some k) rest

/-- The canonical form of a memory. -/
def Memory.wf (m : Memory) : Bool := Memory.wfFrom none m

/-- `n` bytes from an address, little-endian (R6). -/
def Memory.read (m : Memory) (a : Nat) : Nat → Nat
  | 0 => 0
  | n + 1 => (m.byte a).toNat + 256 * Memory.read m (a + 1) n

/-- Write the low `n` bytes of a number at an address, little-endian (R6). -/
def Memory.write (m : Memory) (a : Nat) : Nat → Nat → Memory
  | 0, _ => m
  | n + 1, x => Memory.write (m.setByte a (BitVec.ofNat 8 x)) (a + 1) n (x / 256)

/-- Zero every byte from an address on, n of them. -/
def Memory.clear (m : Memory) (a n : Nat) : Memory := m.filter (fun c => c.1 < a || a + n ≤ c.1)

end Sys2Proof.Machine
end

