-- ==== Sys2Proof/Machine/Num.lean ====
section
/-! DEFINITION. Number formats and arithmetic (spec/03_number_formats.md R63-R88): floating-point values as exact
dyadic numbers, one rounding function, conversions, MX and TS8 blocks, and the k-block sum. -/

namespace Sys2Proof.Machine

/-- The sticky flags in the order of R32: bit 4 NV, 3 DZ, 2 OF, 1 UF, 0 NX. -/
abbrev Flags := BitVec 5

def flNX : Flags := 1
def flUF : Flags := 2
def flOF : Flags := 4
def flDZ : Flags := 8
def flNV : Flags := 16

/-- The float table of XCTL (R51). -/
inductive Fmt where
  | fp64 | fp32 | bf16 | fp16 | e4m3 | e5m2 | e2m1 | ts8
  deriving DecidableEq, Repr

/-- Flush classes (R32, R64, R78). -/
inductive FClass where
  | w | h | b
  deriving DecidableEq, Repr

/-- Rounding modes as RM codes them (R32). -/
inductive RMode where
  | rne | rtz | rup | rdn
  deriving DecidableEq, Repr

/-- The format of a float-table code. -/
def fmtOf : Nat → Fmt
  | 0 => .fp64
  | 1 => .fp32
  | 2 => .bf16
  | 3 => .fp16
  | 4 => .e4m3
  | 5 => .e5m2
  | 6 => .e2m1
  | _ => .ts8

/-- The mode of an RM or RMO code. -/
def modeOf : Nat → RMode
  | 0 => .rne
  | 1 => .rtz
  | 2 => .rup
  | _ => .rdn

/-- Width in bits. -/
def Fmt.width : Fmt → Nat
  | .fp64 => 64
  | .fp32 => 32
  | .bf16 | .fp16 => 16
  | .e4m3 | .e5m2 | .ts8 => 8
  | .e2m1 => 4

/-- Fraction bits (R64, R67). -/
def Fmt.frac : Fmt → Nat
  | .fp64 => 52
  | .fp32 => 23
  | .bf16 => 7
  | .fp16 => 10
  | .e4m3 => 3
  | .e5m2 => 2
  | .e2m1 => 1
  | .ts8 => 0

/-- Exponent bias (R64, R67). -/
def Fmt.bias : Fmt → Nat
  | .fp64 => 1023
  | .fp32 | .bf16 => 127
  | .fp16 | .e5m2 => 15
  | .e4m3 => 7
  | .e2m1 => 1
  | .ts8 => 0

/-- Flush class (R64, R78). -/
def Fmt.cls : Fmt → FClass
  | .fp64 | .fp32 => .w
  | .bf16 | .fp16 => .h
  | _ => .b

/-- The format has an infinity (R64). -/
def Fmt.hasInf : Fmt → Bool
  | .e4m3 | .e2m1 | .ts8 => false
  | _ => true

/-- The code of the infinity without its sign: exponent all ones, fraction zero. -/
def Fmt.infCode (f : Fmt) : Nat := 2 ^ (f.width - 1) - 2 ^ f.frac

/-- The code of the largest finite magnitude (R64, R67). -/
def Fmt.maxCode : Fmt → Nat
  | .e4m3 => 0x7E
  | .e2m1 => 7
  | f => f.infCode - 1

/-- The canonical quiet NaN (R65); E2M1 has none and takes +0 (R75). -/
def Fmt.nanCode : Fmt → Nat
  | .e4m3 => 0x7F
  | .e2m1 | .ts8 => 0
  | f => f.infCode + 2 ^ (f.frac - 1)

/-- The sign bit of the format as a number. -/
def Fmt.signVal (f : Fmt) (s : Bool) : Nat := flagBit s (f.width - 1)

/-- The lowest exponent of the format's fraction bits. -/
def Fmt.qmin (f : Fmt) : Int := 1 - (f.bias : Int) - (f.frac : Int)

/-- A floating-point value: NaN (signalling or not), signed infinity, or (−1)^s · m · 2^e. -/
inductive FVal where
  | nan (sig : Bool)
  | inf (s : Bool)
  | fin (s : Bool) (m : Nat) (e : Int)
  deriving DecidableEq, Repr

/-- Signed TS8 nibble in units of 1/64 (R71). -/
def ts8Nibble (n : Nat) : Int :=
  let e := n % 8
  let v : Int := if e == 0 then 0 else (2 ^ (e - 1) : Nat)
  if n / 8 % 2 == 1 then -v else v

/-- The value of a TS8 code in units of 1/64 (R71). -/
def ts8Units (c : Nat) : Int := ts8Nibble (c / 16 % 16) + ts8Nibble (c % 16)

/-- The value a code of a format holds (R64, R65, R67, R71). -/
def fdecode (f : Fmt) (code : Nat) : FVal :=
  if f == .ts8 then
    let u := ts8Units code
    .fin (decide (u < 0)) u.natAbs (-6)
  else
    let s := code.testBit (f.width - 1)
    let mag := code % 2 ^ (f.width - 1)
    if f == .e4m3 && mag == 0x7F then .nan false
    else if f.hasInf && mag == f.infCode then .inf s
    else if f.hasInf && f.infCode < mag then .nan (!mag.testBit (f.frac - 1))
    else
      let ex := mag / 2 ^ f.frac
      let fr := mag % 2 ^ f.frac
      if ex == 0 then .fin s fr f.qmin
      else .fin s (fr + 2 ^ f.frac) (f.qmin + (ex : Int) - 1)

/-- A code is a subnormal of its format. -/
def isSubnormal (f : Fmt) (code : Nat) : Bool :=
  f != .ts8 &&
    let mag := code % 2 ^ (f.width - 1)
    mag != 0 && mag / 2 ^ f.frac == 0

/-- The flush controls and rounding mode an instruction samples at issue (R32, R33, R78, R80). -/
structure FCtl where
  mode : RMode
  /-- IEEE-overflow of a class B result (R75). -/
  ovf  : Bool
  fiw  : Bool
  frw  : Bool
  fih  : Bool
  frh  : Bool
  fib  : Bool
  frb  : Bool
  deriving DecidableEq, Repr

/-- Round to nearest, no flush: what matrix, atomic and link operations use (R82, R86). -/
def FCtl.plain : FCtl := ⟨.rne, false, false, false, false, false, false, false⟩

def FCtl.inFlush (c : FCtl) (f : Fmt) : Bool :=
  match f.cls with | .w => c.fiw | .h => c.fih | .b => c.fib
def FCtl.outFlush (c : FCtl) (f : Fmt) : Bool :=
  match f.cls with | .w => c.frw | .h => c.frh | .b => c.frb

/-- Read one source in a format, with the input flush (R78, R110). -/
def fread (c : FCtl) (f : Fmt) (code : Nat) : FVal :=
  if c.inFlush f && isSubnormal f code then .fin (code.testBit (f.width - 1)) 0 0 else fdecode f code

/-- A magnitude m (with a nonzero tail below it when `st`) cut at 2^q units of 2^e and rounded by a mode; the second
component says whether it was inexact. Where q ≤ e nothing is cut. -/
def roundAt (mode : RMode) (s : Bool) (m : Nat) (e q : Int) (st : Bool) : Nat × Bool :=
  if q ≤ e then (m * 2 ^ (e - q).toNat, st)
  else
    let sh := (q - e).toNat
    let hi := m / 2 ^ sh
    let rem := m % 2 ^ sh
    let half := 2 ^ (sh - 1)
    let inexact := rem != 0 || st
    let up := match mode with
      | .rne => decide (half < rem) || (rem == half && (st || hi % 2 == 1))
      | .rtz => false
      | .rup => !s && inexact
      | .rdn => s && inexact
    (hi + up.toNat, inexact)

/-- An overflowed result (R74, R75): the code without NaN handling and whether it is the infinity of the table. -/
def overflowToInf (mode : RMode) (s : Bool) : Bool :=
  match mode with
  | .rne => true
  | .rtz => false
  | .rup => !s
  | .rdn => s

/-- The code of a finite value that overflows (R74, R75). -/
def overflowCode (c : FCtl) (f : Fmt) (s : Bool) : Nat :=
  if f.cls == .b && (f == .e2m1 || !c.ovf) then f.signVal s + f.maxCode
  else if overflowToInf c.mode s then (if f.hasInf then f.signVal s + f.infCode else f.nanCode)
  else f.signVal s + f.maxCode

/-- Round an exact nonzero magnitude into a format (R74, R75, R77, R78). `st` marks a nonzero tail below m. -/
def roundFin (c : FCtl) (f : Fmt) (s : Bool) (m : Nat) (e : Int) (st : Bool) : Nat × Flags :=
  let lead : Int := (Nat.log2 m : Int) + e
  let q := lead - (f.frac : Int)
  let qb := max q f.qmin
  let r := roundAt c.mode s m e qb st
  let code := (qb - f.qmin).toNat * 2 ^ f.frac + r.1
  let ru := roundAt c.mode s m e q st
  let tiny := decide (q < f.qmin) && decide ((Nat.log2 ru.1 : Int) + q < f.qmin + (f.frac : Int))
  if f.maxCode < code then (overflowCode c f s, flOF ||| flNX)
  else if tiny && c.outFlush f then (f.signVal s, flUF ||| flNX)
  else (f.signVal s + code, (if r.2 then flNX else 0) ||| (if tiny && r.2 then flUF else 0))

/-- Write an exact result or a special into a format: its code and the exceptions (R74-R78, R110). `st` marks a
nonzero tail. -/
def fwriteSt (c : FCtl) (f : Fmt) (x : FVal) (st : Bool) : Nat × Flags :=
  match x with
  | .nan _ => (f.nanCode, if f == .e2m1 then flNV else 0)
  | .inf s =>
    if f.cls == .b && (f == .e2m1 || !c.ovf) then (f.signVal s + f.maxCode, flOF ||| flNX)
    else if f.hasInf then (f.signVal s + f.infCode, 0)
    else (f.nanCode, flNV)
  | .fin s m e => if m == 0 then (f.signVal s, 0) else roundFin c f s m e st

/-- Write an exact result. -/
def fwrite (c : FCtl) (f : Fmt) (x : FVal) : Nat × Flags := fwriteSt c f x false

/-- NV where an operand is a signalling NaN (R79). -/
def sigFlag : FVal → Flags
  | .nan true => flNV
  | _ => 0

/-- A signed integer times 2^e as a value; an exact zero takes the sign given. -/
def fromInt (i : Int) (e : Int) (zs : Bool) : FVal :=
  if i == 0 then .fin zs 0 0 else .fin (decide (i < 0)) i.natAbs e

def FVal.neg : FVal → FVal
  | .nan q => .nan q
  | .inf s => .inf (!s)
  | .fin s m e => .fin (!s) m e

/-- The signed mantissa of a finite value in units of 2^q, q at most its exponent. -/
def unitsAt (s : Bool) (m : Nat) (e q : Int) : Int :=
  let v : Int := (m * 2 ^ (e - q).toNat : Nat)
  if s then -v else v

/-- x + y exactly (R79; the sign of an exact zero sum as IEEE 754 has it). -/
def faddX (mode : RMode) (x y : FVal) : FVal × Flags :=
  match x, y with
  | .nan a, .nan b => (.nan false, if a || b then flNV else 0)
  | .nan a, _ => (.nan false, if a then flNV else 0)
  | _, .nan b => (.nan false, if b then flNV else 0)
  | .inf a, .inf b => if a == b then (.inf a, 0) else (.nan false, flNV)
  | .inf a, _ => (.inf a, 0)
  | _, .inf b => (.inf b, 0)
  | .fin a m e, .fin b n f =>
    let zs := if m == 0 && n == 0 && a == b then a else mode == .rdn
    let q := if m == 0 then f else if n == 0 then e else min e f
    let u := (if m == 0 then 0 else unitsAt a m e q) + (if n == 0 then 0 else unitsAt b n f q)
    (fromInt u q zs, 0)

/-- x × y exactly (R79). -/
def fmulX (x y : FVal) : FVal × Flags :=
  match x, y with
  | .nan a, .nan b => (.nan false, if a || b then flNV else 0)
  | .nan a, _ => (.nan false, if a then flNV else 0)
  | _, .nan b => (.nan false, if b then flNV else 0)
  | .inf a, .inf b => (.inf (a != b), 0)
  | .inf a, .fin b n _ => if n == 0 then (.nan false, flNV) else (.inf (a != b), 0)
  | .fin a m _, .inf b => if m == 0 then (.nan false, flNV) else (.inf (a != b), 0)
  | .fin a m e, .fin b n f => (.fin (a != b) (m * n) (e + f), 0)

/-- c + x × y with one rounding to come (R110: 0 × ∞ sets NV even when c is a quiet NaN). -/
def ffmaX (mode : RMode) (c x y : FVal) : FVal × Flags :=
  let p := fmulX x y
  let r := faddX mode c p.1
  (r.1, p.2 ||| r.2)

/-- x / y: quotient, whether a nonzero tail follows, and the exceptions (R79). -/
def fdivX (x y : FVal) : FVal × Bool × Flags :=
  match x, y with
  | .nan a, .nan b => (.nan false, false, if a || b then flNV else 0)
  | .nan a, _ => (.nan false, false, if a then flNV else 0)
  | _, .nan b => (.nan false, false, if b then flNV else 0)
  | .inf _, .inf _ => (.nan false, false, flNV)
  | .inf a, .fin b _ _ => (.inf (a != b), false, 0)
  | .fin a _ _, .inf b => (.fin (a != b) 0 0, false, 0)
  | .fin a m e, .fin b n f =>
    if n == 0 then (if m == 0 then (.nan false, false, flNV) else (.inf (a != b), false, flDZ))
    else if m == 0 then (.fin (a != b) 0 0, false, 0)
    else
      let k := 68 + Nat.log2 n - Nat.log2 m
      let num := m * 2 ^ k
      (.fin (a != b) (num / n) (e - f - (k : Int)), num % n != 0, 0)

/-- The integer square root, bit by bit from 2^(k−1) down. -/
def isqrtBits (n : Nat) : Nat → Nat → Nat
  | 0, acc => acc
  | k + 1, acc =>
    let t := acc + 2 ^ k
    if t * t ≤ n then isqrtBits n k t else isqrtBits n k acc

/-- √y: root, whether a nonzero tail follows, and the exceptions (R79). -/
def fsqrtX (y : FVal) : FVal × Bool × Flags :=
  match y with
  | .nan a => (.nan false, false, if a then flNV else 0)
  | .inf s => if s then (.nan false, false, flNV) else (.inf false, false, 0)
  | .fin s m e =>
    if m == 0 then (.fin s 0 0, false, 0)
    else if s then (.nan false, false, flNV)
    else
      let k0 := 136 - Nat.log2 m
      let k := if (e - (k0 : Int)) % 2 == 0 then k0 else k0 + 1
      let n := m * 2 ^ k
      let r := isqrtBits n 70 0
      (.fin false r ((e - (k : Int)) / 2), r * r != n, 0)

/-- Order of two values that are not NaN; −0 is below +0 when `zeros` (R66). -/
def fltX (zeros : Bool) (x y : FVal) : Bool :=
  match x, y with
  | .nan _, _ | _, .nan _ => false
  | .inf a, .inf b => a && !b
  | .inf a, _ => a
  | _, .inf b => !b
  | .fin a m e, .fin b n f =>
    if m == 0 && n == 0 then zeros && a && !b
    else if m == 0 then !b
    else if n == 0 then a
    else
      let q := min e f
      decide (unitsAt a m e q < unitsAt b n f q)

/-- Equality of values, +0 = −0; false when unordered (R112). -/
def feqX (x y : FVal) : Bool :=
  match x, y with
  | .nan _, _ | _, .nan _ => false
  | _, _ => !fltX false x y && !fltX false y x

def FVal.isNan : FVal → Bool
  | .nan _ => true
  | _ => false

/-- FMIN and FMAX choose an operand (R111). -/
def fminmaxX (takeMax : Bool) (x y : FVal) : FVal × Flags :=
  let fl := sigFlag x ||| sigFlag y
  match x, y with
  | .nan _, .nan _ => (.nan false, fl)
  | .nan _, y => (y, fl)
  | x, .nan _ => (x, fl)
  | x, y => (if (if takeMax then fltX true y x else fltX true x y) then x else y, fl)

/-- Round a value to an integer by a mode; the second component says inexact (R76, R114). -/
def roundInt (mode : RMode) (s : Bool) (m : Nat) (e : Int) : Int × Bool :=
  let r := roundAt mode s m e 0 false
  (if s then -(r.1 : Int) else (r.1 : Int), r.2)

/-- Float to an integer type with bounds lo and hi (R76). DEDUCED (log 105): whether a value lies outside the range is judged
after it has been rounded. -/
def fToInt (mode : RMode) (lo hi : Int) (x : FVal) : Int × Flags :=
  match x with
  | .nan _ => (0, flNV)
  | .inf s => (if s then lo else hi, flNV)
  | .fin s m e =>
    let r := roundInt mode s m e
    if r.1 < lo then (lo, flNV) else if hi < r.1 then (hi, flNV) else (r.1, if r.2 then flNX else 0)

/-- Round to an integral value of the same format (R114). -/
def frndX (mode : RMode) (x : FVal) : FVal × Flags :=
  match x with
  | .nan a => (.nan false, if a then flNV else 0)
  | .inf s => (.inf s, 0)
  | .fin s m e =>
    if m == 0 then (.fin s 0 0, 0)
    else
      let r := roundInt mode s m e
      (.fin s r.1.natAbs 0, if r.2 then flNX else 0)

/-- The class mask of FCLASS (R113). -/
def fclassOf (f : Fmt) (code : Nat) : Nat :=
  match fdecode f code with
  | .nan sig => if sig then 2 ^ 8 else 2 ^ 9
  | .inf s => if s then 1 else 2 ^ 7
  | .fin s m _ =>
    if m == 0 then (if s then 2 ^ 3 else 2 ^ 4)
    else if isSubnormal f code then (if s then 2 ^ 2 else 2 ^ 5)
    else (if s then 2 ^ 1 else 2 ^ 6)

/-- Clear or invert the sign; a NaN gives the canonical NaN (R113). -/
def fsignOp (invert : Bool) (f : Fmt) (code : Nat) : Nat :=
  let x := code % 2 ^ f.width
  if (fdecode f x).isNan then f.nanCode
  else
    let mag := x % 2 ^ (f.width - 1)
    f.signVal (invert && !x.testBit (f.width - 1)) + mag

/-- floor(log2 of the magnitude) of a nonzero finite value. -/
def flog2 (m : Nat) (e : Int) : Int := (Nat.log2 m : Int) + e

/-- The exponents of the largest magnitude of a list of finite values; none when all are zero. -/
def maxLog : List FVal → Option Int
  | [] => none
  | .fin _ m e :: rest =>
    if m == 0 then maxLog rest
    else match maxLog rest with
      | none => some (flog2 m e)
      | some l => some (max l (flog2 m e))
  | _ :: rest => maxLog rest

/-- A block holds a NaN or an infinity. -/
def hasSpecial : List FVal → Bool
  | [] => false
  | .fin _ _ _ :: rest => hasSpecial rest
  | _ :: _ => true

/-- The E8M0 scale code of a block for elements of the given emax (R70). -/
def mxScale (xs : List FVal) (emax : Int) : Nat :=
  if hasSpecial xs then 0xFF
  else match maxLog xs with
    | none => 0
    | some l => (min (max (l - emax) (-127)) 127 + 127).toNat

/-- emax of the MX element formats (R70); 0 for TS8 (R73). -/
def Fmt.emax : Fmt → Int
  | .e4m3 => 8
  | .e5m2 => 15
  | .e2m1 => 2
  | _ => 0

/-- Scale a value by 2^k. -/
def fscale (x : FVal) (k : Int) : FVal :=
  match x with
  | .fin s m e => .fin s m (e + k)
  | v => v

/-- One element of a quantised block: code and exceptions; clamping sets NX and not OF (R70). -/
def mxElem (c : FCtl) (f : Fmt) (scale : Nat) (x : FVal) : Nat × Flags :=
  if scale == 0xFF then (0, 0)
  else
    let r := fwrite { c with ovf := false } f (fscale x (127 - (scale : Int)))
    (r.1, r.2 &&& ~~~ flOF)

/-- The value of an element of a block with a scale; NaN under scale 0xFF (R69). -/
def mxValue (f : Fmt) (scale code : Nat) : FVal :=
  if scale == 0xFF then .nan false else fscale (fdecode f code) ((scale : Int) - 127)

/-- The canonical code of each TS8 magnitude (R72): the smallest code of the value, searched from 0 up. -/
def ts8Canon (u : Int) : Nat := ((List.range 256).find? (fun c => ts8Units c == u)).getD 0

/-- The units of every TS8 value, each once, non-negative ones rising. -/
def ts8Mags : List Nat :=
  [0, 1, 2, 3, 4, 5, 6, 7, 8, 9, 10, 12, 14, 15, 16, 17, 18, 20, 24, 28, 30, 31, 32, 33, 34, 36, 40, 48, 56, 60, 62,
   63, 64, 65, 66, 68, 72, 80, 96, 128]

/-- The nearest TS8 magnitude to n/2^sh units of 1/64, ties to the smaller (R73), and whether it is exact. `best`
comes first in the list. -/
def ts8Near (n d : Nat) : List Nat → Nat → Nat
  | [], best => best
  | v :: rest, best =>
    let dist (u : Nat) : Nat := (if n ≤ u * d then u * d - n else n - u * d)
    ts8Near n d rest (if dist v < dist best then v else best)

/-- round_ts8 of a finite value (R73): code and whether exact. -/
def roundTs8 (s : Bool) (m : Nat) (e : Int) : Nat × Bool :=
  let e' := e + 6
  let n := if 0 ≤ e' then m * 2 ^ e'.toNat else m
  let d := if 0 ≤ e' then 1 else 2 ^ (-e').toNat
  let u := ts8Near n d ts8Mags 0
  (ts8Canon (if s then -(u : Int) else (u : Int)), u * d == n)

/-- One TS8 weight of a quantised block (R73). -/
def ts8Elem (scale : Nat) (x : FVal) : Nat × Flags :=
  if scale == 0xFF then (0, 0)
  else match fscale x (127 - (scale : Int)) with
    | .fin s m e => let r := roundTs8 s m e; (r.1, if r.2 then 0 else flNX)
    | _ => (0, 0)

/-- What a k-block sum reports beside its value: inexact (R82). -/
structure KSum where
  bits    : Nat
  inexact : Bool
  deriving DecidableEq, Repr

/-- S and st of the window (R82): each magnitude cut at 2^q before the sum. -/
def windowSum (q : Int) : List FVal → Int × Bool
  | [] => (0, false)
  | .fin s m e :: rest =>
    let r := windowSum q rest
    let u := if q ≤ e then m * 2 ^ (e - q).toNat else m / 2 ^ (q - e).toNat
    let cut := decide (e < q) && m % 2 ^ (q - e).toNat != 0
    (r.1 + (if s then -(u : Int) else (u : Int)), r.2 || cut)
  | _ :: rest => windowSum q rest

/-- The specials among exact products: NaN, or both infinities, or one (R82). -/
def prodSpecial (ps : List FVal) : Option FVal :=
  let pinf := ps.contains (.inf false)
  let ninf := ps.contains (.inf true)
  if ps.any FVal.isNan || (pinf && ninf) then some (.nan false)
  else if pinf then some (.inf false)
  else if ninf then some (.inf true)
  else none

/-- kblock_sum (R82): the FP32 code of the sum and whether the k-block is inexact. -/
def kblockSum (ps : List FVal) : KSum :=
  match prodSpecial ps with
  | some v => ⟨(fwrite .plain .fp32 v).1, false⟩
  | none =>
    match maxLog ps with
    | none => ⟨0, false⟩
    | some l =>
      let q := l - 47
      let w := windowSum q ps
      if w.1 == 0 then ⟨0, w.2⟩
      else
        let s := decide (w.1 < 0)
        let r := roundFin .plain .fp32 s w.1.natAbs q w.2
        let ex := roundFin .plain .fp32 s w.1.natAbs q false
        ⟨r.1, w.2 || ex.2 != 0⟩

/-- The exceptions of a k-block (spec/06 R155): those of its products, both infinities among them, and those of
round_window. -/
def kblockFlags (ps : List (FVal × Flags)) : Flags :=
  let vs := ps.map (·.1)
  let fl := ps.foldl (fun a p => a ||| p.2) 0
  match prodSpecial vs with
  | some v => fl ||| (if v.isNan && !vs.any FVal.isNan then flNV else 0)
  | none =>
    match maxLog vs with
    | none => fl
    | some l =>
      let w := windowSum (l - 47) vs
      let k := kblockSum vs
      let r : Flags := if w.1 == 0 then 0 else (roundFin .plain .fp32 (decide (w.1 < 0)) w.1.natAbs (l - 47) w.2).2
      fl ||| r ||| (if k.inexact then flNX else 0)

/-- FP32 addition of codes, to nearest, no flush: the accumulator update (R82, R85); the exceptions as well. -/
def fp32Add (x y : Nat) : Nat × Flags :=
  let r := faddX .rne (fdecode .fp32 x) (fdecode .fp32 y)
  let w := fwrite .plain .fp32 r.1
  (w.1, r.2 ||| w.2)

/-- leaf_sum (R85). -/
def leafSum (c : Nat) (leaves : List Nat) : Nat := leaves.foldl (fun acc b => (fp32Add acc b).1) c

/-- One level of the fixed binary tree of a leaf: pairs combined, an absent partner passed through (R86). -/
def treeLevel {α : Type} (f : α → α → α) : List (Option α) → List (Option α)
  | [] => []
  | [x] => [x]
  | x :: y :: rest =>
    (match x, y with
      | some a, some b => some (f a b)
      | some a, none => some a
      | none, y => y) :: treeLevel f rest

/-- `n` levels of the tree. -/
def treeFold {α : Type} (f : α → α → α) : Nat → List (Option α) → Option α
  | 0, xs => xs.head?.join
  | n + 1, xs => treeFold f n (treeLevel f xs)

/-- Fold the leaf results in increasing index; absent leaves contribute nothing (R86). -/
def foldLeaves {α : Type} (f : α → α → α) : Option α → List (Option α) → Option α
  | acc, [] => acc
  | acc, none :: rest => foldLeaves f acc rest
  | none, some x :: rest => foldLeaves f (some x) rest
  | some a, some x :: rest => foldLeaves f (some (f a x)) rest

/-- Cut a list in leaves of 64; `k` bounds their number. -/
def cutLeaves {α : Type} : Nat → List α → List (List α)
  | 0, _ => []
  | _ + 1, [] => []
  | k + 1, xs => xs.take 64 :: cutLeaves k (xs.drop 64)

/-- The leaf-mode reduction of R86. -/
def leafReduce {α : Type} (f : α → α → α) (xs : List (Option α)) : Option α :=
  foldLeaves f none ((cutLeaves (xs.length / 64 + 1) xs).map (treeFold f 6))

/-- sat_int (R63). -/
def clampInt (lo hi x : Int) : Int := max lo (min hi x)

/-- The integer types of XCTL (R51, R63): width and sign. -/
def etWidth (code : Nat) : Nat := 8 * 2 ^ (code % 4)
def etSigned (code : Nat) : Bool := code < 4
def etBytes (code : Nat) : Nat := 2 ^ (code % 4)

/-- The value of the low bits of x in an integer type (R63). -/
def intOf (code : Nat) (x : Nat) : Int :=
  let w := etWidth code
  let u := x % 2 ^ w
  if etSigned code && 2 ^ (w - 1) ≤ u then (u : Int) - (2 ^ w : Nat) else (u : Int)

/-- The bits of an integer in a type, wrapped (R63). -/
def wrapTo (w : Nat) (x : Int) : Nat := (x % ((2 ^ w : Nat) : Int)).toNat

/-- The bounds of an integer type (R63). -/
def intMin (code : Nat) : Int := if etSigned code then -((2 ^ (etWidth code - 1) : Nat) : Int) else 0
def intMax (code : Nat) : Int :=
  if etSigned code then ((2 ^ (etWidth code - 1) : Nat) : Int) - 1 else ((2 ^ etWidth code : Nat) : Int) - 1

/-- A value of an integer type written to a g register: sign- or zero-extended (R63). -/
def extendTo64 (code : Nat) (x : Nat) : Word := BitVec.ofInt 64 (intOf code x)

end Sys2Proof.Machine
end

