-- ==== Sys2Proof/Machine/State.lean ====
section
/-! DEFINITION. The state of one RHL-C1024 cube (spec/00_scope.md R1-R4) as plain data, and the state that boot
leaves. Every default value of a field is its value after boot step 7 (spec/21 R436); NOTES.md names the ones the
spec does not give. -/

namespace Sys2Proof.Machine

/-- Why a step stops the run with a fault. -/
inductive Fault where
  /-- Raised by a step of a cube that is not powered or has not booted (spec/00_scope.md R4), or of one in recovery where
  the step is none of its UCIe port (spec/21 R436): nothing executes. Safe: the hardware does nothing there either. -/
  | notRunning
  deriving DecidableEq, Repr

/-- Why a step has no meaning here. -/
inductive Refusal where
  /-- Raised by an arm of `exec` whose instruction the model does not give a meaning. Safe. -/
  | notModelled (mnemonic : String)
  /-- Raised by a step without an encoding where its event cannot take place in the state: the event did not happen, so
  the hardware has no such step. Safe. -/
  | notEnabled (row : String)
  deriving DecidableEq, Repr

/-- What a marker span's long operations make pending (R36): registers, predicates, vectors, masks, the sticky-flag
group. -/
inductive Res where
  | g (n : Nat)
  | p (n : Nat)
  | v (n : Nat)
  | m (n : Nat)
  | flags
  deriving DecidableEq, Repr

/-- A result written to a register (R34). -/
inductive RegWrite where
  | g (n : Nat) (x : Word)
  | p (n : Nat) (b : Bool)
  | v (n : Nat) (x : BitVec 1024)
  | m (n : Nat) (x : BitVec 128)
  | flags (f : Flags)
  | pw (x : Word)
  deriving DecidableEq, Repr

/-- One pending long result (R34): its number, what it writes once it is known, and the general register that an answer
goes to, 15 for none. -/
structure Pend where
  id     : Nat
  writes : Option (List RegWrite)
  d      : Nat
  deriving DecidableEq, Repr

/-- Identity of a placement group (R236): cube, die, cluster of the die, group slot. -/
structure GroupId where
  cube : Nat := 0
  die  : Nat := 0
  cl   : Nat := 0
  slot : Nat := 0
  deriving DecidableEq, Repr

/-- A trap to be taken (R215-R217): cause, detail, the remote and more bits, xaddr, xpc. -/
structure TrapRec where
  cause  : Nat
  detail : Nat := 0
  remote : Bool := false
  more   : Bool := false
  xaddr  : Word := 0
  xpc    : Nat := 0
  /-- raised from the fault record, which the trap entry clears (R199) -/
  record : Bool := false
  deriving DecidableEq, Repr

/-- A chain that is completed by an event (a sleep, a wait, a request): where it continues, its marker, and the d
field that takes the result; `pop` is the queue port whose entry its completion pops. -/
structure Resume where
  next   : Nat
  marker : Bool
  d      : BitVec 4
  pop    : Option Nat := none
  /-- a stop does not interrupt the wait: a barrier unit's answer, a core or quire CSAVE that has sealed its targets (spec/16
  R351) -/
  fixed  : Bool := false
  deriving DecidableEq, Repr

/-- What a blocked chain waits for (R27, R122, R144, R186, R251). -/
inductive Wait where
  | pop (port : Nat)
  | push (port : Nat)
  /-- VLEASE is granted by an event, which completes it (spec/05 R122) -/
  | lease (windows : Nat) (r : Resume)
  /-- an access homed at the issuing core, behind the thread's own messages there (spec/09 R274) -/
  | ownMessages
  | lock (lo len : Nat)
  | fence (scope : Nat)
  /-- MWAIT, BWAIT and RECV complete with the event that they wait for (spec/08 R251, R252); RECV's message goes to the
  local store at `at'` -/
  | mailbox (set : GroupId) (mb : Nat) (count : Nat) (r : Resume)
  | barrierRelease (r : Resume)
  | recv (at' : Nat) (r : Resume)
  | stream (v : Nat)
  | slices
  | context (load : Bool) (sel : Word)
  /-- a context area in another cube is written or read (spec/16 R355) -/
  | area (id : Nat) (r : Resume)
  deriving DecidableEq, Repr

/-- Thread states (R251). `since` counts the core's cycles. -/
inductive Status where
  | ready
  | parked (yields : Bool)
  | blocked (w : Wait) (since : Nat)
  | sleeping (word : Nat) (kind : Nat) (since : Nat) (r : Resume) (value : Word) (ea : Word)
  | awaiting (id : Nat) (r : Resume)
  | gangHold
  /-- `write`: the access needs permission to write (spec/15 R338) -/
  | departing (kind : Nat) (addr : Word) (urg : Nat) (write : Bool)
  | trapWait (t : TrapRec)
  | exiting
  | stopped
  deriving DecidableEq, Repr

/-- A gate-stack frame (R211). -/
structure GateFrame where
  next   : Nat
  dom    : Nat
  pw     : Word
  deriving DecidableEq, Repr

/-- A barrier (R203): scope 0 cluster, 1 cube, 2 pod; the unit (cube × 32 + cluster, cube, or 0); the number, base
included. -/
structure BarName where
  scope : Nat
  unit  : Nat
  n     : Nat
  deriving DecidableEq, Repr

/-- A thread's arrival record (R204). `lost` marks a phase that left the unit's history (R253); `short` one of which a core
that has no part in the unit knows bits 7:0 alone (R242). -/
structure Arrival where
  bar      : BarName
  phase    : BitVec 32
  released : Bool
  fa       : Flags
  lost     : Bool := false
  short    : Bool := false
  /-- when the unit had no room for a remote waiter: the cycle of the query to be repeated (R253) -/
  retry    : Option Nat := none
  deriving DecidableEq, Repr

/-- The pattern of a stream register (R168). -/
structure Pattern where
  base : Nat
  s0   : Int
  s1   : Int
  s2   : Int
  c0   : Nat
  c1   : Nat
  c2   : Nat
  tag  : Nat
  cnt  : Bool
  urg  : Bool
  nt   : Bool
  sink : Bool
  deriving DecidableEq, Repr

/-- What one engine transfer piece moves: engine addresses of its source and destination, and its bytes (at most 32,
within one line of each; log 18). -/
structure Piece where
  src : Nat
  dst : Nat
  len : Nat
  /-- its number in its chunk -/
  no  : Nat := 0
  deriving DecidableEq, Repr

/-- The stream state of one of v4 to v7 (R168-R171): strips fetched and not yet used, each with the poison of its
words; strips fetched and strips used so far; the domain, privilege and owner tag at its SMODE, which its packets carry
(spec/15 R345, R348); the resume state of a faulted strip (R169, R177). -/
structure Stream where
  pat     : Pattern
  strips  : List (BitVec 1024 × BitVec 16) := []
  fetched : Nat := 0
  used    : Nat := 0
  /-- the number of the stream, which its packets carry -/
  op      : Nat
  dom     : Nat := 0
  priv    : Bool := false
  key     : Nat := 0
  /-- the pieces of the strip that is being fetched, each with its bytes and poison once they are read -/
  coming  : List (Piece × Option (List Byte × List Bool)) := []
  /-- homes at which its locks are held, whether its pieces have been asked for, and those of them that have failed -/
  homes   : List Nat := []
  asked   : Bool := false
  stuck   : List Piece := []
  /-- a stopped strip: its resume word, 32 where the strip was abandoned (R169, R177) -/
  faulted : Option Nat := none
  deriving DecidableEq, Repr

/-- A sink strip handed over (R170) with what its packets carry. -/
structure SinkStrip where
  /-- the number of its stream -/
  op    : Nat := 0
  addr  : Nat
  data  : BitVec 1024
  uid   : Nat
  slot  : Nat
  group : GroupId
  task  : Nat
  dom   : Nat
  priv  : Bool
  key   : Nat
  tag   : Nat
  cnt   : Bool
  urg   : Bool
  nt    : Bool
  /-- once it is sent: the pieces not yet acknowledged, and those of them that have failed -/
  flying : Option (List Piece) := none
  stuck : List Piece := []
  /-- its number, once it registers, 0 before; the homes at which its locks are held; its resume word where it is stopped -/
  id    : Nat := 0
  homes : List Nat := []
  faulted : Option Nat := none
  deriving DecidableEq, Repr

/-- A vector lease (R29-R31): windows, registers, masks, the stream state of v4 to v7. -/
structure Lease where
  windows : Nat
  v       : Tab (BitVec 1024) := []
  m       : Tab (BitVec 128) := []
  streams : Tab Stream := []
  deriving DecidableEq, Repr

/-- A translation (R338): physical address and key slot; the elided pattern where there is one; pinned placement; the page may
be written. -/
structure Xl where
  pa     : Nat
  key    : Nat
  elided : Option Word
  pinned : Bool
  write  : Bool := true
  deriving DecidableEq, Repr

/-- One thread context (R228-R255). -/
structure Thread where
  /-- The model's own number of the thread. -/
  uid       : Nat
  pc        : Nat
  g         : Vector Word 10
  wk        : Word
  pw        : Word
  /-- P of the marker span (R36). -/
  span      : List Res := []
  pend      : List Pend := []
  status    : Status := .ready
  dom       : Nat
  group     : GroupId
  task      : Nat := 0
  gates     : List GateFrame := []
  /-- gate depth at which the lease was suspended (R212); 0 when it is not -/
  leaseGate : Nat := 0
  inHandler : Bool := false
  entryDepth : Nat := 0
  xpc       : Word := 0
  xpw       : Word := 0
  xcause    : Word := 0
  xaddr     : Word := 0
  frec      : Word := 0
  fraddr    : Word := 0
  arrival   : Option Arrival := none
  lease     : Option Lease := none
  bdcfg     : Word := 0
  q0        : List Word := []
  q1        : List Word := []
  /-- bank-dot results in issue order; not yet delivered ones are empty (R181) -/
  q3        : List (Nat × Option Word) := []
  out0      : Nat := 0
  out1      : Nat := 0
  stage     : List Word := []
  half      : Option Word := none
  mseq      : BitVec 16 := 0
  cseq      : BitVec 16 := 0
  aseq      : BitVec 16 := 0
  /-- sends not yet acknowledged: packet number and scope code (R198) -/
  sends     : List (Nat × Nat) := []
  /-- stops that apply (R350): 0 thread, 1 group, 2 quire, 3 core, 4 halt tree; 5 while it is being saved into another cube -/
  stops     : List Nat := []
  detached  : Nat := 0
  lastIssue : Option Nat := none
  order     : Nat := 0
  /-- the BAW at the pc has arrived and goes on as BWAIT (spec/16 R351, R358) -/
  rs        : Bool := false
  /-- the access of the chain at the pc was found homed here when its ferry passed the slice -/
  atHome    : Option (Word × Xl) := none
  /-- registers with a parity error (spec/20 R411); the predicate word stands as its flags -/
  parity    : List Res := []
  /-- strips of its sink streams whose last beat has not been written (spec/05 R128) -/
  beats     : List SinkStrip := []
  deriving DecidableEq, Repr

/-- A line of a home cache (R265): physical line number, key slot, data, dirty, poison of its four words. -/
structure CacheLine where
  line   : Nat
  key    : Nat
  data   : BitVec 256
  dirty  : Bool
  poison : BitVec 4
  deriving DecidableEq, Repr

/-- A run queue (R246): launch (its task and a group of it), level, tickets, miss count, and the thread it last issued in the
quantum with its place in the order, from which the cyclic order goes on when the thread has left (R250). -/
structure RunQueue where
  task    : Nat
  group   : GroupId
  level   : Nat
  tickets : Nat
  miss    : Nat := 0
  last    : Option (Nat × Nat) := none
  deriving DecidableEq, Repr

/-- A waiter on a full/empty word (R201): a sleeping thread's slot, or a queued STFE message. -/
inductive FeWaiter where
  | load (slot : Nat) (empties : Bool)
  | storeThread (slot : Nat)
  | storeMsg (pkt : Nat)
  deriving DecidableEq, Repr

/-- The queues of one full/empty word: waiters in arrival order with the cycle they joined (R201, R202). -/
structure FeQueue where
  loads  : List (FeWaiter × Nat) := []
  stores : List (FeWaiter × Nat) := []
  deriving DecidableEq, Repr

/-- A place in a home: 0 its local store, 1 its B-store, 2 DRAM (physical address), from `lo` for `len` bytes. -/
structure Span where
  store : Nat
  lo    : Nat
  len   : Nat
  deriving DecidableEq, Repr

/-- The owner of a range-lock entry (R146): a copy-engine operation of a core, a matrix command of a core, a folio of
a quire, a stream or a strip of a sink stream, a bank-dot request or row command of another cube that has come as a packet. -/
inductive LockOwner where
  | copy (core op : Nat)
  | matrix (core : Nat)
  | folio (quire slot : Nat)
  | stream (op : Nat)
  | packet (id : Nat)
  deriving DecidableEq, Repr

/-- A range-lock entry (R146): its owner, its mode, the part of the owner's chunk that lies at this home, and the pieces
of the chunk that are still to be read or to land here (R147). -/
structure RangeLock where
  owner : LockOwner
  write : Bool
  spans : List Span
  pieces : List Piece := []
  deriving DecidableEq, Repr

/-- Where a copy-engine operation stands (R147, R176, R177). -/
inductive CopyPhase where
  | register          -- registering the locks of its current chunk
  | moving            -- its pieces are on their way
  | faulted (cause detail : Nat) (addr : Word) (word : Nat) (told : Bool)  -- stopped; `word` is its resume word
  | done (code : Nat)
  deriving DecidableEq, Repr

/-- A copy-engine operation (R172-R177, R183-R185): kind 1 CPYG, 2 CPYP, 3 CPYD, 4 ROWCOPY, 5 ROWZERO. -/
structure CopyOp where
  /-- its entry of the copy engine, 0 to 31, which names its resume word (R332, spec/21 R430) -/
  entry  : Nat := 0
  kind   : Nat
  seq    : BitVec 16
  tag    : Nat
  uid    : Nat
  slot   : Nat
  group  : GroupId
  task   : Nat
  dom    : Nat
  priv   : Bool
  key    : Nat
  scope  : Nat
  urg    : Bool
  nt     : Bool
  dst    : Nat
  src    : Nat
  gb     : Nat
  /-- bytes of the operation and bytes whose chunk has begun -/
  total  : Nat := 0
  pos    : Nat := 0
  /-- pieces of the current chunk that are not acknowledged, and those of them that have failed -/
  flying : List Piece := []
  stuck  : List Piece := []
  words  : Nat := 0
  dropped : Bool := false
  /-- a tree contribution or multicast (spec/19 R405, R408): its entry and contribution index, none for a multicast; the
  data that has been read of blocks not yet sent -/
  path   : Bool := false
  tree   : Option (Nat × Option Nat) := none
  parts  : List (Piece × List Byte × List Bool) := []
  phase  : CopyPhase := .register
  /-- homes at which the locks of the current chunk are held -/
  homes  : List Nat := []
  detached : Bool := false
  deriving DecidableEq, Repr

/-- A slice's subscription (R165, R166): folio, window count, blocks consumed, blocks delivered and not consumed
(bytes, and which of their words are poisoned). -/
structure Subscr where
  quire  : Nat
  slot   : Nat
  window : Nat
  pos    : Nat
  held   : List (List Byte × List Nat) := []
  deriving DecidableEq, Repr

/-- An entry of the q0 command order (R150). -/
inductive MKind where
  | words    -- a command of two pushed words
  | mcfg (mode : Nat)
  | resume (bookmark : List Word)
  | badHalf  -- a half command left by EXIT
  deriving DecidableEq, Repr

/-- Where a matrix command stands. -/
inductive MPhase where
  | queued
  | running
  | finished (code : Nat)
  deriving DecidableEq, Repr

/-- A command of the q0 order. -/
structure MCmd where
  kind   : MKind
  w0     : Word := 0
  w1     : Word := 0
  seq    : BitVec 16
  uid    : Nat
  slot   : Nat
  dom    : Nat
  gang   : Option Nat := none
  kdone  : Nat := 0
  flags  : Flags := 0
  phase  : MPhase := .queued
  /-- cycle at which this core arrived at the gang join -/
  arrived : Option Nat := none
  /-- a split is pending (R159, spec/16 R352) -/
  split  : Bool := false
  deriving DecidableEq, Repr

/-- The matrix slice of a core (R150). -/
structure SliceSt where
  acc   : Tab (BitVec 32) := []
  mode  : Nat := 0
  bka   : Option Nat := none
  /-- a bookmark kept in the slice (R159), with the number of its thread -/
  kept  : Option (Nat × List Word) := none
  sub   : Option Subscr := none
  order : List MCmd := []
  gang  : Option Nat := none
  deriving DecidableEq, Repr

/-- A folio slot (R163, R164, R167): producer core, first offset, block length in bytes, number of blocks. -/
structure Folio where
  producer : Nat
  base     : Nat
  blen     : Nat
  nb       : Nat
  closed   : Bool := false
  deriving DecidableEq, Repr

/-- A core-table release (R253): the last released phase and flags of a barrier. -/
structure Released where
  bar   : BarName
  phase : BitVec 32
  fa    : Flags
  deriving DecidableEq, Repr

/-- A message of SEND to a task (R207, R208, R317): the endpoint it is addressed to, its received header, its words, the
sender's group (none for a fault message); entries popped so far; its words that are poisoned (spec/20 R411). -/
structure TaskMsg where
  ep     : Nat
  hdr    : Word
  words  : List Word
  group  : Option GroupId
  popped : Nat := 0
  bad    : List Nat := []
  deriving DecidableEq, Repr

/-- The receive queue of a task at a core (R208, R316); messages popped to their end have left it. -/
structure RecvQueue where
  msgs : List TaskMsg := []
  deriving DecidableEq, Repr

/-- What is left of a thread after EXIT (R196, R311): sends not yet acknowledged and the fault record. -/
structure Gone where
  uid    : Nat
  slot   : Nat
  dom    : Nat
  task   : Nat
  group  : GroupId
  sends  : List (Nat × Nat)
  frec   : Word
  fraddr : Word
  deriving DecidableEq, Repr

/-- A buoy (R365-R367): key, target endpoint, the cycle of its last claim, the sources it has sent a notice. -/
structure Buoy where
  key    : Nat
  target : Nat
  last   : Nat
  told   : List Nat := []
  deriving DecidableEq, Repr

/-- A redirect entry (R366): vacated endpoint, target endpoint, key; the urgency classes whose fence is not yet
acknowledged. -/
structure Redirect where
  v      : Nat
  t      : Nat
  key    : Nat
  fences : List Nat
  deriving DecidableEq, Repr

/-- The key under which a DRAM line was written (R343): the boot record, or one installed by SETKEY. -/
inductive KeyVal where
  | boot
  | given (k : BitVec 256)
  deriving DecidableEq, Repr

/-- A mailbox set (R175, R207): 16 counters of 32 bits and the dead-letter mask. -/
structure MailSet where
  count : Tab (BitVec 32) := []
  mberr : BitVec 16 := 0
  deriving DecidableEq, Repr

/-- A copy of a domain entry (R326, R329): its first four dwords and whether the entry is valid. -/
structure DomCopy where
  w0 : Word
  w1 : Word
  w2 : Word
  w3 : Word
  ok : Bool
  deriving DecidableEq, Repr

/-- A CSAVE or CLOAD whose area lies in another cube (spec/16 R355): its number, the issuing thread and what the chain's packets
carry, its target, the lines of the area that have not been answered, what has been read of the others with its poison, whether
one failed. -/
structure AreaOp where
  id   : Nat
  save : Bool
  slot : Nat
  uid  : Nat
  dom  : Nat
  kind : Nat
  tgt  : Nat
  todo : List Nat
  got  : List (Nat × List Byte × List Bool) := []
  failed : Bool := false
  deriving DecidableEq, Repr

/-- The identifier of an atomic or store that a home keeps (spec/07 R197, spec/20 R421), with the number of the thread that issued it
(log 118), and whether it was performed or refused. -/
structure DoneId where
  src  : Nat
  slot : Nat
  uid  : Nat
  seq  : BitVec 16
  performed : Bool := true
  deriving DecidableEq, Repr

/-- A core (R1, R2). -/
structure CoreSt where
  cyc     : Nat := 0
  istore  : Memory := []
  lstore  : Memory := []
  bstore  : Memory := []
  /-- poisoned 8-byte words: store (0 local, 1 B-store, 2 instruction store) and word number -/
  poison  : List (Nat × Nat) := []
  /-- words whose tag is empty (R200) -/
  empty   : List Nat := []
  feq     : Tab FeQueue := []
  cache   : List CacheLine := []
  locks   : List RangeLock := []
  threads : Tab Thread := []
  mail    : List (GroupId × MailSet) := []
  recvq   : Tab RecvQueue := []
  rel     : List Released := []
  queues  : Tab RunQueue := []
  win     : Tab Nat := []
  left    : Tab Nat := []
  rng     : BitVec 32 := 0
  owner   : Nat := 0
  dtab    : Word := 0
  doms    : Tab DomCopy := []
  slice   : SliceSt := {}
  copies  : Tab CopyOp := []
  areas   : List AreaOp := []
  sinkq   : List SinkStrip := []
  /-- threads blocked in VLEASE, in blocking order (R122) -/
  leaseq  : List Nat := []
  gone    : List Gone := []
  /-- stops of the whole core that apply: 2 quire, 3 core, 4 halt (R350) -/
  stops   : List Nat := []
  sealed  : Bool := false
  part    : Nat := 0
  hcyc    : Word := 0
  hsent   : Word := 0
  hrecv   : Word := 0
  sent    : Word := 0
  recv    : Word := 0
  buoys   : Tab Buoy := []
  redirects : List Redirect := []
  /-- instruction words written by ISTW and not yet made visible by a START of their source (R225, spec/09 R278): source, word
  number and value -/
  istNew  : List (Nat × Nat × Word) := []
  /-- ferries awaiting a context (R245): packets of the inbox; spilled ones with their slot of the ring -/
  inbox   : List Nat := []
  spill   : List (Nat × Nat) := []
  spillAt : Nat := 0
  /-- identifiers of atomics and stores of other cubes performed or refused here, newest first (R421) -/
  done    : List DoneId := []
  mwlim   : Word := 16777216
  mglim   : Word := 1048576
  fewlim  : Word := 16777216
  deriving DecidableEq, Repr

/-- A memory operation at a home (R188-R201). -/
inductive AccOp where
  | ld | st | aadd | aand | aor | axor | amin | amax | aminn | amaxn | afadd | swp | cas
  | ldfe | ldff | stfe | stff | feclr
  deriving DecidableEq, Repr

/-- An access: operation, whether its old value goes back (a fetch), etype code, width in bytes, value sent,
comparand, scope code, nt. -/
structure Access where
  op    : AccOp
  fetch : Bool
  et    : Nat
  n     : Nat
  val   : Word
  cmp   : Word
  scope : Nat
  nt    : Bool
  deriving DecidableEq, Repr

/-- The ferry (R240-R242) as fields. -/
structure Ferry where
  pc      : Nat
  dom     : Nat
  kind    : Nat
  bcause  : Nat := 0
  bdetail : Nat := 0
  g       : Vector Word 10
  pw      : Word
  wk      : Word
  addr    : Word
  group   : GroupId
  arrival : Option Arrival
  uid     : Nat
  task    : Nat
  frec    : Word
  fraddr  : Word
  aseq    : BitVec 16
  mseq    : BitVec 16
  cseq    : BitVec 16
  /-- the chain at the pc writes memory: its home needs permission to write (spec/15 R338) -/
  write   : Bool := false
  deriving DecidableEq, Repr

/-- A failure an acknowledgement carries (R196, R197). -/
structure Failure where
  cause  : Nat
  detail : Nat
  addr   : Word
  deriving DecidableEq, Repr

/-- What an engine packet belongs to: a copy, a source stream of a slot and register, a sink strip, a context area. -/
inductive EngineRef where
  | copy (id : Nat)
  | stream (slot v op : Nat)
  | sink (id : Nat)
  | area (id : Nat)
  deriving DecidableEq, Repr

/-- What an engine packet carries of its operation (R175, R345): issuing core, operation, who counts. -/
structure EngineTag where
  core  : Nat
  ref   : EngineRef
  group : GroupId
  tag   : Nat
  count : Bool
  key   : Nat
  nt    : Bool
  task  : Nat
  deriving DecidableEq, Repr

/-- A tensor packet (spec/19 R404-R407): its tree and block, the contribution indices lo to hi − 1 of the tree node whose
value it carries, the elements with their poison, the exceptions so far, and the copy of contribution lo with its key and
the mailbox it names. -/
structure Tensor where
  tree   : Nat
  block  : Nat
  lo     : Nat
  hi     : Nat
  elems  : List Nat
  poison : List Bool := []
  fl     : Flags := 0
  tag    : EngineTag
  dom    : Nat
  deriving DecidableEq, Repr

/-- What a packet carries. -/
inductive Body where
  | ferry (f : Ferry)
  | access (a : Access)
  | request (a : Access)
  | ack (pkt : Nat) (fail : Option Failure)
  | engineRead (t : EngineTag) (p : Piece)
  | engineData (t : EngineTag) (p : Piece) (data : List Byte) (poison : List Bool)
  | landed (t : EngineTag) (p : Piece) (data : List Byte) (poison : List Bool)
  | engineAck (t : EngineTag) (p : Piece) (words : Nat) (code : Nat) (fail : Option Failure)
  /-- a row command whose rows lie in the cube it is sent to (spec/06 R183, spec/19 R394), with the homes at which its locks are
  held there and whether they all are -/
  | rowCmd (t : EngineTag) (kind src dst : Nat) (homes : List Nat) (locked : Bool)
  | bdot (cfg : Word) (vec : List Byte) (ticket : Nat) (queued vpoison : Bool)
  | barArrive (b : BarName) (fl : Flags) (drop : Bool)
  | barInit (b : BarName) (count : Nat)
  /-- the answer to the packet `ref`: the phase that an arrival joined, none for BINIT; or the refusal -/
  | barAnswer (b : BarName) (ref : Nat) (phase : Option (BitVec 32)) (refused : Option Nat)
  | barRelease (b : BarName) (phase : BitVec 32) (fa : Flags)
  /-- `short`: bits 7:0 of the phase are all that the record knows (spec/08 R242) -/
  | barQuery (b : BarName) (phase : BitVec 32) (short : Bool)
  /-- a query that the unit's history cannot answer, or for which it has no room -/
  | barReply (b : BarName) (phase : BitVec 32) (full : Bool)
  /-- `again`: a message that a front end replays, with its pop position (spec/14 R319) -/
  | message (task : Nat) (words : List Word) (group : Option GroupId) (urg : Bool) (again : Option Nat)
  | spawn (packet : List Word) (operand : Word) (home : Option Nat)
  | tpost (entry : Nat) (datum : Word)
  | tbind (entry : Nat) (packet : Option (List Word))
  | slinv (mode : Nat) (a : Word)
  | delivered (group : GroupId) (add dead : Bool)
  /-- an answer to the packet or ticket `ref`: a value, or a cause with 256 × its detail -/
  | reply (ref : Nat) (x : Word) (fail : Option Nat)
  | istw (off : Nat) (x : Word)
  | start (packet : Option (List Word))
  | exitReport (task : Nat) (group : GroupId)
  | faultMsg (words : List Word) (endpoint task : Nat)
  | haltReq (part : Nat) (stop : Bool)
  | relocNotice (v target key : Nat)
  | relocFence (v cls key : Nat)
  | relocAck (v cls key : Nat)
  /-- a query for the message of a source, slot and sequence number, by a gateway's port and pid (spec/20 R421) -/
  | homeQuery (src slot uid : Nat) (seq : BitVec 16) (port pid : Nat)
  | homeReply (port pid : Nat) (performed : Bool)
  | receipt (port pid : Nat)
  | abandon (port pid : Nat)
  | tensor (t : Tensor)
  deriving DecidableEq, Repr

/-- Where a packet stands: at a translation slice, walking with the level and the table's physical address, on its way
to the endpoint in `dst`, held there by a range lock (R280), queued there at a full/empty word (R201), waiting at its
source for a relocation fence (spec/16 R366), at an edge gateway, or dropped by the mesh with a broken header (spec/20
R411). -/
inductive Stage where
  | slice
  | walk (level : Nat) (table : Nat)
  | home
  | held
  | queued
  | waiting
  | gateway
  | lost
  deriving DecidableEq, Repr

/-- A packet of the mesh (R269-R272). Endpoints are numbers cube × 2,048 + core. `urg` is 0 bulk, 1 urgent, 2 system.
-/
structure Packet where
  id      : Nat
  uid     : Nat
  src     : Nat
  slot    : Nat
  dst     : Nat
  ordered : Bool
  urg     : Nat
  addr    : Word
  dom     : Nat
  priv    : Bool
  key     : Nat
  seq     : BitVec 16 := 0
  xl      : Option Xl := none
  /-- the core whose buoy forwarded it (spec/16 R366) -/
  via     : Option Nat := none
  /-- when it reached the edge gateways -/
  since   : Nat := 0
  /-- the tree that it follows (spec/19 R404) -/
  tree    : Nat := 0
  /-- payload words delivered poisoned (spec/20 R411) -/
  bad     : List Nat := []
  stage   : Stage
  body    : Body
  deriving DecidableEq, Repr

/-- A leaf held by a slice (R338, R339): domain, page number at its size, level, the two dwords, and where its entry lies,
for the compare-and-swap of a first touch (spec/09 R263). -/
structure LeafCopy where
  slice : Nat
  dom   : Nat
  page  : Nat
  level : Nat
  d0    : Word
  d1    : Word
  entry : Nat := 0
  deriving DecidableEq, Repr

/-- A space entry as held (R333): dwords 0 to 2. -/
structure SpaceCopy where
  w0    : Word
  keys0 : Word
  keys1 : Word
  deriving DecidableEq, Repr

/-- A barrier of a unit (R203, R204, R253). -/
structure Barrier where
  e       : Nat := 0
  a       : Nat := 0
  d       : Nat := 0
  phase   : BitVec 32 := 0
  fa      : Flags := 0
  history : List (BitVec 32 × Flags) := []
  waiters : List (Nat × Nat × BitVec 32) := []
  deriving DecidableEq, Repr

/-- A slot of a cluster's group table (R236) with what the launch gave the group (R203, R305, R307): level, tickets,
placement, gang and barrier levels, barrier base, task, and the threads of the group that have not exited. -/
structure Group where
  level   : Nat
  tickets : Nat
  place   : Nat
  gangLv  : Nat
  barrier : Nat
  base    : Nat
  task    : Nat
  live    : Nat
  /-- its gang has been released, or it has none (R234) -/
  opened  : Bool := true
  deriving DecidableEq, Repr

/-- A task record (R315) with what the front end keeps of the task (R311, R317): messages held, the entries of the spill area in
the order of their replay (what the ring's bytes do not hold of them is the model's, log 62), the next entry of the ring, the
endpoints whose queues are spilling (R318), whether every message must follow the replay under way; domain, completion word,
spill area, whether every thread has been placed. -/
structure TaskRec where
  state  : Nat
  id     : Nat
  live   : Nat := 0
  held   : List TaskMsg := []
  spill  : List (Nat × TaskMsg) := []
  ringAt : Nat := 0
  spilling : List Nat := []
  replaying : Bool := false
  dom    : Nat
  cplt   : Word
  spsize : Nat
  spbase : Nat
  placed : Bool := false
  deriving DecidableEq, Repr

/-- A packet of a front end (R304, R313): its eight dwords; for a task packet the sender's domain and endpoint, the
operand and the home core. -/
structure FePacket where
  words : List Word
  dom   : Nat := 0
  src   : Nat := 0
  operand : Word := 0
  home  : Option Nat := none
  deriving DecidableEq, Repr

/-- What a front end is doing with its packet (R304): placing a task, polling a semaphore, waiting for a signal's
acknowledgement. `plan` lists the clusters reserved for the next groups (R234); `held` counts the groups of the gang
placed so far. -/
inductive FeWork where
  | idle
  | placing (task : Nat) (next : Nat) (plan : List Nat)
  | semaphore (start last : Nat) (read : Option Nat)
  | signal (sent : Option Nat)
  deriving DecidableEq, Repr

/-- A front end (R302-R315): staging packets by writer, stream or spawn queue, completing stores held at the port, and
the packet it works on. `adds` are completion-word accesses not yet acknowledged: packet, task, domain. -/
structure FrontEnd where
  staging : Tab (Tab Word) := []
  queue   : List FePacket := []
  held    : List (Nat × FePacket) := []
  state   : Nat := 0
  code    : Nat := 0
  lastid  : Nat := 0
  domain  : Nat := 0
  serial  : Nat := 0
  ptr     : Nat := 0
  cur     : Option FePacket := none
  work    : FeWork := .idle
  records : Tab TaskRec := []
  adds    : List (Nat × Option Nat × Nat) := []
  deriving DecidableEq, Repr

/-- A trigger entry (R321-R323): state, owner, bound packet, held data with their posters, drops. -/
structure Trigger where
  state  : Nat := 0
  ovf    : Bool := false
  held   : List Word := []
  drops  : Nat := 0
  owner  : Nat := 0
  packet : List Word := []
  deriving DecidableEq, Repr

/-- A double-fault record at a steward core (R218): steward core, the thread's endpoint, slot and pc, the new cause.
-/
structure DFault where
  steward : Nat
  ep      : Nat
  slot    : Nat
  pc      : Nat
  cause   : Nat
  detail  : Nat
  deriving DecidableEq, Repr

/-- What the environment does next, or a thread (the model's own; log 2): an event, the issue of a thread, time at a
unit. -/
inductive Action where
  | ev (i : Instr)
  | issue (core slot : Nat)
  | pass (unit n : Nat)
  deriving DecidableEq, Repr

/-- A link packet (spec/19 R393): its header and payload, the urgency class it travels in, and when it came to the gateway
it stands at. -/
structure LinkPkt where
  h0      : Word
  h1      : Word
  payload : List Word
  ucls    : Nat
  since   : Nat := 0
  deriving DecidableEq, Repr

/-- A data flit as its sender keeps it (R388) or its receiver holds it (R389): sequence number, class, lead, body, and when
it was last sent. -/
structure SentFlit where
  seq  : Nat
  ucls : Nat
  lead : Nat
  body : List Byte
  sent : Nat := 0
  deriving DecidableEq, Repr

/-- A packet of a retry store (R401, R402): its pid, the packet and its link packet, sends so far, the time of the last,
and whether that send has been abandoned; the query of a lost reply's home in progress (spec/20 R421). -/
structure Retry where
  pid   : Nat
  pkt   : Packet
  link  : LinkPkt
  sends : Nat := 1
  sent  : Nat
  away  : Bool := false
  /-- when an adaptive packet that is due again was first kept from leaving (R398) -/
  due   : Option Nat := none
  /-- the home has received it: only its reply is outstanding -/
  query : Bool := false
  deriving DecidableEq, Repr

/-- A Nerven port with its gateway (R379-R392, R395, R401). The fields up to `en` are those of the port block. -/
structure Port where
  state  : Nat := 0
  lanes  : Nat := 0
  peer   : Nat := 0
  pport  : Nat := 0
  txkph  : Bool := false
  rxkph  : Bool := false
  txst   : Bool := false
  rxst   : Bool := false
  prst   : Bool := false
  warn   : Bool := false
  pcls   : BitVec 3 := 0
  txctr  : Nat := 0
  rxctr  : Nat := 0
  nres   : Nat := 0
  nbad   : Nat := 0
  four   : Bool := false
  en     : Bool := false
  /-- current and staged keys; each direction has switched to a first key -/
  txkey  : BitVec 128 := 0
  rxkey  : BitVec 128 := 0
  txnew  : BitVec 128 := 0
  rxnew  : BitVec 128 := 0
  txfirst : Bool := false
  rxfirst : Bool := false
  /-- the transmit counter's last value has been used under the current key (R392); the port has been up before (R381) -/
  spent  : Bool := false
  wasUp  : Bool := false
  /-- training: attempts that failed and when it began -/
  tries  : Nat := 0
  began  : Nat := 0
  /-- sender: packets waiting by class, the bytes of each class's open packet still to send, the next sequence number, the
  replay buffer, flits to resend, credits by class, control entries, runs of R386 -/
  outq   : List LinkPkt := []
  /-- packets begun, with the flits of each that are not acknowledged -/
  flying : List (LinkPkt × List Nat) := []
  rest   : Tab (List Byte) := []
  seq    : Nat := 0
  replay : List SentFlit := []
  resend : List Nat := []
  credit : Tab Nat := [(0, 128), (1, 128), (2, 128)]
  ctl    : List (Word × Word) := []
  runBulk : Nat := 0
  runSys : Nat := 0
  /-- the peer has reported REKEYNEEDED and no flit has come since -/
  needs  : Bool := false
  /-- receiver: the next sequence number, the resequencing buffer, when the last NAK was sent, reassembly by class, whole
  packets, flits of buffer freed by class, consecutive failed slots -/
  expect : Nat := 0
  held   : List SentFlit := []
  nakAt  : Option Nat := none
  reasm  : Tab (List Byte) := []
  inq    : List LinkPkt := []
  freed  : Tab Nat := []
  bad    : Nat := 0
  /-- the flit of the last slot sent -/
  out    : Option Flit := none
  /-- gateway: retry store, next pid -/
  store  : List Retry := []
  pid    : Nat := 0
  deriving DecidableEq, Repr

/-- The error log ring of a die (spec/20 R413): its records, oldest first, records freed so far, and records not stored. -/
structure ErrLog where
  recs : List (List Word) := []
  head : Nat := 0
  dropped : Nat := 0
  deriving DecidableEq, Repr

/-- A via column's entry of the vertical health table (spec/20 R415). -/
structure Vert where
  state : Nat := 0
  nbad  : Nat := 0
  spare : Nat := 64
  nchg  : Nat := 0
  deriving DecidableEq, Repr

/-- A column limiter word (spec/21 R442). -/
structure Limiter where
  loss : Nat := 0
  ptr  : Nat := 0
  cap  : Nat := 4
  deriving DecidableEq, Repr

/-- A route that changes (spec/19 R399): the entry that waits for the old route to empty. -/
structure Rerouting where
  dest : Nat
  old  : Word
  deriving DecidableEq, Repr

/-- A tree block that a cube is combining (spec/19 R405-R407): the partials it holds, the key of the first, and the
contributions of this cube that the round has seen. -/
structure Combine where
  tree  : Nat
  block : Nat
  parts : List Tensor := []
  key   : Option Nat := none
  seen  : List Nat := []
  deriving DecidableEq, Repr

/-- The firmware block (spec/21 R437, R440): nonce, the status at offset 0x008, whether a report is being formed, the
report, events dropped. -/
structure FirmBlock where
  nonce  : Tab Word := []
  status : Nat := 0
  busy   : Bool := false
  report : List Word := []
  drops  : Nat := 0
  deriving DecidableEq, Repr

/-- The cube. -/
structure State where
  /-- powered and booted (spec/21 R436) -/
  on       : Bool := true
  agenda   : List Action := []
  /-- the thread that a coded instruction acts on -/
  cur      : Nat × Nat := (0, 0)
  focus    : Nat := 0
  freeCtr  : Nat := 0
  nextId   : Nat := 1
  cores    : Tab CoreSt := []
  net      : List Packet := []
  /-- cycles of the units other than cores -/
  time     : Nat := 0
  logical  : Nat := 0
  physical : Nat := 0
  splitc   : Word := 0x7F
  keys     : Tab KeyVal := [(0, .boot)]
  dram     : Memory := []
  dramKey  : Tab KeyVal := []
  dramBad  : List Nat := []
  space    : Tab Word := []
  spaceHeld : Tab SpaceCopy := []
  leaves   : List LeafCopy := []
  aliases  : Tab Word := [(0, 0x8000000000000000)]
  paths    : Tab (BitVec 3) := [(0, 7)]
  /-- dwords of the subset table (spec/20 R423) that differ from those of boot: dword i of entry s at 512 × s + i -/
  subsets  : Tab Word := []
  folios   : Tab Folio := []
  bars     : List (BarName × Barrier) := []
  dfault   : List DFault := []
  groups   : Tab Group := []
  fes      : Tab FrontEnd := []
  trig     : Tab Trigger := []
  gstops   : List GroupId := []
  /-- fault messages that have come to steward firmware (spec/15 R331): steward core and words -/
  faultLog : List (Nat × List Word) := []
  /-- the UCIe link to the commander die is up (spec/21 R434) -/
  ucieUp   : Bool := false
  /-- tree entries (spec/19 R404): dword i of tree t at 8 × t + i -/
  tree     : Tab Word := []
  /-- ferry spill descriptors by core (spec/21 R430) -/
  spillDesc : Tab Word := []
  /-- ready and the part revision (spec/21 R431) -/
  ready    : Bool := true
  revision : Nat := 1
  /-- recovery: both firmware images failed (spec/21 R436) -/
  recovery : Bool := false
  ports    : Tab Port := []
  /-- route entries (spec/19 R397) and those whose old route has still to empty (R399) -/
  routes   : Tab Word := []
  reroute  : List Rerouting := []
  /-- receipts and abandon notices for which there is no route yet (R401, R402) -/
  notices  : List LinkPkt := []
  /-- accepted packets (R401): physical source cube, source port, pid, and when -/
  pids     : List (Nat × Nat × Nat × Nat) := []
  combines : List Combine := []
  /-- where packets for this cube are sent on after its replacement (spec/20 R419): physical cube and when it began -/
  forward  : Option (Nat × Nat) := none
  elog     : Tab ErrLog := []
  vert     : Tab Vert := []
  power    : Tab Limiter := []
  firm     : FirmBlock := {}
  /-- events queued for the commander (spec/21 R440), and transactions sent to it -/
  events   : List (List Word) := []
  ucieOut  : List (Word × List Word) := []
  deriving DecidableEq, Repr

/-- The state after reset. -/
def State.reset : State := {}

end Sys2Proof.Machine
end

