-- ==== Sys2Proof/Machine/Flags.lean ====
section
/-! DEFINITION. The predicate word (spec/01_instruction_words.md R32, R33) and what floating point takes from it
(spec/03_number_formats.md R78-R81). -/

namespace Sys2Proof.Machine

/-- PP and FSEL, bits 21 and [33:22] (R32). -/
def pwPP (pw : Word) : Bool := bit pw 21
def pwFsel (pw : Word) : BitVec 12 := BitVec.ofNat 12 (bits pw 33 22)

/-- The predicate word with PP and FSEL cleared. -/
def clearPP (pw : Word) : Word := pw &&& ~~~ (0x0000_0003_FFE0_0000 : Word)

/-- FMT sets PP and FSEL (R117). -/
def setPP (pw : Word) (f : BitVec 12) : Word := clearPP pw ||| word (2 ^ 21 + f.toNat * 2 ^ 22)

/-- Predicate n; p0 reads as 1 (R33). -/
def pwPred (pw : Word) (n : Nat) : Bool := n == 0 || bit pw n

/-- Write predicate n; p0 discards (R33). -/
def pwSetPred (pw : Word) (n : Nat) (b : Bool) : Word :=
  if n == 0 then pw
  else if b then pw ||| word (2 ^ n) else pw &&& ~~~ (word (2 ^ n))

/-- The sticky flags, bits [20:16]. -/
def pwFlags (pw : Word) : Flags := BitVec.ofNat 5 (bits pw 20 16)

/-- OR exceptions into the sticky flags. -/
def pwOrFlags (pw : Word) (f : Flags) : Word := pw ||| word (f.toNat * 2 ^ 16)

/-- A must-be-zero bit is set: [63:48] or [39:34] (R32). -/
def pwReserved (pw : Word) : Bool := bits pw 63 48 != 0 || bits pw 39 34 != 0

/-- The format selector in force: none unless PP is 1 (R80). -/
def fselOf (pw : Word) : BitVec 12 := if pwPP pw then pwFsel pw else 0

/-- Effective mode, overflow mode and flush controls as an instruction samples them at issue (R33, R80). -/
def fctlOf (pw : Word) : FCtl :=
  let f := fselOf pw
  { mode := modeOf (if bit f 10 then bits f 9 8 else bits pw 47 46), ovf := bit f 11,
    fiw := bit pw 40, frw := bit pw 41, fih := bit pw 42, frh := bit pw 43, fib := bit pw 44, frb := bit pw 45 }

/-- The format of source a: AFMT where AV is set and honoured, else the default (R81, R110). -/
def fmtA (pw : Word) (honours : Bool) (dflt : Nat) : Nat :=
  let f := fselOf pw
  if honours && bit f 7 then bits f 6 4 else dflt

/-- The format of source b (R81, R110). -/
def fmtB (pw : Word) (honours : Bool) (dflt : Nat) : Nat :=
  let f := fselOf pw
  if honours && bit f 3 then bits f 2 0 else dflt

/-- The predicate word with which a gate callee starts: p0, RM and the flush controls (R211). -/
def gatePw (pw : Word) : Word := 1 ||| (pw &&& 0x0000_FF00_0000_0000)

end Sys2Proof.Machine
end

