-- ==== Sys2Proof/Machine/Ops.lean ====
section
/-! DEFINITION. The named operations on cores, threads, time, packets, domains and traps. -/

namespace Sys2Proof.Machine

/-! ### Cores and threads -/

/-- The seed of a core's generator (spec/08 R248). -/
def seedOf (core : Nat) : BitVec 32 :=
  let x : BitVec 32 := 0x9E3779B9 ^^^ BitVec.ofNat 32 (core * 0x85EBCA6B)
  if x == 0 then 0x9E3779B9 else x

/-- A core as cold reset leaves it. -/
def freshCore (core : Nat) : CoreSt := { rng := seedOf core }

/-- Core c. -/
def State.core (s : State) (c : Nat) : CoreSt := (tget s.cores c).getD (freshCore c)

def State.setCore (s : State) (c : Nat) (k : CoreSt) : State := { s with cores := tset s.cores c k }

def State.modCore (s : State) (c : Nat) (f : CoreSt → CoreSt) : State := s.setCore c (f (s.core c))

/-- The thread in a context slot. -/
def State.thread? (s : State) (c slot : Nat) : Option Thread := tget (s.core c).threads slot

def State.setThread (s : State) (c slot : Nat) (t : Thread) : State :=
  s.modCore c fun k => { k with threads := tset k.threads slot t }

/-- The queues of a core that still hold a thread (spec/08 R246). -/
def liveQueues (k : CoreSt) : Tab RunQueue := k.queues.filter fun q => k.threads.any fun t => t.2.task == q.2.task

/-- A mailbox set is free when its group has no thread on the core and all its counters are zero (spec/06 R175). -/
def setFree (k : CoreSt) (g : GroupId) (m : MailSet) : Bool :=
  m.count.all (fun e => e.2 == 0) && !k.threads.any (fun t => t.2.group == g)

/-- The mailbox sets of a core that are not free. -/
def liveMail (k : CoreSt) : List (GroupId × MailSet) := k.mail.filter fun e => !setFree k e.1 e.2

/-- A thread leaves its core: the context slot is freed, and its queue with its last thread (spec/08 R246), and a mailbox set that
nothing needs any more (spec/06 R175). -/
def State.delThread (s : State) (c slot : Nat) : State :=
  s.modCore c fun k =>
    let k' := { k with threads := tdel k.threads slot }
    { k' with queues := liveQueues k', mail := liveMail k' }

/-- Change the thread of a slot, if there is one. -/
def State.modThread (s : State) (c slot : Nat) (f : Thread → Thread) : State :=
  match s.thread? c slot with
  | none => s
  | some t => s.setThread c slot (f t)

/-- The endpoint of a core of this cube (spec/00 R3). -/
def State.ep (s : State) (core : Nat) : Nat := s.logical * 2048 + core

/-- The cube and the core of an endpoint. -/
def epCube (ep : Nat) : Nat := ep / 2048
def epCore (ep : Nat) : Nat := ep % 2048

/-- An endpoint names a core: neither a reserved number nor a front end, its high bits zero (R2, R3). DESIGN CHOICE (log
102): what SEND, ISTW and START do with an endpoint whose must-be-zero bits are set the spec does not say; here they treat it
as they treat a reserved core number. -/
def epIsCore (ep : Nat) : Bool := epCore ep < 1028 && ep < 2 ^ 25

/-- Where the thread of a number is resident. -/
def findThread (cores : Tab CoreSt) (uid : Nat) : Option (Nat × Nat) :=
  match cores with
  | [] => none
  | (c, k) :: rest =>
    match k.threads.find? (fun e => e.2.uid == uid) with
    | some e => some (c, e.1)
    | none => findThread rest uid

def State.where? (s : State) (uid : Nat) : Option (Nat × Nat) := findThread s.cores uid

/-- The lowest free context slot of a core (spec/08 R233, R245). -/
def freeSlot (k : CoreSt) : Option Nat := (List.range 64).find? (fun i => (tget k.threads i).isNone)

/-- The number of free context slots. -/
def freeSlots (k : CoreSt) : Nat := 64 - k.threads.length

/-- A free value and the state with the counter advanced (log 2). -/
def State.tick (s : State) : State := { s with freeCtr := s.freeCtr + 1 }

/-- The model's next number. -/
def State.bump (s : State) : State := { s with nextId := s.nextId + 1 }

/-! ### Time (spec/01 R34, spec/04 R109; log 5) -/

/-- The cycle counter of a core. -/
def State.cyc (s : State) (c : Nat) : Nat := (s.core c).cyc

/-- Time passes at a core, or at the other units. -/
def State.pass (s : State) (u n : Nat) : State :=
  if u < 1028 then s.modCore u fun k => { k with cyc := k.cyc + n }
  else { s with time := s.time + n }

/-- The cycle in which a thread's chain issues: at least one after the core's last issue, at least four after the
thread's own (R34), and a free delay later. -/
def issueCycle (s : State) (c : Nat) (t : Thread) : Nat :=
  let least := match t.lastIssue with
    | none => s.cyc c + 1
    | some l => max (s.cyc c + 1) (l + 4)
  least + Config.issueDelay s.freeCtr

/-- An issue takes place: the core's counter and the thread's last issue. -/
def State.issueAt (s : State) (c slot : Nat) : State :=
  match s.thread? c slot with
  | none => s
  | some t =>
    let now := issueCycle s c t
    ((s.modCore c fun k => { k with cyc := now }).modThread c slot fun t => { t with lastIssue := some now }).tick

/-! ### Registers (spec/01 R25, R26, R33) -/

/-- General register n. -/
def Thread.greg (t : Thread) (n : Nat) : Word := (t.g[n]?).getD 0

/-- Write general register n; other numbers discard. -/
def Thread.setGreg (t : Thread) (n : Nat) (x : Word) : Thread :=
  { t with g := t.g.setIfInBounds n x, parity := t.parity.filter (· != .g n) }

/-- The value of a scalar field that is not a queue port: g0 to g9, zr as zero, wk (R25). -/
def Thread.scalar (t : Thread) (f : BitVec 4) : Word :=
  if f == 10 then 0 else if f == 11 then t.wk else t.greg f.toNat

/-- Write a scalar field that is not a queue port; zr discards (R26). -/
def Thread.setScalar (t : Thread) (f : BitVec 4) (x : Word) : Thread := t.setGreg f.toNat x

/-- Vector register n of the lease; registers never written read as zero (R122). -/
def Thread.vreg (t : Thread) (n : Nat) : BitVec 1024 :=
  match t.lease with | none => 0 | some l => tgetD l.v n 0

def Thread.setVreg (t : Thread) (n : Nat) (x : BitVec 1024) : Thread :=
  { t with parity := t.parity.filter (· != .v n), lease := t.lease.map fun l => { l with v := tset l.v n x } }

/-- Mask n of the lease. -/
def Thread.mask (t : Thread) (n : Nat) : BitVec 128 :=
  match t.lease with | none => 0 | some l => tgetD l.m n 0

def Thread.setMask (t : Thread) (n : Nat) (x : BitVec 128) : Thread :=
  { t with parity := t.parity.filter (· != .m n), lease := t.lease.map fun l => { l with m := tset l.m n x } }

/-- Write one result (R34). -/
def Thread.write (t : Thread) : RegWrite → Thread
  | .g n x => t.setGreg n x
  | .p n b => { t with pw := pwSetPred t.pw n b }
  | .v n x => t.setVreg n x
  | .m n x => t.setMask n x
  | .flags f => { t with pw := pwOrFlags t.pw f }
  | .pw x => { t with pw := x ||| 1, parity := t.parity.filter (· != .flags) }

/-- Write results in order. -/
def Thread.writes (t : Thread) (ws : List RegWrite) : Thread := ws.foldl Thread.write t

/-- The thread holds a lease that is not suspended by a gate call (R30, R212). -/
def Thread.hasLease (t : Thread) : Bool := t.lease.isSome && t.leaseGate == 0

/-- The number of vector registers the thread can name. -/
def Thread.leaseSize (t : Thread) : Nat :=
  if t.hasLease then (t.lease.map (fun l => 8 * l.windows)).getD 0 else 0

/-- Moored: holds a lease, is in a handler, or inside a gate call (spec/00 R10). -/
def Thread.moored (t : Thread) : Bool := t.lease.isSome || t.inHandler || !t.gates.isEmpty

/-- Every pending result is known. -/
def Thread.allKnown (t : Thread) : Bool := t.pend.all (fun p => p.writes.isSome)

/-- Write every known pending result. -/
def Thread.flush (t : Thread) : Thread :=
  { t.writes (t.pend.flatMap (fun p => p.writes.getD [])) with pend := [] }

/-- Start a marker span (R36). -/
def Thread.newSpan (t : Thread) : Thread := { t with span := [] }

/-- Ready and not stopped (spec/08 R246). -/
def Thread.isReady (t : Thread) : Bool := t.status == .ready && t.stops.isEmpty

/-- The YIELD order of a queue: a number later than any (R250). -/
def State.nextOrder (s : State) : Nat := s.nextId

/-- A parked thread whose results have all returned becomes ready in a new span (R35); YIELD takes it to the end of
its queue (R108). -/
def settle (s : State) (c slot : Nat) : State :=
  match s.thread? c slot with
  | none => s
  | some t =>
    match t.status with
    | .parked y =>
      if t.pend.isEmpty then
        (s.setThread c slot { t.newSpan with status := .ready, order := if y then s.nextId else t.order }).bump
      else s
    | _ => s

/-! ### Domains (spec/15 R324-R330) -/

/-- A dword of a memory. -/
def Memory.dword (m : Memory) (a : Nat) : Word := word (m.read a 8)

/-- A domain entry is valid (R326). -/
def domEntryOk (w0 w1 w2 w3 : Word) (rest : List Word) : Bool :=
  bit w0 63 && (bit w0 62 || !bit w0 61) && bits w0 60 50 == 0 && !bit w0 32 &&
  bits w1 63 55 == 0 && bits w1 31 22 == 0 && decide (bits w1 21 0 ≤ bits w1 54 32) && decide (bits w1 54 32 ≤ 4194304) &&
  bits w2 63 44 == 0 && bits w2 21 13 == 0 && decide (bits w2 43 22 + 32 * bits w2 12 0 ≤ 4194304) &&
  bits w2 43 22 % 32 == 0 && decide (bits w2 12 0 ≤ 4096) && bits w3 63 32 == 0 && rest.all (· == 0)

/-- Domain d as the core's local store gives it (R325, R326). -/
def readDom (k : CoreSt) (d : Nat) : DomCopy :=
  let dmax := bits k.dtab 43 32
  let doff := bits k.dtab 21 0
  let a := doff + 64 * d
  let w (i : Nat) : Word := k.lstore.dword (a + 8 * i)
  let inside := decide (d ≤ dmax) && decide (doff + 64 * (dmax + 1) ≤ 4194304)
  ⟨w 0, w 1, w 2, w 3, inside && domEntryOk (w 0) (w 1) (w 2) (w 3) [w 4, w 5, w 6, w 7]⟩

/-- The entry of a domain in force on a core: its copy, or the table where no copy was taken yet (R329). -/
def domOf (k : CoreSt) (d : Nat) : DomCopy := (tget k.doms d).getD (readDom k d)

/-- Take a copy of a domain entry, if the core has none. -/
def useDom (k : CoreSt) (d : Nat) : CoreSt :=
  match tget k.doms d with
  | some _ => k
  | none => { k with doms := tset k.doms d (readDom k d) }

def DomCopy.priv (e : DomCopy) : Bool := e.ok && bit e.w0 62
def DomCopy.system (e : DomCopy) : Bool := e.ok && bit e.w0 61
def DomCopy.hpc (e : DomCopy) : Nat := bits e.w0 49 32
def DomCopy.sup (e : DomCopy) : Nat := bits e.w0 31 0
def DomCopy.limit (e : DomCopy) : Nat := bits e.w1 54 32
def DomCopy.base (e : DomCopy) : Nat := bits e.w1 21 0
def DomCopy.gtoff (e : DomCopy) : Nat := bits e.w2 43 22
def DomCopy.gtn (e : DomCopy) : Nat := bits e.w2 12 0
def DomCopy.stask (e : DomCopy) : Nat := bits e.w3 31 0

/-- The entry of a thread's current domain on its core. -/
def State.domEntry (s : State) (c : Nat) (t : Thread) : DomCopy := domOf (s.core c) t.dom

/-- A range passes the local guard (R328). -/
def DomCopy.guard (e : DomCopy) (o n : Nat) : Bool := e.ok && decide (e.base ≤ o) && decide (o + n ≤ e.limit)

/-! ### Packets (spec/09 R269-R272) -/

/-- The core whose `sent` counts a packet (spec/16 R354): the origin of a request, or the core of an engine operation.
-/
def Packet.counted (p : Packet) : Option Nat :=
  match p.body with
  | .ferry f => if f.kind == 2 then none else some p.src
  | .access _ | .message _ _ _ _ none | .spawn _ _ _ | .tpost _ _ | .tbind _ _ | .istw _ _ | .start _ | .bdot _ _ _ _ _ =>
    some p.src
  | .engineRead t _ | .landed t _ _ _ => some t.core
  | _ => none

/-- A core counts a request it sends. -/
def State.countSent (s : State) (p : Packet) : State :=
  match p.counted with
  | none => s
  | some ep =>
    if epCube ep == s.logical && epIsCore ep then s.modCore (epCore ep) fun k => { k with sent := k.sent + 1 } else s

/-- A core counts a request admitted or performed at it (spec/16 R354). -/
def State.countRecv (s : State) (core : Nat) : State := s.modCore core fun k => { k with recv := k.recv + 1 }

/-- A core counts a request packet (spec/16 R354), but for one that a buoy has forwarded. -/
def State.countPacket (s : State) (p : Packet) (core : Nat) : State := if p.via.isSome then s else s.countRecv core

/-- Put a packet in the mesh, as the newest. -/
def State.send (s : State) (p : Packet) : State :=
  { (s.countSent p).bump with net := s.net ++ [{ p with id := s.nextId }] }

/-- The packet of a number. -/
def State.packet? (s : State) (id : Nat) : Option Packet := s.net.find? (fun p => p.id == id)

def State.dropPacket (s : State) (id : Nat) : State := { s with net := s.net.filter (fun p => p.id != id) }

def State.modPacket (s : State) (id : Nat) (f : Packet → Packet) : State :=
  { s with net := s.net.map (fun p => if p.id == id then f p else p) }

/-- A packet from one endpoint straight to another: no address to translate. -/
def directPacket (s : State) (src dst urg uid slot : Nat) (body : Body) : Packet :=
  { id := 0, uid := uid, src := src, slot := slot, dst := dst, ordered := true, urg := urg, addr := 0, dom := 0,
    priv := false, key := 0, stage := if epCube dst == s.logical then .home else .gateway, body := body }

/-- The words of a fault message (spec/15 R331). -/
def faultWords (origin kind cause detail dom task : Nat) (addr w3 : Word) : List Word :=
  [word (kind * 2 ^ 56 + cause * 2 ^ 48 + detail * 2 ^ 32 + origin), addr, word (dom * 2 ^ 32 + task), w3]

/-- The task number of a message that is for a steward's firmware: no task has it. -/
def firmwareTask : Nat := 2 ^ 32

/-- The packet of a fault message, under the owner tag of the core that sends it, core 1,024 for a front end (R344). -/
def faultPacket (s : State) (origin dst : Nat) (ws : List Word) (task : Nat) : Packet :=
  { directPacket s origin dst 2 0 0 (.faultMsg ws dst task) with
    key := (s.core (if epIsCore origin then epCore origin else 1024)).owner }

/-- A fault message to a steward core (R331), whose firmware takes it. -/
def State.faultToSteward (s : State) (steward origin : Nat) (ws : List Word) : State :=
  s.send (faultPacket s origin (s.ep steward) ws firmwareTask)

/-- A fault message (R331) to the supervisor of a domain entry; where the entry is invalid, to steward core 1,024 with
kind + 0x80. -/
def State.faultMessage (s : State) (e : DomCopy) (origin kind cause detail dom task : Nat) (addr w3 : Word) : State :=
  if e.ok then
    s.send (faultPacket s origin e.sup (faultWords origin kind cause detail dom task addr w3) e.stask)
  else s.faultToSteward 1024 origin (faultWords origin (kind + 0x80) cause detail dom task addr w3)

/-! ### Traps (spec/07 R215-R219) -/

def cILLOP : Nat := 0x01
def cPRIV : Nat := 0x02
def cHAZARD : Nat := 0x03
def cALIGN : Nat := 0x04
def cLGUARD : Nat := 0x05
def cXLATE : Nat := 0x06
def cPERM : Nat := 0x07
def cOWNER : Nat := 0x08
def cMOORED : Nat := 0x09
def cRLOCK : Nat := 0x0A
def cPOISON : Nat := 0x0B
def cFETIME : Nat := 0x0C
def cMWTIME : Nat := 0x0D
def cBOVER : Nat := 0x0E
def cGATE : Nat := 0x0F
def cBADRET : Nat := 0x10
def cTRAP : Nat := 0x11

/-- xcause of a trap (R216). -/
def xcauseOf (t : TrapRec) : Word :=
  word (t.detail * 2 ^ 16 + flagBit t.remote 15 + flagBit t.more 14 + t.cause)

/-- The steward core of a core's die. -/
def stewardOf (core : Nat) : Nat := if core < 1024 then 1024 + core / 256 else core

/-- The thread stops with a double-fault record for the steward of its die (R218, R330). The thread keeps its context.
-/
def stopThread (s : State) (c slot : Nat) (t : Thread) (cause detail : Nat) : State :=
  { s.setThread c slot { t with status := .stopped } with
    dfault := s.dfault ++ [⟨stewardOf c, s.ep c, slot, t.pc, cause, detail⟩] }

/-- Enter the handler with every pending result written (R215): xpc (its bits 17:1, R220), xpw, xcause and xaddr are set, PP and FSEL are
cleared, the thread is in the handler at its domain's handler pc, and a new marker span begins. -/
def enterHandler (e : DomCopy) (t : Thread) (x : TrapRec) : Thread :=
  { t with
    xpc := word (x.xpc % 0x40000 / 2 * 2), xpw := t.pw, xcause := xcauseOf x, xaddr := x.xaddr,
    pw := clearPP t.pw, inHandler := true, entryDepth := t.gates.length, pc := e.hpc, span := [], status := .ready, rs := false,
    atHome := none,
    frec := if x.record then 0 else t.frec }

/-- Take a trap on a thread (R215, R218, R330): a double fault stops it; an invalid domain stops it; else, once every
pending result is known, the results are written and the handler is entered; until then the thread waits. -/
def takeTrap (s : State) (c slot : Nat) (x : TrapRec) : State :=
  match s.thread? c slot with
  | none => s
  | some t =>
    let e := s.domEntry c t
    if t.inHandler then stopThread s c slot t x.cause x.detail
    else if !e.ok then stopThread s c slot t cPERM 5
    else if t.allKnown then s.setThread c slot (enterHandler e t.flush x)
    else s.setThread c slot { t with status := .trapWait x }

/-- TRET leaves the handler (R219): the predicate word and the pc come back and a new marker span begins. -/
def leaveHandler (t : Thread) : Thread :=
  { t with pw := t.xpw ||| 1, pc := bits t.xpc 17 0, inHandler := false, span := [], status := .ready }

end Sys2Proof.Machine
end

