-- ==== Sys2Proof/Machine/VertOps.lean ====
section
/-! DEFINITION. Events for firmware and the commander, error logs, via columns (spec/19 R381; spec/20 R413-R416; spec/21
R440). -/

namespace Sys2Proof.Machine

/-! ### Events (spec/19 R381, spec/21 R440) -/

/-- The die of a core. -/
def dieOf (core : Nat) : Nat := if core < 1024 then core / 256 else core - 1024

/-- Queue an event for the commander: 1 link event, 2 error log record, 3 fault message, 4 double fault; beyond 1,024 it is
counted and dropped (R440). -/
def commanderEvent (s : State) (kind : Nat) (rec' : List Word) : State :=
  if s.events.length < 1024 then
    { s with events := s.events ++ [(word kind :: rec' ++ List.replicate 6 (0 : Word)).take 7] }
  else { s with firm := { s.firm with drops := s.firm.drops + 1 } }

/-- A link event goes to the steward of die 0, or to the commander (R381). Its words are the model's (log 36). -/
def linkEvent (s : State) (what : Nat) (a b : Word) : State :=
  let ws := [word what, a, b]
  if bit s.splitc 2 then { s with faultLog := s.faultLog ++ [(1024, ws)] } else commanderEvent s 1 ws

/-! ### Error logs (R413) -/

def State.log (s : State) (die : Nat) : ErrLog := tgetD s.elog die {}

/-- Append a record to a die's ring, or count it (R413); in the host-assisted mode the commander is sent it too. -/
def logError (s : State) (die src : Nat) (u : Bool) (core addr : Nat) : State :=
  let r : List Word :=
    [word (src * 2 ^ 56 + flagBit u 55 + core * 2 ^ 44), word addr, word (s.core (1024 + die)).cyc, 0]
  let g := s.log die
  let g1 := if g.recs.length < 256 then { g with recs := g.recs ++ [r] } else { g with dropped := g.dropped + 1 }
  let s1 := { s with elog := tset s.elog die g1 }
  if bit s.splitc 6 then s1 else commanderEvent s1 2 r

/-- The oldest record of a ring is freed: its head index goes on (R413). -/
def freeRecord (s : State) (die : Nat) : State :=
  let g := s.log die
  { s with elog := tset s.elog die { g with recs := g.recs.drop 1, head := g.head + 1 } }

/-- One queued event leaves for the commander, as a transaction of op 4 (spec/21 R440). -/
def sendEvent (s : State) : State :=
  match s.events with
  | [] => s
  | e :: rest => if s.ucieUp then { s with events := rest, ucieOut := s.ucieOut ++ [(word (4 * 2 ^ 60), e)] } else s

/-! ### Via columns (spec/06 R149, R414-R416) -/

/-- The via column of a physical address: stack × 16 + bank. -/
def columnOf (pa : Nat) : Nat := pa / 2 ^ 11 % 8 * 16 + pa / 2 ^ 18 % 16

/-- The column of an address has failed (R416). -/
def failedColumn (s : State) (pa : Nat) : Bool := (tgetD s.vert (columnOf pa) {}).state == 2

end Sys2Proof.Machine
end

