-- ==== Sys2Proof/Machine/MemOps.lean ====
section
/-! DEFINITION. Memory: the address map (spec/09 R256-R262), the local window (spec/04 R104), range locks (spec/06
R146), home caches and DRAM under keys (spec/09 R265, spec/15 R343), the accesses a home performs (spec/07 R192,
R193), and translation (spec/15 R333-R338). -/

namespace Sys2Proof.Machine

/-! ### Addresses -/

/-- The regions of a cube's partition (R257): core and byte, or offset. -/
inductive Region where
  | dram
  | lstore (core o : Nat)
  | bstore (core o : Nat)
  | config (o : Nat)
  | reserved
  deriving DecidableEq, Repr

/-- The region of an offset ea[41:0] (R257). The part of a B-store slot from 0x20_0000 on is reserved. -/
def regionOf (off : Nat) : Region :=
  if off < 0x3F000000000 then .dram
  else if off < 0x3F000000000 + 1028 * 0x400000 then
    .lstore ((off - 0x3F000000000) / 0x400000) ((off - 0x3F000000000) % 0x400000)
  else if 0x3F400000000 ≤ off && off < 0x3F500000000 then
    let o := (off - 0x3F400000000) % 0x400000
    if o < 0x200000 then .bstore ((off - 0x3F400000000) / 0x400000) o else .reserved
  else if 0x3FC00000000 ≤ off then .config (off - 0x3FC00000000)
  else .reserved

/-- The logical cube and the offset of a global address (R256). -/
def eaCube (ea : Word) : Nat := bits ea 55 42
def eaOff (ea : Word) : Nat := bits ea 41 0

/-- An address of the local window (R256). -/
def isWindow (ea : Word) : Bool := bits ea 63 52 == 0x00F

/-- The global address of a byte of a core's local store (R257). -/
def localGlobal (cube core o : Nat) : Word := word (cube * 2 ^ 42 + 0x3F000000000 + core * 0x400000 + o)

/-- slice_of (R260). -/
def sliceOf (a : Word) : Nat :=
  bits a 19 16 ^^^ bits a 23 20 ^^^ bits a 27 24 ^^^ bits a 31 28 ^^^ bits a 35 32 ^^^ bits a 39 36 ^^^ bits a 41 40

/-- The endpoint number that stands for a translation slice which has not yet found the home (log 108). -/
def slicePort : Nat := 2000

/-- A packet that goes to the home of a global address (R243, R259): straight to the core, or to the slices of its
cube. -/
def addressed (s : State) (core slot uid urg : Nat) (ordered : Bool) (addr : Word) (dom : Nat) (priv : Bool)
    (body : Body) : Packet :=
  let cube := eaCube addr
  let r := regionOf (eaOff addr)
  let home := match r with
    | .lstore h _ => h
    | .bstore h _ => h
    | .config _ => 1024
    | _ => slicePort
  { id := 0, uid := uid, src := s.ep core, slot := slot, dst := cube * 2048 + home, ordered := ordered, urg := urg,
    addr := addr, dom := dom, priv := priv, key := (s.core core).owner,
    stage := if cube != s.logical then .gateway else if home == slicePort then .slice else .home, body := body }

/-- The cluster of a compute core (spec/08 R232). -/
def clusterOf (core : Nat) : Nat := core / 256 * 8 + core % 256 / 32

/-! ### Range locks -/

/-- Two spans of one store overlap. -/
def Span.overlaps (x y : Span) : Bool :=
  x.store == y.store && decide (x.lo < y.lo + y.len) && decide (y.lo < x.lo + x.len)

/-- A thread access (or a message) conflicts with an entry (R146): any access with a write entry, a write with a read
entry. -/
def threadConflict (k : CoreSt) (write : Bool) (sp : Span) : Bool :=
  k.locks.any fun l => (l.write || write) && l.spans.any (fun x => x.overlaps sp)

/-- An engine registration waits for an entry of another owner (R146). -/
def engineConflict (k : CoreSt) (owner : LockOwner) (write : Bool) (sps : List Span) : Bool :=
  k.locks.any fun l => l.owner != owner && (l.write || write) && l.spans.any (fun x => sps.any (fun y => x.overlaps y))

/-- Register an entry: none where the table is full or a conflict waits (R146, R147), or where the core's seal holds a
registration of its stores (spec/16 R364). -/
def registerLock (k : CoreSt) (l : RangeLock) : Option CoreSt :=
  if l.spans.isEmpty then some k
  else if k.sealed && l.spans.any (fun x => x.store < 2) then none
  else if 32 ≤ k.locks.length || engineConflict k l.owner l.write l.spans then none
  else some { k with locks := k.locks ++ [l] }

/-- Release the entries of an owner, of one mode or of both. -/
def releaseLocks (k : CoreSt) (owner : LockOwner) (mode : Option Bool) : CoreSt :=
  { k with locks := k.locks.filter fun l => !(l.owner == owner && (mode == none || mode == some l.write)) }

/-- Release what an operation still holds anywhere. -/
def releaseEverywhere (s : State) (owner : LockOwner) : State :=
  { s with cores := s.cores.map fun c => (c.1, releaseLocks c.2 owner none) }

/-- A piece has been read, or has landed, at a home: an entry with nothing left is released (R147). -/
def pieceDone (k : CoreSt) (owner : LockOwner) (write : Bool) (p : Piece) : CoreSt :=
  let ls := k.locks.map fun l =>
    if l.owner == owner && l.write == write then { l with pieces := l.pieces.filter (· != p) } else l
  { k with locks := ls.filter fun l => !(l.owner == owner && l.write == write && l.pieces.isEmpty) }

/-- A piece will not be read: no entry waits for it. -/
def pieceDropped (s : State) (owner : LockOwner) (p : Piece) : State :=
  { s with cores := s.cores.map fun c => (c.1, pieceDone c.2 owner false p) }

/-- A source stream ends (spec/06 R171): the locks of a strip that is not asked for, or of its pieces that have failed, are
released; those of a read under way are released as it ends. -/
def endStream (s : State) (st : Stream) : State :=
  if st.asked then st.stuck.foldl (fun s p => pieceDropped s (.stream st.op) p) s else releaseEverywhere s (.stream st.op)

/-- The streams of a lease end with it. -/
def endStreams (s : State) (l : Option Lease) : State :=
  match l with
  | none => s
  | some l => (l.streams.filter fun e => !e.2.pat.sink && !e.2.coming.isEmpty).foldl (fun s e => endStream s e.2) s

/-! ### The local window (R104) -/

/-- The window, alignment and guard checks of R104, in its order: the local-store offset, or the trap. -/
def windowCheck (e : DomCopy) (ea : Word) (n align : Nat) : Except TrapRec Nat :=
  let o := bits ea 51 0
  if !isWindow ea then .error { cause := cLGUARD, xaddr := ea }
  else if o % align != 0 then .error { cause := cALIGN, xaddr := ea }
  else if !e.guard o n then .error { cause := cLGUARD, xaddr := ea }
  else .ok o

/-- The lowest poisoned word of a range of a store of a core. -/
def poisonIn (k : CoreSt) (store o n : Nat) : Option Nat :=
  (List.range (n / 8 + 2)).find? fun i => k.poison.contains (store, o / 8 + i) && decide ((o / 8 + i) * 8 < o + n)

/-- A load from the local window after its checks (R104, R136): range lock, then poison. -/
def windowLoad (k : CoreSt) (e : DomCopy) (ea : Word) (n align : Nat) : Except TrapRec Nat :=
  match windowCheck e ea n align with
  | .error t => .error t
  | .ok o =>
    if threadConflict k false ⟨0, o, n⟩ then .error { cause := cRLOCK, xaddr := ea }
    else match poisonIn k 0 o n with
      | some i => .error { cause := cPOISON, xaddr := word ((o / 8 + i) * 8) ||| 0x00F0000000000000 }
      | none => .ok (k.lstore.read o n)

/-- Whole words of a range become clean; a part of a word leaves its poison (R105, R138). -/
def cleanPoison (k : CoreSt) (store o n : Nat) : CoreSt :=
  { k with poison := k.poison.filter fun p => !(p.1 == store && decide (o ≤ p.2 * 8) && decide (p.2 * 8 + 8 ≤ o + n)) }

/-- A store to the local window after its checks: range lock, then the bytes (R104). -/
def windowStore (k : CoreSt) (e : DomCopy) (ea : Word) (n align x : Nat) : Except TrapRec CoreSt :=
  match windowCheck e ea n align with
  | .error t => .error t
  | .ok o =>
    if threadConflict k true ⟨0, o, n⟩ then .error { cause := cRLOCK, xaddr := ea }
    else .ok { cleanPoison k 0 o n with lstore := k.lstore.write o n x }

/-! ### Keys and space entries (spec/15 R333, R341, R342) -/

/-- The key record of a slot, if one is installed. -/
def State.key? (s : State) (slot : Nat) : Option KeyVal := tget s.keys slot

/-- The 256 bits of a record. -/
def KeyVal.bits : KeyVal → BitVec 256
  | .boot => Config.bootKey
  | .given k => k

/-- Space entry of a domain from the table (R333). -/
def State.spaceEntry (s : State) (dom : Nat) : SpaceCopy :=
  ⟨tgetD s.space (4 * dom) 0, tgetD s.space (4 * dom + 1) 0, tgetD s.space (4 * dom + 2) 0⟩

/-- The space entry a unit (a home core, or slice n as 2,000 + n) uses: its copy, else the table (R333). -/
def State.spaceAt (s : State) (unit dom : Nat) : SpaceCopy :=
  (tget s.spaceHeld (unit * 4096 + dom)).getD (s.spaceEntry dom)

/-- Keep a copy at a unit. -/
def State.useSpace (s : State) (unit dom : Nat) : State :=
  match tget s.spaceHeld (unit * 4096 + dom) with
  | some _ => s
  | none => { s with spaceHeld := tset s.spaceHeld (unit * 4096 + dom) (s.spaceEntry dom) }

/-- The domain holds a key slot (R341). -/
def SpaceCopy.holds (e : SpaceCopy) (key : Nat) : Bool := if key < 64 then bit e.keys0 key else bit e.keys1 (key - 64)

/-- The domain holds the owner tag of a home core and its slot is not empty (R341, R342). -/
def ownerOk (s : State) (home dom : Nat) : Bool :=
  let key := (s.core home).owner
  (s.spaceAt home dom).holds key && (s.key? key).isSome

/-! ### Buoys and redirects (spec/16 R365, R366) -/

/-- The buoy of a core that claims the packets of a domain (R365): the lowest slot whose key is the core's owner tag, or is held
by the domain while the tag is not. -/
def buoyOf (s : State) (v dom : Nat) : Option (Nat × Buoy) :=
  let sp := s.spaceAt v dom
  let tag := (s.core v).owner
  (s.core v).buoys.find? fun b => b.2.key == tag || (sp.holds b.2.key && !sp.holds tag)


/-- A packet that a buoy may claim (spec/16 R365): for a local store or a B-store, or SEND, SPAWN and TPOST to the
endpoint. -/
def Packet.claimable (p : Packet) : Bool :=
  match p.body with
  | .access _ | .request _ | .landed _ _ _ _ | .engineRead _ _ | .ferry _ =>
    (match regionOf (eaOff p.addr) with | .lstore _ _ | .bstore _ _ => true | _ => false) && p.stage != .slice
  | .message _ _ _ _ _ | .spawn _ _ _ | .tpost _ _ => true
  | _ => false

/-- The redirect entry of a core for a packet it sends (R366): its domain holds the key. -/
def redirectOf (s : State) (p : Packet) : Option Redirect :=
  if p.claimable && epCube p.src == s.logical && epIsCore p.src then
    (s.core (epCore p.src)).redirects.find? fun r => r.v == p.dst && (s.spaceEntry p.dom).holds r.key
  else none

/-- Send a packet by the source's redirect table: to the new place, or held at the source until the fence of its class
is acknowledged (R366). -/
def State.post (s : State) (p : Packet) : State :=
  match redirectOf s p with
  | none => s.send p
  | some r =>
    let s1 := s.modCore (epCore p.src) fun k => { k with redirects := k.redirects.filter (· != r) ++ [r] }
    if p.ordered && r.fences.contains p.urg then s1.send { p with stage := .waiting }
    else s1.send { p with dst := r.t, stage := if epCube r.t == s.logical then .home else .gateway }

/-! ### DRAM and home caches -/

/-- The poison of the four words of a line. -/
def linePoison (bad : List Nat) (line : Nat) : BitVec 4 :=
  BitVec.ofNat 4 (flagBit (bad.contains (4 * line)) 0 + flagBit (bad.contains (4 * line + 1)) 1 +
    flagBit (bad.contains (4 * line + 2)) 2 + flagBit (bad.contains (4 * line + 3)) 3)

/-- Read a line from memory under a key slot (R343): as written, where the record is the one it was written under;
otherwise the decryption of its ciphertext. In a failed column every word is poisoned (spec/20 R416). -/
def State.dramLine (s : State) (line key : Nat) : BitVec 256 × BitVec 4 :=
  let plain := BitVec.ofNat 256 (s.dram.read (32 * line) 32)
  let was := tgetD s.dramKey line .boot
  let now := (s.key? key).getD .boot
  (if was == now then plain else xtsLine true now.bits line (xtsLine false was.bits line plain),
    if failedColumn s (32 * line) then 0xF else linePoison s.dramBad line)

/-- An error of a memory line is logged, by the core that observes it (spec/20 R413; log 50). -/
def logDram (s : State) (u : Bool) (line : Nat) : State :=
  let c := Config.lineCore line % 1028
  logError s (dieOf c) 1 u c (32 * line)

/-- Write a line to memory under a key slot (R343); in a failed column it is discarded and logged (spec/20 R416). -/
def State.setDramLine (s : State) (line key : Nat) (data : BitVec 256) (bad : BitVec 4) : State :=
  let now := (s.key? key).getD .boot
  if failedColumn s (32 * line) then logDram s true line
  else { s with
    dram := s.dram.write (32 * line) 32 data.toNat,
    dramKey := if now == .boot then tdel s.dramKey line else tset s.dramKey line now,
    dramBad := s.dramBad.filter (fun w => w / 4 != line) ++
      ((List.range 4).filter (fun i => bit bad i)).map (fun i => 4 * line + i) }

/-- Replace bytes of a line: `n` bytes from byte `o`. -/
def patchLine (data : BitVec 256) (o n x : Nat) : BitVec 256 :=
  let mask := (2 ^ (8 * n) - 1) * 2 ^ (8 * o)
  BitVec.ofNat 256 ((data.toNat &&& (2 ^ 256 - 1 - mask)) ||| ((x % 2 ^ (8 * n)) * 2 ^ (8 * o)))

/-- Dwords as one number, the first lowest. -/
def wordsNum : List Word → Nat
  | [] => 0
  | w :: ws => w.toNat + 2 ^ 64 * wordsNum ws

/-- Bytes of a line. -/
def lineBytes (data : BitVec 256) (o n : Nat) : Nat := data.toNat / 2 ^ (8 * o) % 2 ^ (8 * n)

/-- The words of a line that a write of `n` bytes from `o` covers whole become clean. -/
def patchPoison (bad : BitVec 4) (o n : Nat) : BitVec 4 :=
  BitVec.ofNat 4 (((List.range 4).map fun i =>
    flagBit (bit bad i && !(decide (o ≤ 8 * i) && decide (8 * i + 8 ≤ o + n))) i).foldl (· + ·) 0)

/-- A line held by a core's cache. -/
def CoreSt.cached (k : CoreSt) (line : Nat) : Option CacheLine := k.cache.find? (fun l => l.line == line)

/-- Write a dirty line back under the key it was filled under (R265). -/
def writeBack (s : State) (l : CacheLine) : State :=
  if l.dirty then s.setDramLine l.line l.key l.data l.poison else s

/-- Put a line in a core's cache as the most recently used of its set; the least recently used line of a full set is
evicted (R265; the set index is log 11). -/
def cachePut (s : State) (core : Nat) (l : CacheLine) : State :=
  let k := s.core core
  let others := k.cache.filter (fun x => x.line != l.line)
  let inSet := others.filter (fun x => x.line % 512 == l.line % 512)
  if inSet.length < 16 then s.setCore core { k with cache := l :: others }
  else match inSet.getLast? with
    | none => s.setCore core { k with cache := l :: others }
    | some v => (writeBack s v).setCore core { k with cache := l :: others.filter (fun x => x.line != v.line) }

/-- What a read of a line at its home returns, with no effect on the cache. -/
def peekLine (s : State) (core line key : Nat) : BitVec 256 × BitVec 4 :=
  match (s.core core).cached line with
  | some l => (l.data, l.poison)
  | none => s.dramLine line key

/-- A read of a line at its home (R265): a hit makes it most recently used; a miss allocates unless nt. -/
def homeReadLine (s : State) (core line key : Nat) (nt : Bool) : (BitVec 256 × BitVec 4) × State :=
  match (s.core core).cached line with
  | some l => ((l.data, l.poison), cachePut s core l)
  | none =>
    let d := s.dramLine line key
    (d, if nt then s else cachePut s core ⟨line, key, d.1, false, d.2⟩)

/-- A write of `n` bytes at byte `o` of a line at its home (R265). -/
def homeWriteLine (s : State) (core line key : Nat) (nt : Bool) (o n x : Nat) : State :=
  match (s.core core).cached line with
  | some l => cachePut s core { l with data := patchLine l.data o n x, dirty := true, poison := patchPoison l.poison o n }
  | none =>
    let d := if n == 32 then (0, 0) else s.dramLine line key
    let l : CacheLine := ⟨line, key, patchLine d.1 o n x, true, patchPoison d.2 o n⟩
    if nt then s.setDramLine line key l.data l.poison else cachePut s core l

/-- Poison words of a line at its home: an engine moves poison with its data (R90). -/
def homePoison (s : State) (core line key : Nat) (mask : BitVec 4) : State :=
  if mask == 0 then s
  else match (s.core core).cached line with
    | some l => cachePut s core { l with poison := l.poison ||| mask, dirty := true }
    | none =>
      let d := s.dramLine line key
      s.setDramLine line key d.1 (d.2 ||| mask)

/-- Write back a core's dirty copy of a line and keep it clean. -/
def cleanLine (s : State) (core line : Nat) : State :=
  match (s.core core).cached line with
  | none => s
  | some l =>
    (writeBack s l).modCore core fun k =>
      { k with cache := k.cache.map fun x => if x.line == line then { x with dirty := false } else x }

/-- Drop a core's copy of a line, written back first or not. -/
def dropLine (s : State) (core line : Nat) (wb : Bool) : State :=
  let s1 := if wb then cleanLine s core line else s
  s1.modCore core fun k => { k with cache := k.cache.filter fun x => x.line != line }

/-! ### Homes of lines (R259-R263) -/

/-- A dword of the subset table as boot writes it (R262, R423). -/
def bootSubset (i : Nat) : Word :=
  if i == 0 then 1024
  else if i ≤ 256 then word ((List.range 4).foldl (fun n j => n + (4 * (i - 1) + j) * 2 ^ (16 * j)) 0) else 0

/-- Dword i of subset entry e (R423). -/
def State.subsetWord (s : State) (e i : Nat) : Word := (tget s.subsets (512 * e + i)).getD (bootSubset i)

/-- Members of a subset (R262, R423). -/
def State.subset (s : State) (e : Nat) : List Nat :=
  if s.subsets.any (fun w => w.1 / 512 == e) then
    (List.range (bits (s.subsetWord e 0) 10 0)).map fun i => bits (s.subsetWord e (1 + i / 4)) (16 * (i % 4) + 10) (16 * (i % 4))
  else List.range 1024

/-- A number stands again later in a list. -/
def hasRepeat : List Nat → Bool
  | [] => false
  | x :: rest => rest.contains x || hasRepeat rest

/-- A subset entry that fails every spread access (R423). -/
def State.subsetBad (s : State) (e : Nat) : Bool :=
  s.subsets.any (fun w => w.1 / 512 == e) &&
    (let ms := s.subset e
     ms.isEmpty || ms.any (fun m => decide (1024 ≤ m)) || hasRepeat ms)

/-- The home of a spread line (R262). -/
def spreadHome (s : State) (sub pa : Nat) : Nat :=
  let pl := pa / 32
  let h := (pa / 2 ^ 16 * 0x9E3779B1) % 2 ^ 32 / 2 ^ 25 * 8
  let ms := s.subset sub
  ms.getD ((pl + h) % max 1 ms.length) 0

/-- The home of a line by placement mode and argument; first touch is resolved before (R261). -/
def placement (s : State) (pa mode arg : Nat) : Nat := if mode == 1 then arg else spreadHome s (arg % 16) pa

/-! ### Translation (R334-R338) -/

/-- Read of a table entry of 16 bytes at its line's home, under key slot 0, with no effect (R337). -/
def peekEntry (s : State) (pa : Nat) : Word × Word :=
  let d := (peekLine s (spreadHome s 15 pa) (pa / 32) 0).1
  (word (lineBytes d (pa % 32) 8), word (lineBytes d (pa % 32 + 8) 8))

/-- Index of an offset at a level (R334). -/
def walkIndex (off level : Nat) : Nat :=
  match level with
  | 1 => off / 2 ^ 30
  | 2 => off / 2 ^ 21 % 512
  | _ => off / 2 ^ 16 % 32

/-- log2 of the page size of a leaf at a level (R334). -/
def pageBits (level : Nat) : Nat := match level with | 1 => 30 | 2 => 21 | _ => 16

/-- What an entry says at a level (R335, R336, R338): invalid or malformed, a table, a leaf. -/
inductive EntryKind where
  | bad
  | table (pa : Nat)
  | leaf
  deriving DecidableEq, Repr

/-- Read an entry (R335, R336). -/
def entryKind (level : Nat) (d0 d1 : Word) : EntryKind :=
  if !bit d0 63 then .bad
  else if bit d0 62 then
    let frame := bits d0 22 0
    let misaligned := match level with | 1 => frame % 2 ^ 14 != 0 | 2 => frame % 32 != 0 | _ => false
    if bits d0 36 23 != 0 || misaligned || (bit d0 57 && frame != 0) || (!bit d0 57 && d1 != 0) then .bad
    else .leaf
  else if bits d0 61 30 != 0 || d1 != 0 || level == 3 then .bad
  else
    let pa := bits d0 29 0 * 512
    if level == 1 && pa % 8192 != 0 then .bad else .table pa

/-- A leaf found: its level, its dwords and where its entry lies. -/
structure Leaf where
  level : Nat
  d0    : Word
  d1    : Word
  at?   : Nat
  deriving DecidableEq, Repr

/-- The walk of R338 from a table on, with no effect; none where it fails. -/
def walkFrom (s : State) (off : Nat) : Nat → Nat → Nat → Option Leaf
  | 0, _, _ => none
  | fuel + 1, level, t =>
    let pa := t + 16 * walkIndex off level
    let e := peekEntry s pa
    match entryKind level e.1 e.2 with
    | .bad => none
    | .leaf => some ⟨level, e.1, e.2, pa⟩
    | .table t' => walkFrom s off fuel (level + 1) t'

/-- The leaf a slice holds for a domain and offset (R339). -/
def heldLeaf (s : State) (slice dom off : Nat) : Option LeafCopy :=
  s.leaves.find? fun l => l.slice == slice && l.dom == dom && l.page == off / 2 ^ pageBits l.level

/-- The checks of R338 on a leaf: the translation, or the failure. `r` and `w` say what the access needs; `write` that it
writes. -/
def leafCheck (s : State) (slice dom : Nat) (priv : Bool) (off : Nat) (l : Leaf) (r w : Bool) : Except TrapRec Xl :=
  let mode := bits l.d0 49 48
  let arg := bits l.d0 47 37
  let key := bits l.d0 56 50
  let argBad := (mode == 0 && arg < 16 && s.subsetBad arg) || mode == 3 || (mode == 1 && 1028 ≤ arg) ||
    (mode == 0 && 16 ≤ arg) || (mode == 2 && arg != 0)
  if argBad then .error { cause := cXLATE, detail := 1, remote := true }
  else if bit l.d0 57 && w then .error { cause := cXLATE, detail := 2, remote := true }
  else if (!bit l.d0 58 && !priv) || (r && !bit l.d0 61) || (w && !bit l.d0 60) then
    .error { cause := cPERM, detail := 1, remote := true }
  else if !(s.spaceAt (2000 + slice) dom).holds key || (s.key? key).isNone then
    .error { cause := cOWNER, remote := true }
  else .ok ⟨bits l.d0 22 0 * 65536 + off % 2 ^ pageBits l.level, key, if bit l.d0 57 then some l.d1 else none,
    mode == 1, bit l.d0 60⟩

/-- The leaf a slice would use now, held or walked to, with no effect. -/
def leafFor (s : State) (slice dom off : Nat) : Option Leaf :=
  let sp := s.spaceAt (2000 + slice) dom
  if !bit sp.w0 63 then none
  else match heldLeaf s slice dom off with
    | some l => some ⟨l.level, l.d0, l.d1, l.entry⟩
    | none => walkFrom s off 3 1 (bits sp.w0 22 0 * 65536)

/-- The home a leaf gives an address for an access from a source core (R261, R263). -/
def leafHome (s : State) (l : Leaf) (x : Xl) (src : Nat) : Nat :=
  if bits l.d0 49 48 == 2 then src else placement s x.pa (bits l.d0 49 48) (bits l.d0 47 37)

/-- Translation and home of a DRAM address of this cube in one step, with no effect: what engines register locks by
(R147), and what the ordering of packets consults. -/
def translateNow (s : State) (a : Word) (dom : Nat) (priv r w : Bool) (src : Nat) : Except TrapRec (Xl × Nat) :=
  let slice := sliceOf a
  let off := eaOff a
  match leafFor s slice dom off with
  | none => .error { cause := cXLATE, detail := 1, remote := true, xaddr := a }
  | some l =>
    match leafCheck s slice dom priv off l r w with
    | .error t => .error { t with xaddr := a }
    | .ok x => .ok (x, leafHome s l x src)

/-- Keep a leaf at a slice in place of an earlier copy of it; a slice holds at most 4,096 (R339), and which one a full slice
drops the spec does not say (log 28). -/
def keepLeaf (s : State) (l : LeafCopy) : State :=
  let rest := s.leaves.filter fun x => !(x.slice == l.slice && x.dom == l.dom && x.page == l.page && x.level == l.level)
  let own := rest.filter fun x => x.slice == l.slice
  let kept := if own.length < 4096 then rest
    else match own.head? with | none => rest | some v => rest.filter (· != v)
  { s with leaves := kept ++ [l] }

/-- A first-touch leaf becomes pinned at its home by a compare-and-swap of its entry (R263, R337); where another slice has
written the entry first, the entry as it is found. -/
def pinLeaf (s : State) (l : Leaf) (core : Nat) : Leaf × State :=
  let e := peekEntry s l.at?
  if e.1 == l.d0 then
    let d0 : Word := (l.d0 &&& ~~~ (0x0003_FFE0_0000_0000 : Word)) ||| word (2 ^ 48 + core * 2 ^ 37)
    ({ l with d0 := d0 },
     homeWriteLine s (spreadHome s 15 l.at?) (l.at? / 32) 0 false (l.at? % 32) 8 d0.toNat)
  else ({ l with d0 := e.1, d1 := e.2 }, s)

/-- A slice has found a leaf, which it keeps (R338): the checks, a first touch by a core, and the translation with its home;
or the failure. -/
def resolveLeaf (s : State) (slice dom : Nat) (priv : Bool) (off : Nat) (l : Leaf) (r w : Bool) (src : Nat) :
    Except TrapRec (Xl × Nat) × State :=
  let keep (s : State) (l : Leaf) : State :=
    let x : LeafCopy := ⟨slice, dom, off / 2 ^ pageBits l.level, l.level, l.d0, l.d1, l.at?⟩
    if s.leaves.contains x then s else keepLeaf s x
  match leafCheck s slice dom priv off l r w with
  | .error t => (.error t, keep s l)
  | .ok x =>
    if bits l.d0 49 48 != 2 then (.ok (x, leafHome s l x src), keep s l)
    else
      let y := pinLeaf s l src
      if entryKind y.1.level y.1.d0 y.1.d1 != .leaf then (.error { cause := cXLATE, detail := 1, remote := true }, y.2)
      else match leafCheck y.2 slice dom priv off y.1 r w with
        | .error t => (.error t, keep y.2 y.1)
        | .ok x' => (.ok (x', leafHome y.2 y.1 x' src), keep y.2 y.1)

/-- Translation and home of a DRAM address of this cube in one step, with what the slice comes to hold and the first touch of
the page (R263, R338): what a core's own accesses, row commands and context areas go through. -/
def translateUse (s : State) (a : Word) (dom : Nat) (priv r w : Bool) (src : Nat) : Except TrapRec (Xl × Nat) × State :=
  let slice := sliceOf a
  let s1 := s.useSpace (2000 + slice) dom
  match leafFor s1 slice dom (eaOff a) with
  | none => (.error { cause := cXLATE, detail := 1, remote := true, xaddr := a }, s1)
  | some l =>
    let y := resolveLeaf s1 slice dom priv (eaOff a) l r w src
    (match y.1 with | .error t => .error { t with xaddr := a } | .ok v => .ok v, y.2)

/-- The level of a page that holds a physical line for reads of elided pages. -/
def elidedBytes (p : Word) (pa n : Nat) : Nat := p.toNat / 2 ^ (8 * (pa % 8)) % 2 ^ (8 * n)

/-! ### What a home performs -/

/-- f(mem, v) of an atomic (R192, R193); the comparand serves CAS. -/
def atomValue (op : AccOp) (et n : Nat) (mem v cmp : Nat) : Nat :=
  let m := 2 ^ (8 * n)
  let sg (x : Nat) : Int := if 2 ^ (8 * n - 1) ≤ x then (x : Int) - (m : Nat) else (x : Int)
  let x := v % m
  match op with
  | .aadd => (mem + x) % m
  | .aand => mem &&& x
  | .aor => mem ||| x
  | .axor => mem ^^^ x
  | .amin => if sg x < sg mem then x else mem
  | .amax => if sg mem < sg x then x else mem
  | .aminn => min mem x
  | .amaxn => max mem x
  | .afadd =>
    let f := fmtOf et
    (fwrite .plain f (faddX .rne (fdecode f mem) (fdecode f x)).1).1
  | .cas => if mem == cmp % m then x else mem
  | .ld | .ldfe | .ldff | .feclr => mem
  | .st | .swp | .stfe | .stff => x

/-- The operation reads its word, so that poison is consumed (R90). -/
def AccOp.consumes : AccOp → Bool
  | .st | .stfe | .stff | .feclr => false
  | _ => true

/-- The operation writes (R338). -/
def AccOp.isWrite : AccOp → Bool
  | .ld | .ldfe | .ldff => false
  | _ => true

/-- The operation needs read permission (R338). -/
def Access.needsR (a : Access) : Bool := a.op == .ld || a.fetch
/-- The operation needs write permission. -/
def Access.needsW (a : Access) : Bool := a.op.isWrite

/-- The operation acts on a full/empty tag (R200). -/
def AccOp.isFe : AccOp → Bool
  | .ldfe | .ldff | .stfe | .stff | .feclr => true
  | _ => false

/-- The value a load, fetch or CAS writes to its register (R189, R192, R193). -/
def fetchValue (a : Access) (old : Nat) : Word := if a.op == .afadd then word old else extendTo64 a.et old

/-- Perform an access on a byte of the home's local store: the old value, or POISON with nothing performed. -/
def performLocal (s : State) (home o : Nat) (a : Access) : Except Unit (Nat × State) :=
  let k := s.core home
  let old := k.lstore.read o a.n
  if a.op.consumes && k.poison.contains (0, o / 8) then .error ()
  else if a.op == .ld then .ok (old, s)
  else
    let x := atomValue a.op a.et a.n old a.val.toNat a.cmp.toNat
    .ok (old, s.setCore home { cleanPoison k 0 o a.n with lstore := k.lstore.write o a.n x })

/-- Perform an access on a DRAM word at its home (R265, R192). -/
def performDram (s : State) (home : Nat) (x : Xl) (a : Access) : Except Unit (Nat × State) :=
  let line := x.pa / 32
  let o := x.pa % 32
  match x.elided with
  | some p => .ok (elidedBytes p x.pa a.n, s)
  | none =>
    let d := peekLine s home line x.key
    if a.op.consumes && bit d.2 (o / 8) then .error ()
    else
      let old := lineBytes d.1 o a.n
      if a.op == .ld then .ok (old, (homeReadLine s home line x.key a.nt).2)
      else .ok (old, homeWriteLine s home line x.key a.nt o a.n (atomValue a.op a.et a.n old a.val.toNat a.cmp.toNat))

/-! ### Packets at the slices (R263, R338) -/

/-- The endpoint that counts as the source of a packet: the core that forwarded it, else its sender (R272, R366). -/
def Packet.source (p : Packet) : Nat := p.via.getD p.src

/-- The permissions that a packet's access needs (R338): read, write. -/
def Packet.needs (p : Packet) : Bool × Bool :=
  match p.body with
  | .access a | .request a => (a.needsR, a.needsW)
  | .ferry f => if f.kind == 1 then (false, true) else (true, f.write)
  | .engineRead _ _ | .bdot _ _ _ _ _ => (true, false)
  | .landed _ _ _ _ => (false, true)
  | _ => (false, false)

/-- The core of this cube that stands for the source of a packet in a first-touch placement (R263). -/
def Packet.toucher (p : Packet) : Nat :=
  match p.body with
  | .engineRead t _ | .landed t _ _ _ => epCore t.core
  | _ => epCore p.src

/-- The endpoint a packet is bound for, as far as it can be told: one still at a slice goes where its address
translates to now. -/
def boundFor (s : State) (p : Packet) : Option Nat :=
  match p.stage with
  | .slice | .walk _ _ =>
    match translateNow s p.addr p.dom p.priv p.needs.1 p.needs.2 p.toucher with
    | .ok (_, home) => some (s.logical * 2048 + home)
    | .error _ => none
  | _ => some p.dst

end Sys2Proof.Machine
end

