-- ==== Sys2Proof/Machine/CopyOps.lean ====
section
/-! DEFINITION. Shared operations of the engines' inputs: the q0 command order (spec/06 R150), copy-engine operations
(R172-R177, R183) and mailbox sets (R175, R207). -/

namespace Sys2Proof.Machine

/-! ### Mailboxes (R175) -/

/-- The mailbox set of a group on a core; an absent set is all zero. -/
def mailSet (k : CoreSt) (g : GroupId) : MailSet := ((k.mail.find? (fun e => e.1 == g)).map (·.2)).getD {}

/-- A count can be made: the group has a set or a set is free (R175: at most 16). -/
def mailRoom (k : CoreSt) (g : GroupId) : Bool :=
  k.mail.any (fun e => e.1 == g) || decide ((liveMail k).length < 16)

/-- Keep a group's set, unless it is free. -/
def setMail (k : CoreSt) (g : GroupId) (m : MailSet) : CoreSt :=
  let k' : CoreSt := { k with mail := k.mail.filter (fun e => e.1 != g) ++ [(g, m)] }
  { k' with mail := liveMail k' }

/-- Counter mb of a group's set. -/
def mailCount (k : CoreSt) (g : GroupId) (mb : Nat) : BitVec 32 := tgetD (mailSet k g).count mb 0

/-- Add to a counter; counters wrap (R175). -/
def addMail (k : CoreSt) (g : GroupId) (mb n : Nat) : CoreSt :=
  let m := mailSet k g
  setMail k g { m with count := tset m.count mb (tgetD m.count mb 0 + BitVec.ofNat 32 n) }

/-- Set a dead-letter bit (R207). -/
def setDeadLetter (k : CoreSt) (g : GroupId) : CoreSt :=
  let m := mailSet k g
  setMail k g { m with mberr := m.mberr ||| 0x8000 }

/-! ### The q0 command order (R150) -/

/-- A command binds the unbound gang tag as it enters (R157). -/
def bindsGang (m : MCmd) : Bool :=
  match m.kind with
  | .words => bits m.w0 63 60 == 1 && bit m.w0 59
  | .resume b => bit (b.getD 1 0) 59
  | _ => false

/-- Room for one more command: 16 in the order, 16 outstanding of the thread (R145, R150). -/
def matrixRoom (k : CoreSt) (t : Thread) : Bool :=
  decide (k.slice.order.length < 16) && decide (t.out0 < 16)

/-- Enter a command in the order of a core for a thread; `posts` says that it will post a status (R155). -/
def enterMatrix (s : State) (c slot : Nat) (t : Thread) (kind : MKind) (w0 w1 : Word) (posts : Bool) : State :=
  let m : MCmd := { kind := kind, w0 := w0, w1 := w1, seq := t.mseq, uid := t.uid, slot := slot, dom := t.dom }
  let k := s.core c
  let binds := bindsGang m
  let m' := if binds then { m with gang := k.slice.gang } else m
  let s1 := s.setCore c { k with slice := { k.slice with
    order := k.slice.order ++ [m'], gang := if binds then none else k.slice.gang } }
  s1.modThread c slot fun t =>
    { t with out0 := if posts then t.out0 + 1 else t.out0, mseq := if posts then t.mseq + 1 else t.mseq }

/-- A push to q0 (R150): the first is held in the half-command slot, the second enters the command; none where it
blocks. -/
def pushMatrix (s : State) (c slot : Nat) (t : Thread) (w : Word) : Option State :=
  match t.half with
  | none => some (s.setThread c slot { t with half := some w })
  | some w0 =>
    if matrixRoom (s.core c) t then
      some (enterMatrix (s.setThread c slot { t with half := none }) c slot { t with half := none } .words w0 w true)
    else none

/-! ### Copies (R172-R174) -/

/-- Row length and number of rows of a copy-engine operation (R172-R174, R183). -/
def rowLen (kind gb : Nat) : Nat :=
  match kind with
  | 1 => gb
  | 2 => gb / 2 ^ 42 * 8
  | 3 => gb / 2 ^ 24 % 2 ^ 16 * 64
  | _ => 2048

def rowCount (kind gb : Nat) : Nat :=
  match kind with
  | 2 => gb / 2 ^ 28 % 2 ^ 14 + 1
  | 3 => gb / 2 ^ 40 * 64 / max 1 (gb / 2 ^ 24 % 2 ^ 16 * 64)
  | _ => 1

/-- Source address of row i. -/
def rowSrc (kind gb src i : Nat) : Nat :=
  match kind with
  | 2 => src + i * (gb / 2 ^ 14 % 2 ^ 14 * 64)
  | 3 => src + i * rowLen 3 gb
  | _ => src

/-- The core of block i of a deal copy (R174), as an integer. -/
def dealCore (gb dst i : Nat) : Int :=
  let stride : Int := (BitVec.ofNat 12 (gb / 2 ^ 12)).toInt
  (((dst % 2 ^ 42 - 0x3F000000000) / 0x400000 : Nat) : Int) + ((i % max 1 (gb % 2 ^ 11) : Nat) : Int) * stride

/-- Destination address of row i. -/
def rowDst (kind gb dst i : Nat) : Nat :=
  match kind with
  | 2 => dst + i * (gb % 2 ^ 14 * 64)
  | 3 =>
    let off := (dst % 2 ^ 42 - 0x3F000000000) % 0x400000 + i / max 1 (gb % 2 ^ 11) * rowLen 3 gb
    dst / 2 ^ 42 * 2 ^ 42 + 0x3F000000000 + (dealCore gb dst i).toNat * 0x400000 + off
  | _ => dst

/-- An interval of a partition meets the reserved offsets, the upper half of a B-store slot, or the configuration
region (R172, R257). -/
def rangeBad (lo len : Nat) : Bool :=
  let off := lo % 2 ^ 42
  let hi := off + len
  let meets (a b : Nat) : Bool := decide (off < b) && decide (a < hi)
  len != 0 &&
  (meets 0x3F101000000 0x3F400000000 || meets 0x3F500000000 (2 ^ 42) ||
    (meets 0x3F400000000 0x3F500000000 &&
      (let a := max off 0x3F400000000 - 0x3F400000000
       let b := min hi 0x3F500000000 - 0x3F400000000
       decide (0x200000 ≤ a % 0x400000) || decide (a / 0x400000 * 0x400000 + 0x200000 < b))))

/-- An interval meets the B-store windows, which engines cannot read (R258). -/
def rangeInB (lo len : Nat) : Bool :=
  let off := lo % 2 ^ 42
  len != 0 && decide (off < 0x3F500000000) && decide (0x3F400000000 < off + len)

/-- An address lies within a scope of a core (R172): 0 core, 1 cluster, 2 cube, 3 pod. -/
def inScope (s : State) (core scope a : Nat) : Bool :=
  match scope with
  | 3 => true
  | 2 => a / 2 ^ 42 == s.logical
  | _ =>
    a / 2 ^ 42 == s.logical &&
      match regionOf (a % 2 ^ 42) with
      | .lstore h _ | .bstore h _ =>
        if scope == 0 then h == core else h < 1024 && core < 1024 && clusterOf h == clusterOf core
      | _ => false

/-- Dword i of a tree entry (spec/19 R404). -/
def State.treeWord (s : State) (t i : Nat) : Word := tgetD s.tree (8 * t + i) 0

/-- A range of a partition lies, in whole blocks of 256 bytes, within the range of a tree entry at its root (spec/19
R404, R405). -/
def inTreeRange (s : State) (t dst len : Nat) : Bool :=
  let root := bits (s.treeWord t 2) 31 0
  let lo := bits (s.treeWord t 3) 43 22
  match regionOf (dst % 2 ^ 42) with
  | .lstore h o =>
    dst / 2 ^ 42 * 2048 + h == root && o % 256 == 0 && len % 256 == 0 && decide (lo ≤ o) &&
    decide (o + len ≤ lo + bits (s.treeWord t 3) 21 0)
  | _ => false

/-- The tree entry that makes a CPYG of a core a reduce contribution, with its index (spec/19 R405), or a multicast
(R408). -/
def treeFor (s : State) (core dst len : Nat) : Option (Nat × Option Nat) :=
  (List.range 64).findSome? fun t =>
    let w0 := s.treeWord t 0
    let w4 := s.treeWord t 4
    if !bit w0 63 || 2 ≤ bits w0 62 61 || !inTreeRange s t dst len then none
    else if bits w0 62 61 == 1 then
      if bits (s.treeWord t 2) 31 0 == s.ep core then some (t, none) else none
    else if bits w4 42 32 ≤ core && core < bits w4 42 32 + bits w4 10 0 then
      some (t, some (bits w4 63 48 + core - bits w4 42 32))
    else none

/-- The rows of a copy as large pieces. -/
def copyRows (kind gb src dst : Nat) : List Piece :=
  (List.range (rowCount kind gb)).map fun i => ⟨rowSrc kind gb src i, rowDst kind gb dst i, rowLen kind gb, i⟩

/-- An invalid third operand (R172-R174). -/
def copyGbBad (kind : Nat) (gb : Word) : Bool :=
  let g := gb.toNat
  match kind with
  | 1 => bits gb 63 40 != 0 || g % 8 != 0
  | 2 => rowLen 2 g == 0
  | _ => g / 2 ^ 40 == 0 || rowLen 3 g == 0 || bit gb 11 || g % 2 ^ 11 == 0 || 1024 < g % 2 ^ 11 ||
      g / 2 ^ 40 * 64 % rowLen 3 g != 0

/-- The bytes from the first address of a side that a window check covers (R148). -/
def windowExtent (kind : Nat) (gb : Word) (destination : Bool) : Nat :=
  let g := gb.toNat
  match kind with
  | 1 => g
  | 2 => (rowCount 2 g - 1) * ((if destination then g % 2 ^ 14 else g / 2 ^ 14 % 2 ^ 14) * 64) + rowLen 2 g
  | _ => if destination then (rowCount 3 g + g % 2 ^ 11 - 1) / max 1 (g % 2 ^ 11) * rowLen 3 g else g / 2 ^ 40 * 64

/-- An engine address: a window address is checked against the window and the guard and becomes global (R148). -/
def engineAddr (s : State) (core : Nat) (e : DomCopy) (a : Word) (n : Nat) : Except TrapRec Nat :=
  if isWindow a then
    if e.guard (bits a 51 0) n then .ok (localGlobal s.logical core (bits a 51 0)).toNat
    else .error { cause := cLGUARD, xaddr := a }
  else .ok a.toNat

/-- A deal copy's gd, not in the local window, that addresses no local store of the cube (R174). -/
def dealTargetBad (s : State) (gd : Word) : Bool :=
  !isWindow gd && !(bits gd 63 56 == 0 && eaCube gd == s.logical &&
    (match regionOf (eaOff gd) with | .lstore _ _ => true | _ => false))

/-- The operation of a copy chain or descriptor (R172-R176): the trap its checks raise, or the operation with its
code where it moves nothing. -/
def makeCopy (s : State) (c slot : Nat) (t : Thread) (kind : Nat) (gd ga gb : Word) (tag scope : Nat) (urg nt : Bool) :
    Except TrapRec CopyOp :=
  let e := s.domEntry c t
  if copyGbBad kind gb || (kind == 3 && dealTargetBad s gd) then .error { cause := cILLOP }
  else if gd.toNat % 8 != 0 then .error { cause := cALIGN, xaddr := gd }
  else if ga.toNat % 8 != 0 then .error { cause := cALIGN, xaddr := ga }
  else
    match engineAddr s c e gd (windowExtent kind gb true), engineAddr s c e ga (windowExtent kind gb false) with
    | .error x, _ => .error x
    | .ok _, .error x => .error x
    | .ok dst, .ok src =>
      let g := gb.toNat
      let rows := copyRows kind g src dst
      let outside := kind == 3 && (List.range (rowCount 3 g)).any fun i =>
        decide (dealCore g dst i < 0) || decide (1023 < dealCore g dst i) ||
        decide (0x400000 < (dst % 2 ^ 42 - 0x3F000000000) % 0x400000 + (i / max 1 (g % 2 ^ 11) + 1) * rowLen 3 g)
      let bad := outside || rows.any fun r => rangeBad r.src r.len || rangeBad r.dst r.len || rangeInB r.src r.len
      let scoped' := rows.all fun r => r.len == 0 || (inScope s c scope r.src && inScope s c scope (r.src + r.len - 1) &&
        inScope s c scope r.dst && inScope s c scope (r.dst + r.len - 1))
      let op : CopyOp :=
        { kind := kind, seq := t.cseq, tag := tag, uid := t.uid, slot := slot, group := t.group, task := t.task,
          dom := t.dom, priv := e.priv, key := (s.core c).owner, scope := scope, urg := urg, nt := nt, dst := dst,
          src := src, gb := g, total := rowLen kind g * rowCount kind g }
      .ok { op with tree := if kind == 1 then treeFor s c dst op.total else none, phase :=
        if bad then .done 5 else if !scoped' then .done 3 else if op.total == 0 then .done 0 else .register }

/-- Room for one more operation: 32 of the core, 16 of the thread (R145). -/
def copyRoom (k : CoreSt) (t : Thread) : Bool := decide (k.copies.length < 32) && decide (t.out1 < 16)

/-- Resume words in use on a core. -/
def entriesUsed (k : CoreSt) : List Nat :=
  k.copies.map (fun o => o.2.entry) ++ k.sinkq.filterMap (fun q => q.faulted) ++
    k.threads.flatMap (fun t => match t.2.lease with
      | none => []
      | some l => l.streams.filterMap fun st => st.2.faulted)

/-- The lowest entry of a copy engine that nothing uses. -/
def freeEntry (k : CoreSt) : Nat := ((List.range 32).find? fun i => !(entriesUsed k).contains i).getD 0

/-- Hand an operation to the copy engine of a core (R144, R145). -/
def enterCopy (s : State) (c slot : Nat) (op : CopyOp) : State :=
  let s1 := s.bump.modCore c fun k => { k with copies := tset k.copies s.nextId { op with entry := freeEntry k } }
  s1.modThread c slot fun t => { t with out1 := t.out1 + 1, cseq := t.cseq + 1 }

/-- A push to q1 (R176): the copy that a descriptor in the local store names; a check that would raise a trap completes
it with code 5. None where it blocks. -/
def pushCopy (s : State) (c slot : Nat) (t : Thread) (w : Word) : Option State :=
  let k := s.core c
  if !copyRoom k t then none
  else
    let o := bits w 21 0
    let d (i : Nat) : Word := k.lstore.dword (o + 8 * i)
    let d3 := d 3
    let kind := bits d3 5 4 + 1
    let failed : CopyOp :=
      { kind := min kind 3, seq := t.cseq, tag := bits d3 3 0, uid := t.uid, slot := slot, group := t.group,
        task := t.task, dom := t.dom, priv := false, key := k.owner, scope := bits d3 7 6, urg := bit d3 8,
        nt := bit d3 9, dst := (d 0).toNat, src := (d 1).toNat, gb := (d 2).toNat, phase := .done 5 }
    if bits w 63 22 != 0 || o % 32 != 0 || bits d3 63 10 != 0 || kind == 4 then some (enterCopy s c slot failed)
    else match makeCopy s c slot t kind (d 0) (d 1) (d 2) (bits d3 3 0) (bits d3 7 6) (bit d3 8) (bit d3 9) with
      | .error _ => some (enterCopy s c slot failed)
      | .ok op => some (enterCopy s c slot op)

end Sys2Proof.Machine
end

