-- ==== Sys2Proof/Machine/TaskOps.lean ====
section
/-! DEFINITION. Tasks as their front ends know them: records, messages to tasks, spill areas (spec/14 R314-R320). -/

namespace Sys2Proof.Machine

/-- The front end of a task and its record slot (R314). -/
def taskFront (task : Nat) : Nat := task / 2 ^ 26
def taskSlot (task : Nat) : Nat := task % 256

/-- The endpoint of a front end (spec/00 R2). -/
def frontEp (cube front : Nat) : Nat := cube * 2048 + 1536 + front

/-- Front end f. -/
def State.fe (s : State) (f : Nat) : FrontEnd := tgetD s.fes f {}

def State.setFe (s : State) (f : Nat) (x : FrontEnd) : State := { s with fes := tset s.fes f x }

def State.modFe (s : State) (f : Nat) (g : FrontEnd → FrontEnd) : State := s.setFe f (g (s.fe f))

/-- The record of a task: its slot holds it still. -/
def State.taskRec (s : State) (task : Nat) : Option TaskRec :=
  match tget (s.fe (taskFront task)).records (taskSlot task) with
  | none => none
  | some r => if r.id == task then some r else none

def State.setTaskRec (s : State) (r : TaskRec) : State :=
  s.modFe (taskFront r.id) fun f => { f with records := tset f.records (taskSlot r.id) r }

/-- Messages that the spill area of a task can hold (R317). -/
def TaskRec.ring (r : TaskRec) : Nat := 16 * r.spsize

/-- A receive queue can take a message (R208, R316). -/
def recvRoom (k : CoreSt) (task : Nat) : Bool :=
  match tget k.recvq task with
  | some q => q.msgs.length < 64
  | none => k.recvq.length < 64

/-- Append a message to a task's receive queue on a core. -/
def appendRecv (k : CoreSt) (task : Nat) (m : TaskMsg) : CoreSt :=
  { k with recvq := tset k.recvq task ⟨(tgetD k.recvq task {}).msgs ++ [m]⟩ }

/-- The domain entry a front end consults: that of steward core 1,024 (R445). -/
def feDom (s : State) (dom : Nat) : DomCopy := domOf (s.core 1024) dom

/-- Steward core 1,024 keeps a copy of a domain entry that a front end uses (R445, spec/15 R329). -/
def feUse (s : State) (dom : Nat) : State := s.modCore 1024 fun k => useDom k dom

/-- Tell the sender of a message what became of it (R207), in the message's urgency class (spec/09 R269): a count for mb15, a dead
letter. -/
def notify (s : State) (from' : Nat) (m : TaskMsg) (add dead : Bool) : State :=
  match m.group with
  | none => s
  | some g => s.send (directPacket s from' (bits m.hdr 31 0) (flagBit (bit m.hdr 58) 0) 0 0 (.delivered g add dead))

/-- A message that cannot be delivered (R207), `add` where its sender has not been told yet; a fault message goes to steward core
1,024 with kind + 0x80 (spec/15 R331). -/
def deadLetter (s : State) (m : TaskMsg) (add : Bool) : State :=
  match m.group with
  | some _ => notify s m.ep m add true
  | none =>
    let ws := match m.words with
      | w :: rest => (w + 0x8000000000000000) :: rest
      | [] => []
    { s with faultLog := s.faultLog ++ [(1024, ws)] }

/-! ### Spill areas (R317-R319) -/

/-- The address of a line of an entry of a task's ring. -/
def TaskRec.ringLine (r : TaskRec) (e i : Nat) : Word := word (r.spbase * 4096 + 256 * e + 32 * i)

/-- The translation of a line of an entry, in the task's domain (log 62). -/
def ringUse (s : State) (r : TaskRec) (e i : Nat) (w : Bool) : Except TrapRec (Xl × Nat) × State :=
  translateUse s (r.ringLine e i) r.dom (feDom s r.dom).priv (!w) w 1024

/-- The words of a message as an entry holds them: its header and its words, with what of them is poisoned. -/
def TaskMsg.image (m : TaskMsg) : List Word × List Nat := (m.hdr :: m.words, m.bad.map (· + 1))

/-- Write a message to an entry of its task's ring, at the homes of its lines; none where an access fails. -/
def writeEntry (s : State) (r : TaskRec) (e : Nat) (m : TaskMsg) : Option State :=
  let x := m.image
  (List.range ((x.1.length + 3) / 4)).foldl (fun acc i => acc.bind fun s =>
    match ringUse s r e i true with
    | (.error _, _) => none
    | (.ok (y, home), s1) =>
      let ws := (x.1.drop (4 * i)).take 4
      let s2 := homeWriteLine s1 home (y.pa / 32) y.key false 0 (8 * ws.length) (wordsNum ws)
      some (homePoison s2 home (y.pa / 32) y.key (linePoison x.2 i))) (some s)

/-- The four words of a line of an entry and which of them are poisoned; none where the access fails. -/
def readRingLine (s : State) (r : TaskRec) (e i : Nat) : Option ((List Word × List Nat) × State) :=
  match ringUse s r e i false with
  | (.error _, _) => none
  | (.ok (y, home), s1) =>
    match y.elided with
    | some w => some ((List.replicate 4 w, []), s1)
    | none =>
      let d := homeReadLine s1 home (y.pa / 32) y.key false
      some (((List.range 4).map fun j => word (d.1.1.toNat / 2 ^ (64 * j)),
        ((List.range 4).filter fun j => bit d.1.2 j).map fun j => 4 * i + j), d.2)

/-- The message that an entry of a task's ring holds; its pop position, endpoint and group are the front end's own (log 62). -/
def readEntry (s : State) (r : TaskRec) (e : Nat) (m : TaskMsg) : Option (TaskMsg × State) :=
  let lines := (List.range 5).foldl (fun (acc : Option ((List Word × List Nat) × State)) i => acc.bind fun a =>
    (readRingLine a.2 r e i).map fun b => ((a.1.1 ++ b.1.1, a.1.2 ++ b.1.2), b.2)) (some (([], []), s))
  lines.map fun x =>
    let hdr := x.1.1.headD 0
    let n := min 16 (bits hdr 63 59)
    ({ m with hdr := hdr, words := (x.1.1.drop 1).take n, bad := (x.1.2.filter (1 ≤ ·)).map (· - 1) }, x.2)

/-- The first entry of a task's ring, from its next one on, that holds no message. -/
def freeRingEntry (r : TaskRec) : Option Nat :=
  ((List.range r.ring).map fun i => (r.ringAt + i) % max 1 r.ring).find? fun e => !r.spill.any fun x => x.1 == e

/-- Write a message to its task's spill area, at the end of the ring or ahead of what it holds; none where the ring is full or
an access fails. A queue of a running task is spilling from then on (R318). -/
def spillTo (s : State) (r : TaskRec) (m : TaskMsg) (ahead : List (Nat × TaskMsg)) : Option State :=
  match freeRingEntry r with
  | none => none
  | some e =>
    (writeEntry (feUse s r.dom) r e m).map fun s1 =>
      s1.setTaskRec { r with
        spill := ahead ++ [(e, m)] ++ r.spill.drop ahead.length, ringAt := (e + 1) % max 1 r.ring,
        spilling := if r.spilling.contains m.ep then r.spilling else r.spilling ++ [m.ep] }

/-- Write a message to its task's spill area, or make it a dead letter where that fails (R317). -/
def spillMessage (s : State) (r : TaskRec) (m : TaskMsg) (add : Bool) : State :=
  match spillTo s r m r.spill with
  | some s1 => if add then notify s1 m.ep m true false else s1
  | none => deadLetter s m add

/-- The received header word of a message (spec/07 R208). -/
def messageHdr (words : List Word) (urg : Bool) (src : Nat) : Word :=
  word (words.length * 2 ^ 59 + flagBit urg 58 + src)

/-- The message of a packet, popped so far (R207, R208, R319). -/
def messageOf (p : Packet) (ws : List Word) (g : Option GroupId) (urg : Bool) (popped : Nat) : TaskMsg :=
  ⟨p.dst, messageHdr ws urg p.src, ws, g, popped, p.bad⟩

/-- Deliver a message to a task of this cube (R317, R318). `add`: its sender has not been told of its delivery yet. -/
def deliver (s : State) (task : Nat) (m : TaskMsg) (add : Bool) : State :=
  let told (s : State) : State := if add then notify s m.ep m true false else s
  match s.taskRec task with
  | none => deadLetter s m add
  | some r =>
    match r.state with
    | 0 => deadLetter s m add
    | 1 =>
      if r.held.length < 16 && r.spill.isEmpty then told (s.setTaskRec { r with held := r.held ++ [m] })
      else spillMessage s r m add
    | 2 =>
      let c := epCore m.ep
      if recvRoom (s.core c) task && (!add || !r.replaying) && !r.spilling.contains m.ep then
        told (s.modCore c fun k => appendRecv k task m)
      else spillMessage s r m add
    | _ => spillMessage s r m add

/-- Replay one message to its endpoint (R317, R319): into the receive queue, or on its way again to a core whose buoy forwards
it; none while there is no room, or the core is sealed. -/
def replayOne (s : State) (r : TaskRec) (m : TaskMsg) : Option State :=
  let c := epCore m.ep
  let urg := bit m.hdr 58
  if (buoyOf s c r.dom).isSome then
    some (s.send { directPacket s (bits m.hdr 31 0) m.ep (flagBit urg 0) 0 0 (.message r.id m.words m.group urg (some m.popped)) with
      dom := r.dom, bad := m.bad })
  else if !(s.core c).sealed && recvRoom (s.core c) r.id then some (s.modCore c fun k => appendRecv k r.id m)
  else none

/-- Replay held messages, then those of the spill area, in order, as far as there is room: at most `fuel` of them. When none is
left, no queue is spilling any longer (R318). -/
def replayFrom (fuel : Nat) (s : State) (task : Nat) : State :=
  match fuel, s.taskRec task with
  | 0, _ | _, none => s
  | fuel + 1, some r =>
    match r.held, r.spill with
    | [], [] => s.setTaskRec { r with spilling := [], replaying := false }
    | m :: rest, _ =>
      match replayOne s r m with
      | none => s
      | some s1 => replayFrom fuel (s1.setTaskRec { r with held := rest }) task
    | [], (e, m) :: rest =>
      let left (s : State) : State := s.setTaskRec { r with spill := rest }
      match readEntry (feUse s r.dom) r e m with
      | none => replayFrom fuel (left (deadLetter s m false)) task
      | some (m', s1) =>
        match replayOne s1 r m' with
        | none => s
        | some s2 => replayFrom fuel (left s2) task

/-- Replay what a running task has waiting. -/
def replay (s : State) (task : Nat) : State :=
  match s.taskRec task with
  | none => s
  | some r =>
    if r.state == 2 && !(r.held.isEmpty && r.spill.isEmpty) then replayFrom (r.held.length + r.spill.length + 1) s task else s

/-- Replay what the running tasks of the cube have waiting: a receive queue, or a core, has become free. -/
def replayAll (s : State) : State :=
  (s.fes.flatMap fun f => f.2.records.map fun r => r.2.id).foldl replay s

/-- A task's messages must follow the replay of what it has waiting (R317, R319). -/
def startReplay (s : State) (task : Nat) : State :=
  match s.taskRec task with
  | none => s
  | some r => replay (s.setTaskRec { r with state := 2, replaying := !(r.held.isEmpty && r.spill.isEmpty) }) task

/-- A core's receive queue of a task goes to the spill area, ahead of what comes later, and is freed (R319). -/
def spillQueue (s : State) (c task : Nat) : State :=
  let q := tgetD (s.core c).recvq task {}
  let s1 := s.modCore c fun k => { k with recvq := tdel k.recvq task }
  (q.msgs.foldl (fun (acc : State × Nat) m =>
    match acc.1.taskRec task with
    | none => acc
    | some r =>
      match spillTo acc.1 r m (r.spill.take acc.2) with
      | some s2 => (s2, acc.2 + 1)
      | none => (deadLetter acc.1 m false, acc.2)) (s1, 0)).1

end Sys2Proof.Machine
end

