-- ==== Sys2Proof/Machine/Operands.lean ====
section
/-! DEFINITION. The issue of a chain (spec/01 R33-R38) and its operand forms: what the fields read and write, queue
ports (R27), pending results (R34-R36), and the shapes of the scalar instructions (spec/02 R50). -/

namespace Sys2Proof.Machine

/-- What a chain being issued is: its core and slot, its operation and chain, the address of its first word and of the
word after it, and the predicate word before the issue clears PP (spec/04 R99). -/
structure Ctx where
  core  : Nat
  slot  : Nat
  o     : Op
  c     : Chain
  start : Nat
  next  : Nat
  pw    : Word
  deriving DecidableEq, Repr

/-- What executing a chain comes to. `done` and `jump` go on at the next chain or at a pc; `over` has set the thread's pc
and status itself; `held` has set the status of a thread whose chain is not issued; `wait` blocks it; `trap` has no
effect but the trap. -/
inductive Out where
  | done (s : State)
  | jump (s : State) (pc : Nat)
  | over (s : State)
  | held (s : State)
  | wait (w : Wait)
  | trap (t : TrapRec)
  deriving DecidableEq, Repr

/-- A trap at the chain's first word. -/
def Ctx.trap (x : Ctx) (cause : Nat) (detail : Nat := 0) (addr : Word := 0) : Out :=
  .trap { cause := cause, detail := detail, xaddr := addr, xpc := x.start }

/-- A trap found by a check, at the chain's first word. -/
def Ctx.raise (x : Ctx) (t : TrapRec) : Out := .trap { t with xpc := x.start }

/-- The immediate (R18). -/
def Ctx.imm (x : Ctx) : Word := immVal x.o x.c
/-- The immediate as a small number, where the decoder has checked its range. -/
def Ctx.immNat (x : Ctx) : Nat := (immInt x.o x.c).toNat
/-- The etype code in force. -/
def Ctx.et (x : Ctx) : Nat := etCode x.o x.c

/-! ### What a chain names (R36) -/

/-- The resource a register field names. -/
def fieldRes (k : FKind) (n : Nat) : List Res :=
  if k.isScalar then (if n < 10 then [.g n] else [])
  else if k.isPred then [.p n]
  else if k.isVec then [.v n]
  else if k.isMask then [.m n]
  else []

/-- Every predicate and the sticky flags: the whole predicate word. -/
def wholePw : List Res := .flags :: (List.range 16).map .p

/-- g0 to g9. -/
def allG : List Res := (List.range 10).map .g

/-- What a mnemonic reads or writes beside its fields (R36, R99, R115, R123, R204, R211, R213, R219). -/
def extraRes (o : Op) : List Res :=
  match o with
  | .rdpw | .wrpw | .tret => wholePw
  | .fclrf | .barr | .bdrop | .baw => [.flags]
  | .gcall | .gret => allG ++ wholePw
  | .vfree => (List.range 32).map .v ++ (List.range 4).map .m
  | _ => []

/-- The mask that mask control names (R52, R126). -/
def maskRes (o : Op) (c : Chain) : List Res :=
  if (opRow o).imm == .mask && bit (immVal o c) 2 then [.m (bits (immVal o c) 1 0)] else []

/-- Everything a chain reads or writes (R36). -/
def namedRes (o : Op) (c : Chain) : List Res :=
  let r := opRow o
  .p c.guard.toNat :: (fieldRes r.fd (if r.fd.isVec then c.vd else c.d.toNat) ++
    fieldRes r.fa (if r.fa.isVec then c.va else c.a.toNat) ++
    (if usesB o c then fieldRes r.fb (if r.fb.isVec then c.vb else c.b.toNat) else []) ++
    maskRes o c ++ extraRes o)

/-- The chain names a member of P (R36). -/
def hazard (span : List Res) (o : Op) (c : Chain) : Bool := (namedRes o c).any (fun r => span.contains r)

/-- The guard holds (R19, R20, R38); SEL is always executed (R100). -/
def guardHolds (pw : Word) (o : Op) (c : Chain) : Bool :=
  o == .sel || pwPred pw c.guard.toNat != c.neg

/-! ### Checks that decoding makes against the thread (R30, R38, R59, R60, R128, R220) -/

/-- Instructions that need a lease (R30, R144). -/
def needsLease (o : Op) : Bool :=
  let r := opRow o
  (r.page == 2) || (r.page == 3 && o != .vlease) || o == .smode || o == .sstop

/-- The vector registers a chain names, with their kinds. -/
def vecFields (o : Op) (c : Chain) : List Nat :=
  let r := opRow o
  (if r.fd.isVec then [c.vd] else []) ++ (if r.fa.isVec then [c.va] else []) ++
  (if r.fb.isVec && usesB o c then [c.vb] else [])

/-- The stream state of a register (R168). -/
def Thread.stream? (t : Thread) (n : Nat) : Option Stream := t.lease.bind (fun l => tget l.streams n)

/-- d is read by a masked instruction that keeps inactive elements (R126). -/
def keepMode (o : Op) (c : Chain) : Bool :=
  (opRow o).imm == .mask && bit (immVal o c) 2 && !bit (immVal o c) 3

/-- The rules of R128 on stream registers that a chain names. -/
def streamErr (t : Thread) (o : Op) (c : Chain) : Bool :=
  let r := opRow o
  if o == .smode || o == .sstop then false
  else
    let sd := if r.fd.isVec then t.stream? c.vd else none
    let sa := if r.fa.isVec then t.stream? c.va else none
    let sb := if r.fb.isVec && usesB o c then t.stream? c.vb else none
    let dIsSource := r.fd == .vSrc
    let wrong (x : Option Stream) (src : Bool) : Bool :=
      match x with | none => false | some st => st.pat.sink == src
    wrong sd dIsSource || wrong sa true || wrong sb true ||
    (sa.isSome && sb.isSome && c.va == c.vb) || (dIsSource && sd.isSome && sb.isSome && c.vd == c.vb) ||
    (sd.isSome && !dIsSource && (dReadWritten o c || keepMode o c)) ||
    ((sd.isSome || sa.isSome || sb.isSome) && (o == .vins || o == .vext || o == .vimad || o == .vfma)) ||
    (sd.isSome && (o == .vld || o == .vlds || o == .vgath))

/-- Privileged instructions (R60). -/
def isPrivileged (o : Op) : Bool :=
  match o with
  | .slinv | .setkey | .setown | .istw | .start | .buoys | .buoyc | .haltrq | .csave | .cload => true
  | _ => false

/-- What decoding finds at a control-register selector (R220): ILLOP or PRIV. -/
def ctlErr (t : Thread) (priv write : Bool) (sel : Nat) : Option Nat :=
  if sel ≤ 3 then (if t.inHandler then none else some cILLOP)
  else if sel == 4 || sel == 9 then none
  else if (5 ≤ sel && sel ≤ 8) || sel == 0x22 then (if write then some cILLOP else none)
  else if 0x10 ≤ sel && sel ≤ 0x12 then (if write && !priv then some cPRIV else none)
  else if sel == 0x20 || sel == 0x21 then (if priv then none else some cPRIV)
  else some cILLOP

/-- What a group's launch gave it, as its cube's group table holds it (spec/08 R236; R203, R305). -/
def groupKey (g : GroupId) : Nat := (g.die * 8 + g.cl) * 2048 + g.slot
def groupPack (g : GroupId) : Nat := ((g.cube * 4 + g.die) * 8 + g.cl) * 2048 + g.slot

/-- A group identity of 30 bits: cube, die, cluster, group slot (spec/16 R349). -/
def groupOf30 (x : Nat) : GroupId := ⟨x / 2 ^ 16, x / 2 ^ 14 % 4, x / 2 ^ 11 % 8, x % 2 ^ 11⟩

/-- Field n of a group's launch: 0 level, 1 tickets, 2 placement level, 3 barrier level, 4 barrier base, 5 task; a
group of another cube is asked of its cube (log 17). -/
def launchField (s : State) (g : GroupId) (n : Nat) : Nat :=
  if g.cube == s.logical then
    match tget s.groups (groupKey g) with
    | none => Config.foreignLaunch (groupPack g) n
    | some e =>
      match n with
      | 0 => e.level
      | 1 => e.tickets
      | 2 => e.place
      | 3 => e.barrier
      | 4 => e.base
      | _ => e.task
  else Config.foreignLaunch (groupPack g) n

/-- The scope of a barrier instruction: 0 cluster, 1 cube, 2 pod; scope 0b00 by the launch (R203). -/
def barrierScope (s : State) (t : Thread) (c : Chain) : Nat :=
  match c.scope with
  | .cluster => 0
  | .cube => 1
  | .pod => 2
  | .core => if launchField s t.group 3 ≤ launchField s t.group 2 then 0 else 1

/-- A barrier number out of range at a scope that the launch resolves (R59). -/
def barrierErr (s : State) (t : Thread) (o : Op) (c : Chain) : Bool :=
  match o with
  | .binit | .barr | .bwait | .baw | .bdrop =>
    c.scope == .core && barrierScope s t c == 0 && decide (63 < immInt o c)
  | _ => false

/-- The checks of decoding beyond the chain's own words: ILLOP or PRIV (R38). -/
def threadErr (s : State) (core : Nat) (t : Thread) (o : Op) (c : Chain) : Option Nat :=
  let priv := (s.domEntry core t).priv
  if needsLease o && !t.hasLease then some cILLOP
  else if (vecFields o c).any (fun n => t.leaseSize ≤ n) then some cILLOP
  else if streamErr t o c || barrierErr s t o c then some cILLOP
  else if o == .ctlr || o == .ctlw then
    ctlErr t priv (o == .ctlw) (immInt o c).toNat
  else if isPrivileged o && !priv then some cPRIV
  else none

/-! ### Pending results (R34-R36) -/

/-- The general register among resources; 15 for none. -/
def resReg : List Res → Nat
  | .g n :: _ => n
  | _ :: rest => resReg rest
  | [] => 15

/-- Make resources pending with a result, known or not. The number of the pending result is the state's next number. With
nothing to make pending (zr, R26; p0, log 104) a known result is written at once, and one to come is discarded. -/
def addPend (s : State) (c slot : Nat) (res : List Res) (writes : Option (List RegWrite)) : State :=
  (s.modThread c slot fun t =>
    if res.isEmpty then (match writes with | none => t | some ws => t.writes ws)
    else { t with span := t.span ++ res, pend := t.pend ++ [⟨s.nextId, writes, resReg res⟩] }).bump

/-- The resource of a scalar destination field that is no queue port; zr is never pending (R26). -/
def gRes (f : BitVec 4) : List Res := if f.toNat < 10 then [.g f.toNat] else []

/-- The resource of a predicate destination. DESIGN CHOICE (log 104): p0, whose write is discarded (R33), is never pending. -/
def pRes (n : Nat) : List Res := if n == 0 then [] else [.p n]

/-- The whole predicate word as it becomes pending: every predicate but p0, and the sticky flags. -/
def pwRes : List Res := wholePw.filter (· != .p 0)

/-! ### Queue ports (R27, spec/06 R145, spec/07 R207, R208) -/

/-- Pop a receive queue: the header first, then each word; the message leaves with its last word (R208). -/
def popRecv (q : RecvQueue) : Option (Word × RecvQueue) :=
  match q.msgs with
  | [] => none
  | m :: rest =>
    let x := if m.popped == 0 then m.hdr else m.words.getD (m.popped - 1) 0
    some (x, if m.words.length ≤ m.popped then ⟨rest⟩ else ⟨{ m with popped := m.popped + 1 } :: rest⟩)

/-- Another thread of a task on a core has taken the head of the task's receive queue for a chain that an event will
complete; the entry leaves the queue with that event. -/
def recvTaken (k : CoreSt) (slot task : Nat) : Bool :=
  k.threads.any fun e => e.1 != slot && e.2.task == task &&
    (match e.2.status with
      | .awaiting _ r | .sleeping _ _ _ r _ _ => r.pop == some 2
      | _ => false)

/-- Pop one entry of a queue port 0 to 3; none where it is empty. -/
def popPort (s : State) (c slot port : Nat) : Option (Word × State) :=
  match s.thread? c slot with
  | none => none
  | some t =>
    match port with
    | 0 => match t.q0 with
      | [] => none
      | x :: rest => some (x, s.setThread c slot { t with q0 := rest, out0 := t.out0 - 1 })
    | 1 => match t.q1 with
      | [] => none
      | x :: rest => some (x, s.setThread c slot { t with q1 := rest, out1 := t.out1 - 1 })
    | 2 => if recvTaken (s.core c) slot t.task then none else
      match popRecv (tgetD (s.core c).recvq t.task {}) with
      | none => none
      | some (x, q) => some (x, replay (s.modCore c fun k => { k with recvq := tset k.recvq t.task q }) t.task)
    | _ => match t.q3 with
      | (_, some x) :: rest => some (x, s.setThread c slot { t with q3 := rest })
      | _ => none

/-- Push one word to a queue port 0 to 2; none where it blocks. -/
def pushPort (s : State) (c slot port : Nat) (w : Word) : Option State :=
  match s.thread? c slot with
  | none => none
  | some t =>
    match port with
    | 0 => pushMatrix s c slot t w
    | 1 => pushCopy s c slot t w
    | 2 => if 16 ≤ t.stage.length then none else some (s.setThread c slot { t with stage := t.stage ++ [w] })
    | _ => none

/-- The port of a field value 12 to 15. -/
def portOf (f : BitVec 4) : Nat := f.toNat - 12

/-- Read a scalar source field: a register, or one entry of a queue port; the last component says that a port was
popped. -/
def readField (s : State) (x : Ctx) (t : Thread) (f : BitVec 4) : Except Wait (Word × State × Bool) :=
  if isQueue f then
    match popPort s x.core x.slot (portOf f) with
    | none => .error (.pop (portOf f))
    | some (v, s') => .ok (v, s', true)
  else .ok (t.scalar f, s, false)

/-- OR exceptions into the sticky flags of a thread (R33). -/
def orFlags (s : State) (c slot : Nat) (fl : Flags) : State :=
  if fl == 0 then s else s.modThread c slot fun t => { t with pw := pwOrFlags t.pw fl }

/-- Write a scalar destination field: push to a port, or write the register, pending where `long` together with `extra`
(R34); the exceptions go to the sticky flags (R33, spec/04 R110). -/
def writeField (s : State) (x : Ctx) (f : BitVec 4) (v : Word) (long : Bool) (fl : Flags) (extra : List Res := []) :
    Out :=
  if isQueue f then
    match pushPort s x.core x.slot (portOf f) v with
    | none => .wait (.push (portOf f))
    | some s' => .done (orFlags s' x.core x.slot fl)
  else if long then
    .done (addPend s x.core x.slot (gRes f ++ extra) (some [.g f.toNat v, .flags fl]))
  else .done (s.modThread x.core x.slot fun t => { t.setScalar f v with pw := pwOrFlags t.pw fl })

/-- Write a predicate destination, pending where a port was popped (R34). -/
def writePred (s : State) (x : Ctx) (n : Nat) (b long : Bool) (fl : Flags) : Out :=
  if long then .done (addPend s x.core x.slot (pRes n) (some [.p n b, .flags fl]))
  else .done (s.modThread x.core x.slot fun t => { t with pw := pwOrFlags (pwSetPred t.pw n b) fl })

/-! ### Shapes (R50) -/

/-- x, y of the shape "x, y[, z]": d op a, a op b, or a op imm (R50, R93). The port popped, if any, is the last
component. -/
def sources2 (s : State) (x : Ctx) (t : Thread) : Except Wait (Word × Word × State × Bool) :=
  match readField s x t x.c.a with
  | .error w => .error w
  | .ok (a, s1, p1) =>
    if x.c.hasImm then .ok (a, x.imm, s1, p1)
    else if x.c.hasReg then
      match readField s1 x t x.c.b with
      | .error w => .error w
      | .ok (b, s2, p2) => .ok (a, b, s2, p1 || p2)
    else .ok (t.scalar x.c.d, a, s1, p1)

/-- d := f(x, y), short (R93). -/
def alu2 (f : Word → Word → Word) (x : Ctx) (t : Thread) (s : State) : Out :=
  match sources2 s x t with
  | .error w => .wait w
  | .ok (a, b, s', p) => writeField s' x x.c.d (f a b) p 0

/-- d := f(x, y), long (R94). DESIGN CHOICE (log 103): the table of R34 has one row for division and floating-point division
and lists the sticky flags there; R94 says that integer division sets no flag and names its destination alone, so the flags
stay out of P. -/
def alu2Long (f : Word → Word → Word) (x : Ctx) (t : Thread) (s : State) : Out :=
  match sources2 s x t with
  | .error w => .wait w
  | .ok (a, b, s', _) => writeField s' x x.c.d (f a b) true 0

/-- d := f(a) (R95). -/
def alu1 (f : Word → Word) (x : Ctx) (t : Thread) (s : State) : Out :=
  match readField s x t x.c.a with
  | .error w => .wait w
  | .ok (a, s', p) => writeField s' x x.c.d (f a) p 0

/-- p := c(a, s) with s by R97: b with XREG, imm with XIMM, zr with neither. -/
def cmp2 (f : Word → Word → Bool) (x : Ctx) (t : Thread) (s : State) : Out :=
  match readField s x t x.c.a with
  | .error w => .wait w
  | .ok (a, s1, p1) =>
    if x.c.hasImm then writePred s1 x x.c.d.toNat (f a x.imm) p1 0
    else if x.c.hasReg then
      match readField s1 x t x.c.b with
      | .error w => .wait w
      | .ok (b, s2, p2) => writePred s2 x x.c.d.toNat (f a b) (p1 || p2) 0
    else writePred s1 x x.c.d.toNat (f a 0) p1 0

/-- p := p op q over predicates (R98): pd op pa without XREG, pa op pb with it. -/
def pred2 (f : Bool → Bool → Bool) (x : Ctx) (t : Thread) (s : State) : Out :=
  let pa := pwPred t.pw x.c.a.toNat
  let b := if x.c.hasReg then f pa (pwPred t.pw x.c.b.toNat) else f (pwPred t.pw x.c.d.toNat) pa
  writePred s x x.c.d.toNat b false 0

/-- The effective address of a memory operand (R50): ga + imm, ga + gb, or ga. -/
def memAddr (s : State) (x : Ctx) (t : Thread) : Except Wait (Word × State × Bool) :=
  let ga := t.scalar x.c.a
  if x.c.hasImm then .ok (ga + x.imm, s, false)
  else if x.c.hasReg then
    match readField s x t x.c.b with
    | .error w => .error w
    | .ok (b, s', p) => .ok (ga + b, s', p)
  else .ok (ga, s, false)

/-! ### Issue (R38) -/

/-- A chain has been performed: the thread goes on at a pc; the switch marker parks it, and it is ready again at once
where nothing is pending (R35). -/
def finishAt (s : State) (x : Ctx) (pc : Nat) : State :=
  let s1 := s.modThread x.core x.slot fun t => { t with pc := pc, atHome := none }
  if x.c.marker then settle (s1.modThread x.core x.slot fun t => { t with status := .parked false }) x.core x.slot
  else s1

/-- A request for a lease joins the order of its core (spec/05 R122): at its end, but before the requests that blocked in the
same cycle in a higher context slot. -/
def joinLease (k : CoreSt) (slot now : Nat) : List Nat :=
  let later (i : Nat) : Bool :=
    slot < i && (match tget k.threads i with
      | some t => (match t.status with | .blocked (.lease _ _) since => since == now | _ => false)
      | none => false)
  if k.leaseq.contains slot then k.leaseq
  else k.leaseq.takeWhile (fun i => !later i) ++ [slot] ++ k.leaseq.dropWhile fun i => !later i

/-- Block a thread at its chain (R27); a VLEASE request joins the core's order (R122). -/
def blockAt (s : State) (x : Ctx) (w : Wait) : State :=
  let now := s.cyc x.core
  let s1 := match w with
    | .lease _ _ => s.modCore x.core fun k => { k with leaseq := joinLease k x.slot now }
    | _ => s
  s1.modThread x.core x.slot fun t => { t with status := .blocked w now }

/-- The state of a chain's outcome (R33, R38): a chain that was issued has PP cleared; one that was not keeps it; a trap
keeps it for xpw. `s0` is the state before the issue. -/
def conclude (s0 : State) (x : Ctx) (out : Out) : State :=
  match out with
  | .done s => finishAt s x x.next
  | .jump s pc => finishAt s x pc
  | .over s => s
  | .held s => s.modThread x.core x.slot fun t => { t with pw := x.pw }
  | .wait w => blockAt s0 x w
  | .trap t => takeTrap s0 x.core x.slot t

/-- The state in which a chain executes: the issue has taken its slot and cleared PP and FSEL (R33, R34). -/
def issued (s : State) (x : Ctx) : State :=
  (s.issueAt x.core x.slot).modThread x.core x.slot fun t => { t with pw := clearPP t.pw }

/-- The registers whose values a chain reads (spec/20 R411): its sources, d where it is read, the whole predicate word
where the mnemonic reads it or a predicate other than p0 is read. -/
def readRes (o : Op) (c : Chain) : List Res :=
  let r := opRow o
  let d := if !r.fd.isDst || dReadWritten o c || keepMode o c then
      fieldRes r.fd (if r.fd.isVec then c.vd else c.d.toNat) else []
  let preds := c.guard != 0 || (r.fa.isPred && c.a != 0) || (r.fb.isPred && usesB o c && c.b != 0) ||
    (r.fd.isPred && (!r.fd.isDst || dReadWritten o c) && c.d != 0)
  (if preds then [.flags] else []) ++ d ++ fieldRes r.fa (if r.fa.isVec then c.va else c.a.toNat) ++
    (if usesB o c then fieldRes r.fb (if r.fb.isVec then c.vb else c.b.toNat) else []) ++ maskRes o c ++
    (if o == .vfree || o == .wrpw then [] else extraRes o)

/-- A register that a chain reads holds a parity error (spec/20 R411). -/
def parityErr (t : Thread) (o : Op) (c : Chain) : Bool := (readRes o c).any (fun r => t.parity.contains r)

/-- The guard is read from a predicate word with a parity error. -/
def guardParity (t : Thread) (c : Chain) : Bool := c.guard != 0 && t.parity.contains .flags

/-- The chain pops a poisoned word of a received message (spec/03 R90, spec/20 R411). -/
def queuePoison (s : State) (core : Nat) (t : Thread) (o : Op) (c : Chain) : Bool :=
  (queueSources o c).any fun f => portOf f == 2 &&
    (match (tgetD (s.core core).recvq t.task {}).msgs with
      | m :: _ => m.popped != 0 && m.bad.contains (m.popped - 1)
      | [] => false)

/-- The lowest poisoned word of a strip. -/
def stripPoison (p : BitVec 16) : Option Nat := (List.range 16).find? (bit p)

/-- The address of a strip (spec/06 R168). -/
def Pattern.strip (p : Pattern) (i : Nat) : Word :=
  BitVec.ofInt 64 ((p.base : Int) + (i % max 1 p.c0 : Nat) * p.s0 + (i / max 1 p.c0 % max 1 p.c1 : Nat) * p.s1 +
    (i / max 1 p.c0 / max 1 p.c1 : Nat) * p.s2)

/-- The poisoned word of the strip that a source stream gives next (spec/03 R90). -/
def Stream.poisoned (st : Stream) : Option Word :=
  match st.strips with
  | (_, bad) :: _ => if st.pat.sink then none else (stripPoison bad).map fun i => st.pat.strip st.used + word (8 * i)
  | [] => none

/-- What of the registers, queue entries and strips that a chain reads is broken: the POISON it raises (R217). -/
def brokenSource (s : State) (core : Nat) (t : Thread) (o : Op) (c : Chain) : Option TrapRec :=
  if parityErr t o c then some { cause := cPOISON, detail := 1 }
  else if queuePoison s core t o c then some { cause := cPOISON }
  else ((vecFields o c).findSome? fun n => (t.stream? n).bind Stream.poisoned).map fun a => { cause := cPOISON, xaddr := a }

/-- A queue port that the chain writes has room in a state. -/
def portRoom (s : State) (c slot port : Nat) : Bool :=
  match s.thread? c slot with
  | none => true
  | some t =>
    match port with
    | 0 => t.half.isNone || matrixRoom (s.core c) t
    | 1 => copyRoom (s.core c) t
    | 2 => decide (t.stage.length < 16)
    | _ => true

/-- The queue port on which a chain waits before it executes (R27, R38): an empty one that it reads, else a full one that it
writes. -/
def portWait (s : State) (core slot : Nat) (o : Op) (c : Chain) : Option Wait :=
  let full (s : State) : Option Wait :=
    if queueDest o c && !portRoom s core slot (portOf c.d) then some (.push (portOf c.d)) else none
  match queueSources o c with
  | [] => full s
  | f :: _ =>
    match popPort s core slot (portOf f) with
    | none => some (.pop (portOf f))
    | some (_, s') => full s'

/-- The outcome of a chain whose source is broken (R217): a trap of a smaller priority number comes before POISON. -/
def orPoison (x : Ctx) (out : Out) (broken : Option TrapRec) : Out :=
  match broken with
  | none => out
  | some p =>
    match out with
    | .trap t => if t.cause < cPOISON then out else x.raise p
    | _ => x.raise p

/-- Issue a chain of the current thread (R38): decoding and its checks, HAZARD, guard, execution. -/
def issueChain (o : Op) (c : Chain) (body : Ctx → Thread → State → Out) (s : State) :
    Host.Outcome State Fault Refusal :=
  let core := s.cur.1
  let slot := s.cur.2
  match s.thread? core slot with
  | none => .refused (.notEnabled "ISSUE")
  | some t =>
    if !t.isReady then .refused (.notEnabled "ISSUE")
    else
      let x : Ctx := ⟨core, slot, o, c, t.pc, t.pc + chainBytes o c, t.pw⟩
      .next <| conclude s x <|
        if (chainErr o c).isSome then x.trap cILLOP
        else match threadErr s core t o c with
          | some cause => x.trap cause
          | none =>
            if hazard t.span o c then x.trap cHAZARD
            else if guardParity t c then x.trap cPOISON 1
            else if !guardHolds t.pw o c then .done (issued s x)
            else match portWait s core slot o c with
              | some w => .wait w
              | none =>
                let s' := issued s x
                match s'.thread? core slot with
                | none => .done s'
                | some t' => orPoison x (body x t' s') (brokenSource s core t o c)

end Sys2Proof.Machine
end

