-- ==== Sys2Proof/Machine/Lifecycle.lean ====
section
/-! DEFINITION. The ends of threads (spec/04 R107, spec/07 R196, spec/14 R311) and of chains that an event completes. -/

namespace Sys2Proof.Machine

/-- Report an exit whose sends have all been acknowledged (R196, R311): the fault message of kind 3 where the record is
valid, then the exit report to the thread's front end. -/
def reportExit (s : State) (c : Nat) (x : Gone) : State :=
  let s1 :=
    if bit x.frec 63 then
      s.faultMessage (domOf (s.core c) x.dom) (s.ep c) 3 (bits x.frec 7 0) (bits x.frec 31 16) x.dom x.task x.fraddr
        x.frec
    else s
  s1.send (directPacket s1 (s.ep c) (frontEp x.group.cube (taskFront x.task)) 2 x.uid x.slot
    (.exitReport x.task x.group))

/-- Report every exited thread of a core that has nothing left to be acknowledged. -/
def reportExits (s : State) (c : Nat) : State :=
  let k := s.core c
  let s1 := s.setCore c { k with gone := k.gone.filter fun x => !x.sends.isEmpty }
  (k.gone.filter fun x => x.sends.isEmpty).foldl (fun s x => reportExit s c x) s1

/-- A half-pushed matrix command of an exiting thread becomes a command that ends with BADCMD (spec/06 R155), where the
order has room. -/
def leaveHalf (s : State) (c slot : Nat) (t : Thread) : State :=
  match t.half with
  | none => s
  | some w => if (s.core c).slice.order.length < 16 then enterMatrix s c slot t .badHalf w 0 false else s

/-- A thread that has executed EXIT ends once every pending result is known (R107): the results are discarded, the lease
and the context slot are freed, and the exit is reported when its sends have been acknowledged. -/
def endThread (s : State) (c slot : Nat) : State :=
  match s.thread? c slot with
  | none => s
  | some t =>
    if !t.allKnown then s
    else
      let x : Gone := ⟨t.uid, slot, t.dom, t.task, t.group, t.sends, t.frec, t.fraddr⟩
      reportExits (((leaveHalf (endStreams s t.lease) c slot t).delThread c slot).modCore c fun k =>
        { k with gone := k.gone ++ [x], sinkq := k.sinkq ++ t.beats }) c

/-- The last beat of the oldest strip that a thread's sink streams are to take is written: the strip is handed over (spec/05 R128,
spec/06 R170). -/
def passBeat (s : State) (c slot : Nat) : Option State :=
  match s.thread? c slot with
  | none => none
  | some t =>
    match t.beats with
    | [] => none
    | q :: rest => some ((s.setThread c slot { t with beats := rest }).modCore c fun k => { k with sinkq := k.sinkq ++ [q] })

/-- Complete a chain that an event ends (R186): its queue port is popped, its result is written, PP is cleared, and the
thread goes on at the next chain, parked where the chain carried the marker (R35). -/
def completeChain (s : State) (c slot : Nat) (r : Resume) (x : Option Word) : State :=
  let s1 := match r.pop with
    | none => s
    | some port => match popPort s c slot port with
      | none => s
      | some (_, s') => s'
  let s2 := s1.modThread c slot fun t =>
    let t' := match x with | none => t | some v => t.setScalar r.d v
    { t' with pw := clearPP t'.pw, pc := r.next, atHome := none, status := if r.marker then .parked false else .ready }
  settle s2 c slot

/-- Complete a chain whose result is long: it becomes pending, known (R34). -/
def completeLong (s : State) (c slot : Nat) (r : Resume) (x : Word) : State :=
  let s1 := addPend s c slot (gRes r.d) (some [.g r.d.toNat x])
  completeChain s1 c slot r none

/-- Where a chain goes on when an event completes it. -/
def Ctx.resume (x : Ctx) (d : BitVec 4) (pop : Option Nat := none) : Resume := ⟨x.next, x.c.marker, d, pop, false⟩

/-- The queue port that a chain pops as a source, which an event that completes the chain pops. -/
def Ctx.popped (x : Ctx) : Option Nat := ((queueSources x.o x.c).head?).map portOf

/-- The thread waits, its chain not yet completed. -/
def hold (s : State) (x : Ctx) (st : Status) : Out :=
  .held (s.modThread x.core x.slot fun t => { t with status := st })

end Sys2Proof.Machine
end

