-- ==== Sys2Proof/Machine/BankDot.lean ====
section
/-! DEFINITION. Bank-dot chains (spec/06 R179-R181). -/

namespace Sys2Proof.Machine

/-- A configuration word within the limits of R179. -/
def bdcfgOk (w : Word) : Bool :=
  bits w 52 45 != 0 && [2, 4, 5, 7].contains (bits w 44 42) && [2, 4, 5].contains (bits w 41 39) &&
  bits w 27 22 == 0 && bits w 21 0 % 64 == 0

/-- Vector length, and its bytes (R179). -/
def bdLen (cfg : Word) : Nat := bits cfg 63 53 + 1
def bdVecBytes (cfg : Word) : Nat := bdLen cfg * (if bits cfg 41 39 == 2 then 2 else 1)

/-- BDCFG (R179). -/
def bdcfgBody (x : Ctx) (t : Thread) (s : State) : Out :=
  match readField s x t x.c.a with
  | .error w => .wait w
  | .ok (a, s', _) =>
    if bdcfgOk a then .done (s'.modThread x.core x.slot fun t => { t with bdcfg := a }) else x.trap cILLOP

/-- A result word that only carries a failure code (R180). -/
def bdFailure (code : Nat) : Word := word (code * 2 ^ 56)

/-- What a bank-dot chain does once its vector has been read (R180, R181): an address that can name no run is answered
at once; otherwise the request goes to the home of the run. -/
def bdotSend (s : State) (x : Ctx) (t : Thread) (a : Word) (vec : List Byte) (bad queued : Bool) : State :=
  let ticket := s.nextId
  let open' (v : Option Word) : State :=
    if queued then (s.modThread x.core x.slot fun t => { t with q3 := t.q3 ++ [(ticket, v)] }).bump
    else addPend s x.core x.slot (gRes x.c.d) (v.map fun w => [.g x.c.d.toNat w])
  if isWindow a then open' (some (bdFailure 5))
  else if bits a 63 56 != 0 then open' (some (bdFailure 2))
  else
    match regionOf (eaOff a) with
    | .dram =>
      (open' none).send (addressed s x.core x.slot t.uid 0 true a t.dom (s.domEntry x.core t).priv
        (.bdot t.bdcfg vec ticket queued bad))
    | _ => open' (some (bdFailure 2))

/-- BDOT and BDOTQ (R180, R181). -/
def bdotBody (queued : Bool) (x : Ctx) (t : Thread) (s : State) : Out :=
  if !bdcfgOk t.bdcfg then x.trap cILLOP
  else
    let k := s.core x.core
    let n := bdVecBytes t.bdcfg
    let o := bits t.bdcfg 21 0
    let va : Word := word (o + 0x00F0000000000000)
    match windowCheck (s.domEntry x.core t) va n 1 with
    | .error e => x.raise e
    | .ok _ =>
      if threadConflict k false ⟨0, o, n⟩ then x.trap cRLOCK 0 va
      else if queued && decide (32 ≤ t.q3.length) then .wait (.push 3)
      else
        let vec := (List.range n).map fun i => k.lstore.byte (o + i)
        .done (bdotSend s x t (t.scalar x.c.a) vec (poisonIn k 0 o n).isSome queued)

/-- BDCFG: set the bank-dot configuration (R179). -/
def execBdcfg (c : Chain) (s : State) : Host.Outcome State Fault Refusal :=
  issueChain .bdcfg c (bdcfgBody) s

/-- BDOT: dot product in a DRAM row (R180). -/
def execBdot (c : Chain) (s : State) : Host.Outcome State Fault Refusal :=
  issueChain .bdot c (bdotBody false) s

/-- BDOTQ: the result goes to q3 (R181). -/
def execBdotq (c : Chain) (s : State) : Host.Outcome State Fault Refusal :=
  issueChain .bdotq c (bdotBody true) s

end Sys2Proof.Machine
end

