-- ==== Sys2Proof/Machine/FrontOps.lean ====
section
/-! DEFINITION. What a front end sends (spec/14 R306, R310, R311, R313, R445; spec/15 R331). -/

namespace Sys2Proof.Machine

/-- A front end sends an access at pod scope in a packet's domain (R310, R445). The packet takes the state's next number.
-/
def feSend (s : State) (f dom : Nat) (addr : Word) (a : Access) : State :=
  let s1 := feUse s dom
  s1.send { addressed s1 1024 0 s.nextId 0 true addr dom (feDom s1 dom).priv (.access a) with src := frontEp s.logical f }

/-- An 8-byte access at pod scope. -/
def feAccess (op : AccOp) (v : Word) : Access := ⟨op, false, 3, 8, v, 0, 3, false⟩

/-- What is wrong with the address of an 8-byte access of a front end, before it is sent (R309, R310, R445). -/
def feAddrErr (a : Word) : Option TrapRec :=
  if a.toNat % 8 != 0 then some { cause := cALIGN, xaddr := a }
  else if bits a 63 56 != 0 then some { cause := cXLATE, detail := 4, xaddr := a }
  else if regionOf (eaOff a) == .reserved then some { cause := cXLATE, detail := 1, xaddr := a }
  else none

/-- A fault message from a front end (R331, R445). -/
def feFault (s : State) (f kind cause detail dom task : Nat) (addr w3 : Word) : State :=
  let s1 := feUse s dom
  s1.faultMessage (feDom s1 dom) (frontEp s.logical f) kind cause detail dom task addr w3

/-- The failure of a completion-word access of a task, or of a refused packet (R445): a fault message of kind 3 whose word 3 has
the layout of frec (spec/07 R221). -/
def completionFailed (s : State) (f : Nat) (task : Option Nat) (dom : Nat) (g : Failure) : State :=
  feFault s f 3 g.cause g.detail dom (task.getD 0) g.addr (word (2 ^ 63 + g.detail % 65536 * 2 ^ 16 + 3 * 2 ^ 8 + g.cause))

/-- Add to a completion word, where one is named (R306, R311): the access is remembered until it is acknowledged. -/
def addCompletion (s : State) (f : Nat) (task : Option Nat) (dom : Nat) (cplt v : Word) : State :=
  if cplt == 0 then s
  else match feAddrErr cplt with
  | some t => completionFailed s f task dom ⟨t.cause, t.detail, t.xaddr⟩
  | none => (feSend s f dom cplt (feAccess .aadd v)).modFe f fun x => { x with adds := x.adds ++ [(s.nextId, task, dom)] }

/-- A refused packet's completion word (R306). -/
def refusalAdd (s : State) (f dom : Nat) (ws : List Word) : State := addCompletion s f none dom (ws.getD 4 0) 0x100000000

/-- A spawn that cannot be placed (R313): a fault message of kind 5 to the supervisor of its domain with dword 0 and the
operand address, and the refusal count where it is sent. -/
def unplaceable (s : State) (f : Nat) (ws : List Word) (dom code : Nat) (operand : Word) (add : Bool) : State :=
  let s1 := feFault s f 5 code 0 dom 0 operand (ws.headD 0)
  if add then refusalAdd s1 f dom ws else s1

/-! ### Status and stops of a stream (R302, R308-R310) -/

/-- The status word of a front end (R302). -/
def FrontEnd.status (x : FrontEnd) : Word :=
  word (x.state * 2 ^ 62 + x.queue.length * 2 ^ 56 + x.code * 2 ^ 48 + x.lastid)

/-- A stream stops with a code (R308-R310): its packet is given up and the supervisor of its domain is told. -/
def stopStream (s : State) (f code : Nat) (addr : Word) : State :=
  let x : FrontEnd := { s.fe f with state := 3, code := code, cur := none, work := .idle }
  feFault (s.setFe f x) f 7 code 0 x.domain 0 addr x.status

/-- A front end has finished its packet (R304). -/
def FrontEnd.finish (x : FrontEnd) : FrontEnd := { x with state := 0, cur := none, work := .idle }

/-- The acknowledgement of a signal (R310). -/
def signalAcked (s : State) (f ref : Nat) (fail : Option Failure) : State :=
  let x := s.fe f
  match x.work with
  | .signal (some id) =>
    if id == ref then
      match fail with
      | none => s.setFe f x.finish
      | some g => stopStream s f 0x11 g.addr
    else s
  | _ => s

/-- A value meets the condition of a semaphore wait (R308). -/
def semaphoreMet (op : Nat) (v value : Word) : Bool :=
  match op with
  | 0 => decide (value.toNat ≤ v.toNat)
  | 1 => v == value
  | _ => v != value

/-- The answer of a semaphore read (R309). -/
def semaphoreRead (s : State) (f ref : Nat) (v : Word) (fail : Option Nat) : State :=
  let x := s.fe f
  match x.work, x.cur with
  | .semaphore start last (some id), some p =>
    if id == ref then
      match fail with
      | some _ => stopStream s f 0x11 (p.words.getD 1 0)
      | none =>
        if semaphoreMet (bits (p.words.getD 0 0) 59 58) v (p.words.getD 2 0) then s.setFe f x.finish
        else s.setFe f { x with work := .semaphore start last none }
    else s
  | _, _ => s

end Sys2Proof.Machine
end

