-- ==== Sys2Proof/Machine/ConfigOps.lean ====
section
/-! DEFINITION. The configuration region (spec/21 R429-R432): what its words read as. -/

namespace Sys2Proof.Machine

/-! ### Capability records (R429-R431) -/

/-- The base of a region named by a capability record, within the configuration region (R430). -/
def capBase (id : Nat) : Nat := (id - 1) * 0x100000

/-- The records of the list; recovery leaves identity and firmware (R436). -/
def capIds (s : State) : List Nat := if s.recovery then [14] else (List.range 14).map (· + 2)

/-- The global address of an offset of this cube's configuration region. -/
def configAddr (s : State) (o : Nat) : Word := word (s.logical * 2 ^ 42 + 0x3FC00000000 + o)

/-- A record with a base as its body, and the rest of the list. -/
def capTail (s : State) (at' : Nat) : List Nat → List Word
  | [] => []
  | id :: rest =>
    [word (id * 2 ^ 48 + 2 ^ 40 + 3 * 2 ^ 32), if rest.isEmpty then 0 else configAddr s (at' + 24),
      word (0x3FC00000000 + capBase id)] ++ capTail s (at' + 24) rest

/-- The capability list, from the start of the region (R429-R431, log 21). -/
def capWords (s : State) : List Word :=
  [word (2 ^ 48 + 2 ^ 40 + 5 * 2 ^ 32), configAddr s 40, word s.logical, word s.physical,
    word (flagBit s.ready 63 + s.revision * 2 ^ 8)] ++ capTail s 40 (capIds s)

/-! ### Blocks -/

/-- A word of a front-end block (spec/14 R302, R315). -/
def frontWord (s : State) (f q : Nat) : Option Word :=
  let x := s.fe f
  if q < 0x40 then some 0
  else if q == 0x40 then some x.status
  else if q == 0x48 then some (word x.domain)
  else if 0x1000 ≤ q then
    match tget x.records ((q - 0x1000) / 16) with
    | none => some 0
    | some r =>
      if q % 16 == 0 then some (word (r.state * 2 ^ 62 + r.held.length * 2 ^ 48 + r.id)) else some (word r.live)
  else none

/-- A word of a pre-emption block (spec/16 R349). -/
def preemptWord (s : State) (c q : Nat) : Word :=
  let k := s.core c
  match q with
  | 0x08 =>
    word (flagBit (k.stops.any fun x => x == 3 || x == 4) 63 + flagBit k.sealed 62 + k.threads.length * 2 ^ 48 +
      (k.threads.filter fun t => !t.2.stops.isEmpty || t.2.status == .stopped).length * 2 ^ 40 + k.buoys.length * 2 ^ 35)
  | 0x10 => k.hcyc
  | 0x18 => k.hsent
  | 0x20 => k.hrecv
  | 0x28 => k.sent
  | 0x30 => k.recv
  | 0x38 => word k.part
  | _ => 0

/-- Port p. -/
def State.port (s : State) (p : Nat) : Port := tgetD s.ports p {}

/-- A word of a port block (spec/19 R380). -/
def portWord (s : State) (p q : Nat) : Option Word :=
  let x := s.port p
  match q with
  | 0x00 =>
    some (word (x.state * 2 ^ 60 + x.lanes * 2 ^ 56 + x.peer * 2 ^ 42 + x.pport * 2 ^ 38 + flagBit x.txkph 37 +
      flagBit x.rxkph 36 + flagBit x.txst 35 + flagBit x.rxst 34 + flagBit x.prst 33 + flagBit x.warn 32 +
      x.pcls.toNat * 2 ^ 29))
  | 0x08 => some (word x.txctr)
  | 0x10 => some (word x.rxctr)
  | 0x18 => some (word (x.nres * 2 ^ 32 + x.nbad))
  | 0x20 => some (word (flagBit x.four 2 + flagBit x.en 0))
  | 0x28 | 0x30 | 0x38 | 0x40 => some 0
  | _ => none

/-- Eight path class entries (spec/19 R403). -/
def pathWord (s : State) (i : Nat) : Word :=
  word ((List.range 8).foldl (fun n j => n + (tgetD s.paths (8 * i + j) 0).toNat * 2 ^ (8 * j)) 0)

/-- A word of the link block (spec/19 R380, R397, R403, R404). -/
def linkWord (s : State) (q : Nat) : Option Word :=
  if q < 0x1000 then portWord s (q / 0x100) (q % 0x100)
  else if q < 0x2000 then some (tgetD s.tree ((q - 0x1000) / 8) 0)
  else if 0x4000 ≤ q && q < 0x6000 then some (tgetD s.routes ((q - 0x4000) / 8) 0)
  else if 0x8000 ≤ q && q < 0xBC00 then some (pathWord s ((q - 0x8000) / 8))
  else none

/-- A trigger state word (spec/14 R321). -/
def triggerWord (t : Trigger) : Word :=
  word (t.state * 2 ^ 62 + flagBit t.ovf 61 + t.held.length * 2 ^ 54 + t.drops * 2 ^ 32 + t.owner)

/-- A word of an error log (spec/20 R413; the places of the head index and of the overflow word are the model's, log 38).
-/
def elogWord (s : State) (q : Nat) : Option Word :=
  let g := s.log (q / 0x4000)
  let r := q % 0x4000
  if r < 0x2000 then
    match g.recs[(r / 32 + 256 - g.head % 256) % 256]? with
    | some w => w[r % 32 / 8]?
    | none => none
  else if r == 0x2000 then some (word g.head)
  else if r == 0x2008 then some (word g.dropped)
  else none

/-- A vertical health entry (spec/20 R415). -/
def vertWord (v : Vert) : Word := word (v.state * 2 ^ 62 + v.nbad * 2 ^ 52 + v.spare * 2 ^ 44 + v.nchg)

/-- A column limiter word (spec/21 R442). -/
def limiterWord (x : Limiter) : Word := word (x.loss * 2 ^ 32 + x.ptr * 2 ^ 8 + x.cap)

/-- A word of the firmware block (spec/21 R437, R440). -/
def firmWord (s : State) (q : Nat) : Option Word :=
  if q == 0x000 then some 0
  else if q == 0x008 then some (word s.firm.status)
  else if q == 0x010 then some (word s.firm.drops)
  else if 0x100 ≤ q && q < 0x130 then some (tgetD s.firm.nonce ((q - 0x100) / 8) 0)
  else if 0x200 ≤ q && q < 0x340 then s.firm.report[(q - 0x200) / 8]?
  else none

/-- What stands at an 8-aligned offset of the region, where the spec gives it a meaning. -/
def configWord (s : State) (o : Nat) : Option Word :=
  let q := o % 0x100000
  match o / 0x100000 with
  | 0 => (capWords s)[o / 8]?
  | 1 => if q < 0x80000 then frontWord s (q / 0x2000) (q % 0x2000) else none
  | 2 => if q < 1028 * 64 then some (preemptWord s (q / 64) (q % 64)) else none
  | 3 => linkWord s q
  | 4 => if q < 0x20000 then some (tgetD s.space (q / 8) 0) else none
  | 5 => if q < 15360 * 8 then some (tgetD s.aliases (q / 8) 0) else none
  | 6 => if q < 2048 then some (triggerWord (tgetD s.trig (q / 8) {})) else none
  | 7 => if q < 0x10000 then elogWord s q else none
  | 8 => if q < 1024 then some (vertWord (tgetD s.vert (q / 8) {})) else none
  | 9 => if q < 1028 * 8 then some 0 else none
  | 10 => if q < 0x10000 then some (s.subsetWord (q / 4096) (q % 4096 / 8)) else none
  | 12 => if q < 1024 then some (limiterWord (tgetD s.power (q / 8) {})) else none
  | 13 => firmWord s q
  | 14 => if q < 1028 * 8 then some (tgetD s.spillDesc (q / 8) 0) else none
  | _ => none

/-- An 8-byte load of the configuration region at an offset: anything by a privileged party, a capability record by any
(R258, R429). -/
def configLoad (s : State) (priv : Bool) (o : Nat) : Option Word :=
  if priv then some ((configWord s o).getD (Config.unassigned o))
  else if o < 0x100000 then (capWords s)[o / 8]?
  else none

end Sys2Proof.Machine
end

