-- ==== Sys2Proof/Machine/HomeOps.lean ====
section
/-! DEFINITION. What a home does with an access (spec/09 R258, R267; spec/07 R189-R202): its checks, range locks,
poison, the access itself, and full/empty words. -/

namespace Sys2Proof.Machine

/-- An 8-aligned address below an address. -/
def wordAddr (a : Word) : Word := a &&& ~~~ (7 : Word)

/-- The checks a home makes on an access before it performs it (R258, R341): none, or the failure. -/
def homeCheck (s : State) (home dom : Nat) (priv : Bool) (a : Access) (ea : Word) : Option TrapRec :=
  match regionOf (eaOff ea) with
  | .dram => none
  | .lstore _ _ => if ownerOk s home dom then none else some { cause := cOWNER, remote := true, xaddr := ea }
  | .config o =>
    if a.n == 8 && ((a.op == .ld && (priv || (configLoad s false o).isSome)) || (a.op == .st && priv)) then none
    else some { cause := cPERM, detail := 1, remote := true, xaddr := ea }
  | _ => some { cause := cPERM, detail := 1, remote := true, xaddr := ea }

/-- The bytes of a home that an access touches, as a span. -/
def accessSpan (a : Access) (ea : Word) (xl : Option Xl) : Option Span :=
  match regionOf (eaOff ea), xl with
  | .lstore _ o, _ => some ⟨0, o, a.n⟩
  | .dram, some x => if x.elided.isSome then none else some ⟨2, x.pa, a.n⟩
  | _, _ => none

/-- A range-lock entry of the home stands against the access (R146). -/
def homeLocked (s : State) (home : Nat) (a : Access) (ea : Word) (xl : Option Xl) : Bool :=
  match accessSpan a ea xl with
  | none => false
  | some sp => threadConflict (s.core home) a.op.isWrite sp

/-- Perform a load, atomic or store at its home, checks and locks apart: the old value, or the failure with nothing
performed. Stores to the configuration region are performed by `configStore`. -/
def homePerform (s : State) (home : Nat) (a : Access) (ea : Word) (xl : Option Xl) : Except TrapRec (Nat × State) :=
  let poisoned : Except TrapRec (Nat × State) := .error { cause := cPOISON, remote := true, xaddr := wordAddr ea }
  match regionOf (eaOff ea), xl with
  | .lstore _ o, _ => match performLocal s home o a with
    | .ok r => .ok r
    | .error _ => poisoned
  | .dram, some x => match performDram s home x a with
    | .ok r => .ok r
    | .error _ => poisoned
  | .config o, _ => match configLoad s true o with
    | some v => .ok (v.toNat, s)
    | none => .error { cause := cPERM, detail := 1, remote := true, xaddr := ea }
  | _, _ => .error { cause := cXLATE, detail := 1, remote := true, xaddr := ea }

/-- A thread's load or fetch atomic at its home (R189): checks, range lock, poison, then the access. -/
def performHere (s : State) (home dom : Nat) (priv : Bool) (a : Access) (ea : Word) (xl : Option Xl) :
    Except TrapRec (Nat × State) :=
  let s1 := s.useSpace home dom
  match homeCheck s1 home dom priv a ea with
  | some t => .error t
  | none =>
    if homeLocked s1 home a ea xl then .error { cause := cRLOCK, remote := true, xaddr := ea }
    else homePerform s1 home a ea xl

/-- Acknowledge a packet to its source, in its urgency class (R269). -/
def acknowledge (s : State) (p : Packet) (fail : Option Failure) : State :=
  s.send { directPacket s p.dst p.src p.urg p.uid p.slot (.ack p.id fail) with key := p.key }

/-- The failure that an acknowledgement carries for a trap cause. -/
def failureOf (t : TrapRec) : Failure := ⟨t.cause, t.detail, t.xaddr⟩

/-! ### Full/empty words (R200-R202) -/

/-- A word's tag is full. -/
def CoreSt.full (k : CoreSt) (w : Nat) : Bool := !k.empty.contains w

def CoreSt.setTag (k : CoreSt) (w : Nat) (f : Bool) : CoreSt :=
  let rest := k.empty.filter (· != w)
  { k with empty := if f then rest else w :: rest }

def CoreSt.feQueue (k : CoreSt) (w : Nat) : FeQueue := tgetD k.feq w {}

/-- Keep a word's queues; empty ones are not listed. -/
def CoreSt.setFeQueue (k : CoreSt) (w : Nat) (q : FeQueue) : CoreSt :=
  { k with feq := if q.loads.isEmpty && q.stores.isEmpty then tdel k.feq w else tset k.feq w q }

/-- Take a waiter out of a core's full/empty queues (R202). -/
def leaveFe (k : CoreSt) (x : FeWaiter) : CoreSt :=
  let without (q : FeQueue) : FeQueue := ⟨q.loads.filter (fun y => y.1 != x), q.stores.filter (fun y => y.1 != x)⟩
  { k with feq := (k.feq.map fun e => (e.1, without e.2)).filter fun e => !(e.2.loads.isEmpty && e.2.stores.isEmpty) }

/-- The sleeping thread of a slot leaves the queues. -/
def leaveFeSlot (k : CoreSt) (slot : Nat) : CoreSt :=
  leaveFe (leaveFe (leaveFe k (.load slot false)) (.load slot true)) (.storeThread slot)

/-- Store a word and set it full. -/
def fillWord (k : CoreSt) (w : Nat) (v : Word) : CoreSt :=
  { (cleanPoison k 0 (8 * w) 8).setTag w true with lstore := k.lstore.write (8 * w) 8 v.toNat }

/-- Deliver a full word to the oldest waiting load (R201): its thread takes the value, or POISON. -/
def deliverLoad (s : State) (c w slot : Nat) (empties : Bool) : State :=
  let k := s.core c
  match s.thread? c slot with
  | none => s
  | some t =>
    match t.status with
    | .sleeping _ _ _ r _ ea =>
      if k.poison.contains (0, w) then
        takeTrap (s.setThread c slot { t with status := .ready }) c slot
          { cause := cPOISON, remote := true, xaddr := wordAddr ea, xpc := t.pc }
      else
        let v := k.lstore.dword (8 * w)
        completeLong (if empties then s.modCore c fun k => k.setTag w false else s) c slot r v
    | _ => s

/-- Serve the oldest waiting STFE (R201). -/
def serveStore (s : State) (c w : Nat) (x : FeWaiter) : State :=
  match x with
  | .storeThread slot =>
    match s.thread? c slot with
    | none => s
    | some t =>
      match t.status with
      | .sleeping _ _ _ r v _ => completeChain (s.modCore c fun k => fillWord k w v) c slot r none
      | _ => s
  | .storeMsg id =>
    match s.packet? id with
    | none => s
    | some p =>
      match p.body with
      | .access a =>
        let fill (k : CoreSt) : CoreSt :=
          let k1 := fillWord k w a.val
          { k1 with poison := if p.bad.isEmpty then k1.poison else k1.poison ++ [(0, w)] }
        acknowledge ((s.modCore c fill).dropPacket id) p none
      | _ => s
  | .load _ _ => s

/-- resolve(w) of R201; each turn serves one waiter. -/
def resolveFe : Nat → State → Nat → Nat → State
  | 0, s, _, _ => s
  | fuel + 1, s, c, w =>
    let k := s.core c
    let q := k.feQueue w
    if k.full w then
      match q.loads with
      | (.load slot e, _) :: rest =>
        resolveFe fuel (deliverLoad (s.setCore c (k.setFeQueue w { q with loads := rest })) c w slot e) c w
      | _ => s
    else
      match q.stores with
      | (x, _) :: rest => resolveFe fuel (serveStore (s.setCore c (k.setFeQueue w { q with stores := rest })) c w x) c w
      | [] => s

/-- Resolve a word after a change of its tag. -/
def resolveWord (s : State) (c w : Nat) : State :=
  let q := (s.core c).feQueue w
  resolveFe (q.loads.length + q.stores.length) s c w

/-- A word of full/empty instructions stands in the way: its owner, then a range lock (R146, R258). -/
def feCheck (s : State) (home dom : Nat) (write : Bool) (o : Nat) (ea : Word) : Option TrapRec :=
  if !ownerOk s home dom then some { cause := cOWNER, remote := true, xaddr := ea }
  else if threadConflict (s.core home) write ⟨0, o, 8⟩ then some { cause := cRLOCK, remote := true, xaddr := ea }
  else none

/-- A thread at the home joins a word's queue and sleeps, and the word is resolved (R201): kind 0 LDFE, 1 LDFF, 2 STFE.
-/
def feThread (s : State) (c slot kind o : Nat) (r : Resume) (v ea : Word) : State :=
  let now := s.cyc c
  let w := o / 8
  let s1 := s.modThread c slot fun t => { t with status := .sleeping w kind now r v ea }
  let s2 := s1.modCore c fun k =>
    let q := k.feQueue w
    k.setFeQueue w (if kind == 2 then { q with stores := q.stores ++ [(.storeThread slot, now)] }
      else { q with loads := q.loads ++ [(.load slot (kind == 0), now)] })
  resolveWord s2 c w

/-- The number of STFE messages queued on a core (R202). -/
def queuedStfe (k : CoreSt) : Nat :=
  k.feq.foldl (fun n e => n + (e.2.stores.filter fun x => match x.1 with | .storeMsg _ => true | _ => false).length) 0

end Sys2Proof.Machine
end

