-- ==== Sys2Proof/Machine/Barrier.lean ====
section
/-! DEFINITION. Barrier instructions (spec/07 R203-R206). -/

namespace Sys2Proof.Machine

/-- The endpoint number that stands for the barrier units of a cube (log 108). -/
def barrierPort : Nat := 2001

/-- The number that stands for the way up tree 1 (spec/19 R409) where an endpoint names a cube; it is no cube number, which has
14 bits (spec/00 R3; log 108). -/
def treeUp : Nat := 16384

/-- The number that stands for the way down a tree (spec/19 R408, R409; log 108). -/
def treeDown : Nat := 16385

/-- The endpoint number that stands for a cube's combining point (spec/19 R406; log 108). -/
def treePort : Nat := 2002

/-- This cube is the root of tree 1, the pod barrier tree (spec/19 R404, R409). -/
def podRoot (s : State) : Bool := bit (tgetD s.tree 8 0) 63 && bits (tgetD s.tree 8 0) 60 56 == 31

/-- The barrier a chain names (R203, spec/14 R305). -/
def barName (s : State) (t : Thread) (c : Chain) (n : Nat) : BarName :=
  let sc := barrierScope s t c
  let base := if c.scope == .core then launchField s t.group 4 else 0
  match sc with
  | 0 => ⟨0, t.group.cube * 32 + t.group.die * 8 + t.group.cl, (n + base) % 64⟩
  | 1 => ⟨1, t.group.cube, (n + base) % 256⟩
  | _ => ⟨2, 0, n⟩

/-- The cube of a barrier's unit, as far as this cube knows. -/
def barCube (s : State) (b : BarName) : Nat :=
  match b.scope with
  | 0 => b.unit / 32
  | 1 => b.unit
  | _ => if podRoot s then s.logical else treeUp

/-- Scope × 256 + n (R217). -/
def barAddr (b : BarName) : Word := word ((b.scope + 1) * 256 + b.n)

/-- A core lies in the scope of a barrier (R253). -/
def inBarScope (s : State) (core : Nat) (b : BarName) : Bool :=
  match b.scope with
  | 0 => b.unit / 32 == s.logical && core < 1024 && clusterOf core == b.unit % 32
  | 1 => b.unit == s.logical
  | _ => true

/-- A record is of a phase, of which it may know bits 7:0 alone (R242). -/
def Arrival.isOf (a : Arrival) (phase : BitVec 32) : Bool :=
  if a.short then a.phase.toNat % 256 == phase.toNat % 256 else a.phase == phase

/-- The phase of a record of which bits 7:0 are known, within 127 below a unit's current phase, or the one with those bits next
above the current phase where there is none (R242). -/
def wholePhase (now low : BitVec 32) : BitVec 32 :=
  let back := (now - low).toNat % 256
  if back ≤ 127 then now - BitVec.ofNat 32 back else now + BitVec.ofNat 32 (256 - back)

/-- A barrier of a unit; E is 0 until BINIT. -/
def State.bar (s : State) (b : BarName) : Barrier := ((s.bars.find? fun e => e.1 == b).map (·.2)).getD {}

/-- A packet from a thread to a barrier unit. -/
def toUnit (s : State) (core slot uid : Nat) (b : BarName) (body : Body) : Packet :=
  directPacket s (s.ep core) (barCube s b * 2048 + barrierPort) 2 uid slot body

/-- The word BWAIT returns (R205). -/
def releasedWord (a : Arrival) : Word := word (a.phase.toNat * 2 ^ 32 + a.fa.toNat)

/-- BARR, BDROP and the arrival of BAW (R204): the thread waits for the unit's answer. A BAW whose record's phase has left the
unit's history raises detail 4 (spec/08 R253). -/
def arriveBody (drop waits : Bool) (x : Ctx) (t : Thread) (s : State) : Out :=
  let b := barName s t x.c x.immNat
  if waits && (t.arrival.map (·.lost)).getD false then x.trap cBOVER 4 (barAddr b)
  else if (t.arrival.map (fun a => !a.released)).getD false then x.trap cBOVER 1 (barAddr b)
  else
    let id := s.nextId
    let s1 := s.send (toUnit s x.core x.slot t.uid b (.barArrive b (pwFlags x.pw) drop))
    hold (s1.modThread x.core x.slot fun t => { t with rs := waits }) x (.awaiting id { x.resume x.c.d with fixed := true })

/-- A core that has no part in the barrier of a record asks the unit about it (R253). -/
def askUnit (s : State) (core slot uid : Nat) (a : Arrival) : State :=
  if inBarScope s core a.bar then s else s.send (toUnit s core slot uid a.bar (.barQuery a.bar a.phase a.short))

/-- BWAIT (R205, R253): the released record is read at once; a core outside the barrier's scope asks the unit. -/
def bwaitBody (x : Ctx) (t : Thread) (s : State) : Out :=
  let b := barName s t x.c x.immNat
  match t.arrival with
  | none => x.trap cILLOP
  | some a =>
    if a.bar != b then x.trap cILLOP
    else if a.lost then x.trap cBOVER 4 (barAddr b)
    else if a.released then
      writeField (s.modThread x.core x.slot fun t => { t with rs := false }) x x.c.d (releasedWord a) false 0
    else
      hold (askUnit s x.core x.slot t.uid a) x (.blocked (.barrierRelease (x.resume x.c.d)) (s.cyc x.core))

/-- BAW (R204): arrives, then waits as BWAIT. -/
def bawBody (x : Ctx) (t : Thread) (s : State) : Out :=
  if t.rs then bwaitBody x t s else arriveBody false true x t s

/-- BINIT (R206): the thread waits for the unit's answer. -/
def binitBody (x : Ctx) (t : Thread) (s : State) : Out :=
  match readField s x t x.c.a with
  | .error w => .wait w
  | .ok (a, _, _) =>
    if a.toNat == 0 || 2 ^ 26 < a.toNat then x.trap cILLOP
    else
      let b := barName s t x.c x.immNat
      let id := s.nextId
      hold (s.send (toUnit s x.core x.slot t.uid b (.barInit b a.toNat))) x
        (.awaiting id { x.resume 10 x.popped with fixed := true })

/-- BINIT: initialise a barrier (R206). -/
def execBinit (c : Chain) (s : State) : Host.Outcome State Fault Refusal :=
  issueChain .binit c (binitBody) s

/-- BARR: arrive (R204). -/
def execBarr (c : Chain) (s : State) : Host.Outcome State Fault Refusal :=
  issueChain .barr c (arriveBody false false) s

/-- BWAIT: wait for the release (R205). -/
def execBwait (c : Chain) (s : State) : Host.Outcome State Fault Refusal :=
  issueChain .bwait c (bwaitBody) s

/-- BAW: arrive and wait (R204). -/
def execBaw (c : Chain) (s : State) : Host.Outcome State Fault Refusal :=
  issueChain .baw c (bawBody) s

/-- BDROP: arrive and drop (R204). -/
def execBdrop (c : Chain) (s : State) : Host.Outcome State Fault Refusal :=
  issueChain .bdrop c (arriveBody true false) s

end Sys2Proof.Machine
end

