-- ==== Sys2Proof/Machine/Ctl.lean ====
section
/-! DEFINITION. Control registers (spec/07 R220, R221; spec/15 R325, R329; spec/21 R432-R434). -/

namespace Sys2Proof.Machine

/-- hdepth (R220). -/
def hdepthOf (t : Thread) : Word := word ((if t.inHandler then t.entryDepth * 16 + 8 else 0) + t.gates.length)

/-- The address of the first capability record (spec/21 R429; log 21). -/
def capsAddr (s : State) : Word := word (s.logical * 2 ^ 42 + 0x3FC00000000)

/-- The value of a control register (R220). -/
def readCtl (s : State) (core : Nat) (t : Thread) (sel : Nat) : Word :=
  let k := s.core core
  match sel with
  | 0 => t.xpc
  | 1 => t.xpw
  | 2 => t.xcause
  | 3 => t.xaddr
  | 4 => t.frec
  | 5 => t.fraddr
  | 6 => hdepthOf t
  | 7 => word t.dom
  | 8 => word (s.ep core)
  | 9 => word (mailSet k t.group).mberr.toNat
  | 0x10 => k.mwlim
  | 0x11 => k.mglim
  | 0x12 => k.fewlim
  | 0x20 => s.splitc
  | 0x21 => k.dtab
  | _ => capsAddr s

/-- A dtab value within the layout of spec/15 R325. -/
def dtabOk (w : Word) : Bool := bits w 63 44 == 0 && bits w 31 22 == 0 && bits w 5 0 == 0

/-- Stop a thread whose domain has become invalid on its core (spec/15 R330). -/
def stopInvalid (s : State) (c slot : Nat) : State :=
  match s.thread? c slot with
  | none => s
  | some t => if (s.domEntry c t).ok || t.status == .stopped then s else stopThread s c slot t cPERM 5

/-- Write dtab (spec/15 R329, R330): the copies of all the entries that the core has used are taken afresh, and threads whose domain
is invalid stop. -/
def writeDtab (s : State) (c : Nat) (w : Word) : State :=
  let k := s.core c
  let k1 := { k with dtab := w }
  let k2 := k1.threads.foldl (fun k t => useDom k t.2.dom) { k1 with doms := k.doms.map fun e => (e.1, readDom k1 e.1) }
  k2.threads.foldl (fun s t => stopInvalid s c t.1) (s.setCore c k2)

/-- Write splitc (spec/21 R432, R434): bits that are 0 while the UCIe link is down are stored as 1. -/
def writeSplitc (s : State) (w : Word) : State := { s with splitc := if s.ucieUp then w &&& 0x7F else 0x7F }

/-- Clear dead-letter bits of a group's set (R220). -/
def clearMberr (s : State) (c : Nat) (g : GroupId) (w : Word) : State :=
  s.modCore c fun k =>
    let m := mailSet k g
    if m.mberr == 0 then k else setMail k g { m with mberr := m.mberr &&& ~~~ (BitVec.ofNat 16 w.toNat) }

/-- frec is cleared by writing 0 (R220). -/
def clearFrec (s : State) (c slot : Nat) (w : Word) : State :=
  if w == 0 then s.modThread c slot fun t => { t with frec := 0 } else s

/-- Write a control register (R220). -/
def writeCtl (s : State) (c slot : Nat) (t : Thread) (sel : Nat) (w : Word) : State :=
  match sel with
  | 0 => s.modThread c slot fun t => { t with xpc := w &&& 0x3FFFE }
  | 1 => s.modThread c slot fun t => { t with xpw := w }
  | 2 => s.modThread c slot fun t => { t with xcause := w &&& 0xFFFFC0FF }
  | 3 => s.modThread c slot fun t => { t with xaddr := w }
  | 4 => clearFrec s c slot w
  | 9 => clearMberr s c t.group w
  | 0x10 => s.modCore c fun k => { k with mwlim := w }
  | 0x11 => s.modCore c fun k => { k with mglim := w }
  | 0x12 => s.modCore c fun k => { k with fewlim := w }
  | 0x20 => writeSplitc s w
  | 0x21 => writeDtab s c w
  | _ => s

/-- CTLR (R220). -/
def ctlrBody (x : Ctx) (t : Thread) (s : State) : Out :=
  writeField s x x.c.d (readCtl s x.core t x.immNat) false 0

/-- CTLW (R220): a dtab value that breaks its layout raises ILLOP; a thread whose own domain the new table makes invalid has
stopped (spec/15 R330). -/
def ctlwBody (x : Ctx) (t : Thread) (s : State) : Out :=
  match readField s x t x.c.a with
  | .error w => .wait w
  | .ok (a, s', _) =>
    if x.immNat == 0x21 && !dtabOk a then x.trap cILLOP
    else
      let s1 := writeCtl (s'.modThread x.core x.slot fun u => { u with pc := x.next }) x.core x.slot t x.immNat a
      if (s1.thread? x.core x.slot).any fun u => u.status == .stopped then .over s1 else .done s1

/-- CTLR: read a control register (R220). -/
def execCtlr (c : Chain) (s : State) : Host.Outcome State Fault Refusal :=
  issueChain .ctlr c (ctlrBody) s

/-- CTLW: write a control register (R220). -/
def execCtlw (c : Chain) (s : State) : Host.Outcome State Fault Refusal :=
  issueChain .ctlw c (ctlwBody) s

end Sys2Proof.Machine
end

