-- ==== Sys2Proof/Machine/Admit.lean ====
section
/-! DEFINITION. A thread takes a context of a core (spec/08 R245, R246, R253; spec/15 R330; spec/16 R350, R351):
placement, admission of a ferry, restoration. -/

namespace Sys2Proof.Machine

/-- The lowest free queue slot of a core (spec/08 R246). -/
def freeQueue (k : CoreSt) : Nat := ((List.range 64).find? fun i => (tget k.queues i).isNone).getD 63

/-- The thread's launch has a queue on the core, created where it has none (R245, R246). -/
def joinQueue (s : State) (c : Nat) (task : Nat) (g : GroupId) : State :=
  let k := s.core c
  let q : RunQueue := { task := task, group := g, level := launchField s g 0 % 16, tickets := launchField s g 1 }
  if k.queues.any (fun q => q.2.task == task) then s
  else s.setCore c { k with queues := tset k.queues (freeQueue k) q }

/-- The stops that meet a thread of a group on a core (spec/16 R350, R351). -/
def stopsOn (s : State) (c : Nat) (g : GroupId) : List Nat :=
  (s.core c).stops ++ (if s.gstops.contains g then [1] else [])

/-- A phase is later than another (32 bits, modular). -/
def laterPhase (x y : BitVec 32) : Bool := decide (0 < (x - y).toInt)

/-- Resolve an unreleased arrival record against the core's release table, or ask the unit (R253). -/
def resolveRecord (s : State) (c slot : Nat) : State :=
  match s.thread? c slot with
  | none => s
  | some t =>
    match t.arrival with
    | none => s
    | some a =>
      if a.released || a.lost then s
      else
        let known := (s.core c).rel.find? fun r => r.bar == a.bar
        let scoped' := inBarScope s c a.bar
        match known with
        | some r =>
          if scoped' && a.isOf r.phase then
            s.setThread c slot
              { t with arrival := some { a with released := true, fa := r.fa, phase := r.phase, short := false } }
          else if !scoped' || laterPhase r.phase a.phase then
            s.send (toUnit s c slot t.uid a.bar (.barQuery a.bar a.phase a.short))
          else s
        | none => if scoped' then s else s.send (toUnit s c slot t.uid a.bar (.barQuery a.bar a.phase a.short))

/-- Put a thread into a context slot as the newest of its queue (R245, R246, R250), its domain checked (spec/15 R330) and
its arrival record resolved. -/
def seat (s : State) (c slot : Nat) (t : Thread) : State :=
  let s1 := joinQueue s c t.task t.group
  let t' := { t with order := s.nextId, stops := stopsOn s c t.group, span := [], lastIssue := none }
  let s2 := (s1.setThread c slot t').bump.modCore c fun k => useDom k t.dom
  resolveRecord (stopInvalid s2 c slot) c slot

/-- The vector windows that leases of a core hold, and the number of leases (spec/01 R29). -/
def leasedWindows (k : CoreSt) : Nat := k.threads.foldl (fun n t => n + (t.2.lease.map (·.windows)).getD 0) 0
def leaseCount (k : CoreSt) : Nat := (k.threads.filter fun t => t.2.lease.isSome).length

/-- A lease of some windows can be granted at once (spec/05 R122). -/
def leaseRoom (k : CoreSt) (windows : Nat) : Bool := leasedWindows k + windows ≤ 4 && leaseCount k < 4

/-- A register outside the vector file, whose parity a change of the lease leaves. -/
def scalarRes (r : Res) : Bool :=
  match r with
  | .v _ | .m _ => false
  | _ => true

/-- A lease is granted (spec/05 R122): its registers and masks read as zero, none is a stream. -/
def Thread.leased (t : Thread) (windows : Nat) : Thread :=
  { t with lease := some ⟨windows, [], [], []⟩, parity := t.parity.filter scalarRes }

end Sys2Proof.Machine
end

