-- ==== Sys2Proof/Machine/Global.lean ====
section
/-! DEFINITION. Loads, stores, atomics and fences of the global space (spec/07 R188-R199). -/

namespace Sys2Proof.Machine

/-! ### Operands and checks at issue (R188-R190) -/

/-- The width of an access of this mnemonic and etype (R188, R192). -/
def accessBytes (o : Op) (et : Nat) : Nat :=
  match o with
  | .ldfe | .ldff | .stfe | .stff | .feclr => 8
  | .afadd | .fafadd => (fmtOf et).width / 8
  | _ => etBytes et

/-- The etype of the access: i64 for the full/empty instructions. -/
def accessEt (o : Op) (et : Nat) : Nat :=
  match o with
  | .ldfe | .ldff | .stfe | .stff | .feclr => 3
  | _ => et

/-- The checks of R188 in its order: the global address, or the trap. -/
def globalCheck (s : State) (x : Ctx) (t : Thread) (ea : Word) (n : Nat) : Except TrapRec Word :=
  if isWindow ea then
    match windowCheck (s.domEntry x.core t) ea n n with
    | .error e => .error e
    | .ok o => .ok (localGlobal s.logical x.core o)
  else if ea.toNat % n != 0 then .error { cause := cALIGN, xaddr := ea }
  else if bits ea 63 56 != 0 then .error { cause := cXLATE, detail := 4, xaddr := ea }
  else if regionOf (eaOff ea) == .reserved then .error { cause := cXLATE, detail := 1, xaddr := ea }
  else if x.c.scope != .pod && eaCube ea != s.logical then .error { cause := cPERM, detail := 2, xaddr := ea }
  else .ok ea

/-- The address lies in a local store of the partitioned space (R200). -/
def inLocalStore (ea : Word) : Bool :=
  match regionOf (eaOff ea) with
  | .lstore _ _ => true
  | _ => false

/-- The checks at issue of a chain whose operation is `op` (R188, R200). -/
def issueCheck (s : State) (x : Ctx) (t : Thread) (op : AccOp) (ea : Word) : Except TrapRec Word :=
  match globalCheck s x t ea (accessBytes x.o x.et) with
  | .error e => .error e
  | .ok g => if op.isFe && !inLocalStore g then .error { cause := cPERM, detail := 3, xaddr := ea } else .ok g

/-- The access of a chain. -/
def Ctx.access (x : Ctx) (op : AccOp) (fetch : Bool) (v cmp : Word) : Access :=
  ⟨op, fetch, accessEt x.o x.et, accessBytes x.o x.et, v, cmp, x.c.scope.code, x.c.nt⟩

/-- The urgency class of a chain's packets (R269). -/
def Ctx.urgency (x : Ctx) : Nat := if x.c.urg then 1 else 0

/-! ### Loads and fetch atomics (R189, R192-R194, R39) -/

/-- Earlier messages of the thread to its own core, at a slice still or on their way, that have not been performed (R274). -/
def ownPending (s : State) (core : Nat) (t : Thread) : Bool :=
  s.net.any fun p => p.uid == t.uid && p.src == s.ep core && p.stage != .queued &&
    (match p.body with | .access _ => true | _ => false) && boundFor s p == some (s.ep core)

/-- Ask the slice for a moored thread's access: a request that carries no thread state (R194); the thread waits for its answer,
which is a trap. -/
def sendRequest (s : State) (x : Ctx) (t : Thread) (a : Access) (ea : Word) : Out :=
  let id := s.nextId
  let p := { addressed s x.core x.slot t.uid x.urgency true ea t.dom (s.domEntry x.core t).priv (.request a) with seq := t.aseq }
  let s1 := if a.fetch then s.modThread x.core x.slot fun t => { t with aseq := t.aseq + 1 } else s
  hold (s1.post p) x (.awaiting id (x.resume x.c.d x.popped))

/-- A free thread is to depart in a ferry (R39, R238); a moored one raises MOORED (R194). -/
def departOr (s : State) (x : Ctx) (t : Thread) (kind : Nat) (remote write : Bool) (ea : Word) : Out :=
  if t.moored then .trap { cause := cMOORED, remote := remote, xaddr := ea, xpc := x.start }
  else hold s x (.departing kind ea x.urgency write)

/-- The thread's chain is handed to a full/empty word, its predicate word and its queue port as before the issue. -/
def asleep (s0 : State) (x : Ctx) (f : State → State) : Out :=
  .over (f (s0.modThread x.core x.slot fun t => { t with pw := x.pw }))

/-- The permission to write that a ferry's access finds missing at its home (R189, spec/15 R338). -/
def homeWrite (a : Access) (ea : Word) (xl : Option Xl) : Option TrapRec :=
  match xl with
  | none => none
  | some y =>
    if !a.needsW then none
    else if y.elided.isSome then some { cause := cXLATE, detail := 2, remote := true, xaddr := ea }
    else if !y.write then some { cause := cPERM, detail := 1, remote := true, xaddr := ea }
    else none

/-- Perform a load or fetch atomic on the thread's own core (R189), behind the thread's earlier messages there (R274); LDFE
and LDFF sleep where the word is empty (R201). `s0` is the state in which no queue port was popped. -/
def loadHere (s0 s : State) (x : Ctx) (t : Thread) (a : Access) (ea : Word) (xl : Option Xl) : Out :=
  let priv := (s.domEntry x.core t).priv
  if ownPending s x.core t then .wait .ownMessages
  else match a.op, regionOf (eaOff ea) with
  | .ldfe, .lstore _ o => match feCheck s x.core t.dom true o ea with
    | some e => x.raise e
    | none => asleep s0 x (feThread · x.core x.slot 0 o (x.resume x.c.d x.popped) 0 ea)
  | .ldff, .lstore _ o => match feCheck s x.core t.dom false o ea with
    | some e => x.raise e
    | none => asleep s0 x (feThread · x.core x.slot 1 o (x.resume x.c.d x.popped) 0 ea)
  | _, _ =>
    match homeWrite a ea xl with
    | some e => x.raise e
    | none =>
      match performHere s x.core t.dom priv a ea xl with
      | .error e => x.raise e
      | .ok (old, s1) =>
        let s2 := if a.fetch then s1.modThread x.core x.slot fun t => { t with aseq := t.aseq + 1 } else s1
        .done (addPend s2 x.core x.slot (gRes x.c.d) (some [.g x.c.d.toNat (fetchValue a old)]))

/-- A load or fetch atomic whose home the address names (R189, R194). -/
def loadDirect (s0 s : State) (x : Ctx) (t : Thread) (a : Access) (ea : Word) (home : Nat) : Out :=
  if (t.atHome.map (·.1)) == some ea || eaCube ea * 2048 + home == s.ep x.core then loadHere s0 s x t a ea none
  else departOr s0 x t 0 true a.needsW ea

/-- A load or fetch atomic of DRAM (R189, R194): performed here where the thread's ferry has brought it to the home, or where the
translation of its cube names this core; else a free thread departs, and a moored one asks the slice. -/
def loadDram (s0 s : State) (x : Ctx) (t : Thread) (a : Access) (ea : Word) : Out :=
  let arrived := t.atHome.bind fun h => if h.1 == ea then some h.2 else none
  let away := if t.moored then sendRequest s0 x t a ea else departOr s0 x t 0 true a.needsW ea
  match arrived with
  | some xl => loadHere s0 s x t a ea (some xl)
  | none =>
    if eaCube ea != s.logical then away
    else
      let y := translateUse s ea t.dom (s.domEntry x.core t).priv a.needsR a.needsW x.core
      match y.1 with
      | .ok (xl, home) => if home == x.core then loadHere s0 y.2 x t a ea (some xl) else away
      | .error _ => away

/-- Where a load or fetch atomic is performed (R189, R194). `s0` is the state in which no queue port was popped. -/
def loadFrom (s0 s : State) (x : Ctx) (t : Thread) (a : Access) (ea : Word) : Out :=
  match regionOf (eaOff ea) with
  | .lstore h _ => loadDirect s0 s x t a ea h
  | .bstore h _ => loadDirect s0 s x t a ea h
  | .config _ => loadDirect s0 s x t a ea 1024
  | .dram => loadDram s0 s x t a ea
  | .reserved => x.trap cXLATE 1 ea

/-- LD, LDFE, LDFF, the fetch atomics and SWP (R189, R192). -/
def loadBody (op : AccOp) (fetch : Bool) (x : Ctx) (t : Thread) (s : State) : Out :=
  match memAddr s x t with
  | .error w => .wait w
  | .ok (ea, s1, _) =>
    match issueCheck s1 x t op ea with
    | .error e => x.raise e
    | .ok g => loadFrom s s1 x t (x.access op fetch (t.scalar x.c.d) 0) g

/-- CAS (R193): its address is ga + imm, its comparand gb. -/
def casBody (x : Ctx) (t : Thread) (s : State) : Out :=
  match readField s x t x.c.b with
  | .error w => .wait w
  | .ok (b, s1, _) =>
    match issueCheck s1 x t .cas (t.scalar x.c.a + x.imm) with
    | .error e => x.raise e
    | .ok g => loadFrom s s1 x t (x.access .cas true (t.scalar x.c.d) b) g

/-! ### Messages (R191, R192, R195, R200) -/

/-- The atomic class of an operation (R195): 0 integer atomics and SWP, 1 CAS, 2 float atomics; none for a store. -/
def atomicClass (op : AccOp) : Option Nat :=
  match op with
  | .aadd | .aand | .aor | .axor | .amin | .amax | .aminn | .amaxn | .swp => some 0
  | .cas => some 1
  | .afadd => some 2
  | _ => none

/-- The path to a cube carries an atomic class (R195): every class within a cube. -/
def pathCarries (s : State) (cube cls : Nat) : Bool := cube == s.logical || bit (tgetD s.paths cube 0) cls

/-- Send a message to the home of an address and count it for FENCE (R191, R192, R198). Stores and atomics alike take the thread's
next sequence number (R197, spec/20 R421; log 118). -/
def sendMessage (s : State) (x : Ctx) (t : Thread) (a : Access) (ea : Word) : State :=
  let id := s.nextId
  let p := { addressed s x.core x.slot t.uid x.urgency true ea t.dom (s.domEntry x.core t).priv (.access a) with
    seq := t.aseq }
  (s.post p).modThread x.core x.slot fun t =>
    { t with sends := t.sends ++ [(id, a.scope)], aseq := t.aseq + 1 }

/-- Every send that a fence of a scope counts has been acknowledged (R198). -/
def fenceClear (t : Thread) (scope : Nat) : Bool := t.sends.all fun e => scope < e.2

/-- The fault record holds a failure that a fence of a scope covers (R199, R221). -/
def recordCovered (t : Thread) (scope : Nat) : Bool := bit t.frec 63 && decide (bits t.frec 15 8 ≤ scope)

/-- The recorded failure as a trap (R199). -/
def recordTrap (t : Thread) (pc : Nat) : TrapRec :=
  { cause := bits t.frec 7 0, detail := bits t.frec 31 16, remote := true, more := bit t.frec 62, xaddr := t.fraddr,
    xpc := pc, record := true }

/-- FENCE (R198, R199), then what follows it. -/
def fenceThen (scope : Nat) (x : Ctx) (t : Thread) (next : Out) : Out :=
  if !fenceClear t scope then .wait (.fence scope)
  else if recordCovered t scope then .trap (recordTrap t x.start)
  else next

/-- An STFE whose home is the issuing core (R200): performed there, asleep while the word is full. -/
def stfeHere (s0 s : State) (x : Ctx) (t : Thread) (a : Access) (ea : Word) (o : Nat) : Out :=
  if ownPending s x.core t then .wait .ownMessages
  else match feCheck s x.core t.dom true o ea with
    | some e => x.raise e
    | none => asleep s0 x (feThread · x.core x.slot 2 o (x.resume 10 x.popped) a.val ea)

/-- Send a store, message atomic or full/empty message after its checks (R191, R195, R200). -/
def messageTo (s0 s : State) (x : Ctx) (t : Thread) (a : Access) (ea : Word) : Out :=
  let lacking := match atomicClass a.op with
    | none => false
    | some c => !pathCarries s (eaCube ea) c
  if lacking then departOr s0 x t 1 false true ea
  else match a.op, regionOf (eaOff ea) with
    | .stfe, .lstore h o =>
      if eaCube ea == s.logical && h == x.core then stfeHere s0 s x t a ea o else .done (sendMessage s x t a ea)
    | _, _ => .done (sendMessage s x t a ea)

/-- ST, the message atomics, STFE, STFF and FECLR; STREL with the fence of its own scope (R191, R192, R200). -/
def messageBody (op : AccOp) (release : Bool) (x : Ctx) (t : Thread) (s : State) : Out :=
  match memAddr s x t with
  | .error w => .wait w
  | .ok (ea, s1, _) =>
    match (if op == .feclr then .ok (0, s1, false) else readField s1 x t x.c.d) with
    | .error w => .wait w
    | .ok (v, s2, _) =>
      match issueCheck s2 x t op ea with
      | .error e => x.raise e
      | .ok g =>
        let send := messageTo s s2 x t (x.access op false v 0) g
        if release then fenceThen x.c.scope.code x t send else send

/-- FENCE (R198). -/
def fenceBody (x : Ctx) (t : Thread) (s : State) : Out := fenceThen x.c.scope.code x t (.done s)

/-- LD: load from the global space (R189). -/
def execLd (c : Chain) (s : State) : Host.Outcome State Fault Refusal :=
  issueChain .ld c (loadBody .ld false) s

/-- ST: store message (R191). -/
def execSt (c : Chain) (s : State) : Host.Outcome State Fault Refusal :=
  issueChain .st c (messageBody .st false) s

/-- STREL: fence, then store (R191). -/
def execStrel (c : Chain) (s : State) : Host.Outcome State Fault Refusal :=
  issueChain .strel c (messageBody .st true) s

/-- AADD: message atomic (R192). -/
def execAadd (c : Chain) (s : State) : Host.Outcome State Fault Refusal :=
  issueChain .aadd c (messageBody .aadd false) s

/-- AAND: message atomic (R192). -/
def execAand (c : Chain) (s : State) : Host.Outcome State Fault Refusal :=
  issueChain .aand c (messageBody .aand false) s

/-- AOR: message atomic (R192). -/
def execAor (c : Chain) (s : State) : Host.Outcome State Fault Refusal :=
  issueChain .aor c (messageBody .aor false) s

/-- AXOR: message atomic (R192). -/
def execAxor (c : Chain) (s : State) : Host.Outcome State Fault Refusal :=
  issueChain .axor c (messageBody .axor false) s

/-- AMIN: message atomic (R192). -/
def execAmin (c : Chain) (s : State) : Host.Outcome State Fault Refusal :=
  issueChain .amin c (messageBody .amin false) s

/-- AMAX: message atomic (R192). -/
def execAmax (c : Chain) (s : State) : Host.Outcome State Fault Refusal :=
  issueChain .amax c (messageBody .amax false) s

/-- AMINN: message atomic (R192). -/
def execAminn (c : Chain) (s : State) : Host.Outcome State Fault Refusal :=
  issueChain .aminn c (messageBody .aminn false) s

/-- AMAXN: message atomic (R192). -/
def execAmaxn (c : Chain) (s : State) : Host.Outcome State Fault Refusal :=
  issueChain .amaxn c (messageBody .amaxn false) s

/-- AFADD: message atomic (R192). -/
def execAfadd (c : Chain) (s : State) : Host.Outcome State Fault Refusal :=
  issueChain .afadd c (messageBody .afadd false) s

/-- FAADD: fetch atomic (R192). -/
def execFaadd (c : Chain) (s : State) : Host.Outcome State Fault Refusal :=
  issueChain .faadd c (loadBody .aadd true) s

/-- FAAND: fetch atomic (R192). -/
def execFaand (c : Chain) (s : State) : Host.Outcome State Fault Refusal :=
  issueChain .faand c (loadBody .aand true) s

/-- FAOR: fetch atomic (R192). -/
def execFaor (c : Chain) (s : State) : Host.Outcome State Fault Refusal :=
  issueChain .faor c (loadBody .aor true) s

/-- FAXOR: fetch atomic (R192). -/
def execFaxor (c : Chain) (s : State) : Host.Outcome State Fault Refusal :=
  issueChain .faxor c (loadBody .axor true) s

/-- FAMIN: fetch atomic (R192). -/
def execFamin (c : Chain) (s : State) : Host.Outcome State Fault Refusal :=
  issueChain .famin c (loadBody .amin true) s

/-- FAMAX: fetch atomic (R192). -/
def execFamax (c : Chain) (s : State) : Host.Outcome State Fault Refusal :=
  issueChain .famax c (loadBody .amax true) s

/-- FAMINN: fetch atomic (R192). -/
def execFaminn (c : Chain) (s : State) : Host.Outcome State Fault Refusal :=
  issueChain .faminn c (loadBody .aminn true) s

/-- FAMAXN: fetch atomic (R192). -/
def execFamaxn (c : Chain) (s : State) : Host.Outcome State Fault Refusal :=
  issueChain .famaxn c (loadBody .amaxn true) s

/-- FAFADD: fetch atomic (R192). -/
def execFafadd (c : Chain) (s : State) : Host.Outcome State Fault Refusal :=
  issueChain .fafadd c (loadBody .afadd true) s

/-- SWP: swap (R192). -/
def execSwp (c : Chain) (s : State) : Host.Outcome State Fault Refusal :=
  issueChain .swp c (loadBody .swp true) s

/-- CAS: compare and swap (R193). -/
def execCas (c : Chain) (s : State) : Host.Outcome State Fault Refusal :=
  issueChain .cas c (casBody) s

/-- FENCE: wait for acknowledgements (R198, R199). -/
def execFence (c : Chain) (s : State) : Host.Outcome State Fault Refusal :=
  issueChain .fence c (fenceBody) s

end Sys2Proof.Machine
end

