-- ==== Sys2Proof/Machine/NetOps.lean ====
section
/-! DEFINITION. Packets on their way (spec/09 R269-R274, R280): their order, what a buoy claims (spec/16 R365), answers
to waiting threads, and what becomes of a packet that fails (spec/07 R194-R196; spec/08 R243; spec/15 R338, R339). -/

namespace Sys2Proof.Machine

/-! ### Order (R269-R272) -/

/-- Channels of which one does not wait for what another's destination refuses (R245, R280): 0 messages and requests, 1
acknowledgements and replies, 2 ferries, 3 landed packets and engine reads. -/
def Packet.channel (p : Packet) : Nat :=
  match p.body with
  | .ack _ _ | .reply _ _ _ | .delivered _ _ _ | .engineAck _ _ _ _ _ | .engineData _ _ _ _ | .barAnswer _ _ _ _
  | .barReply _ _ _ | .barRelease _ _ _ => 1
  | .ferry _ => 2
  | .landed _ _ _ _ | .engineRead _ _ => 3
  | _ => 0

/-- A packet is held at its core by the seal (spec/16 R364). -/
def heldBySeal (s : State) (p : Packet) : Bool :=
  p.stage == .home && epCube p.dst == s.logical && (s.core (epCore p.dst)).sealed && p.claimable && p.channel != 2

/-- A packet has reached its destination and waits there, or the mesh has dropped it. -/
def delivered (s : State) (p : Packet) : Bool :=
  p.stage == .held || p.stage == .queued || p.stage == .lost || heldBySeal s p

/-- The messages held at a core by range locks (R280). -/
def heldAt (s : State) (dst : Nat) : List Packet := s.net.filter fun q => q.stage == .held && q.dst == dst

/-- A home holds 32 messages, by locks or by its seal, and accepts no further ordered-class message (R280, spec/16 R364). -/
def heldFull (s : State) (dst : Nat) : Bool :=
  decide (32 ≤ (s.net.filter fun q => q.dst == dst && (q.stage == .held || (q.channel == 0 && heldBySeal s q))).length)

/-- The ring of a core's spill area: its physical address and its 128-byte slots (spec/21 R430). -/
def spillRing (s : State) (c : Nat) : Nat × Nat :=
  let d := tgetD s.spillDesc c 0
  (bits d 26 0 * 4096, bits d 63 56 * 32)

/-- A core takes no further ferry from the mesh (spec/08 R245). -/
def ferriesFull (s : State) (c : Nat) : Bool :=
  let k := s.core c
  !(decide (k.inbox.length < 8) && k.spill.isEmpty) && decide ((spillRing s c).2 ≤ k.spill.length)

/-- A packet has come to a destination that does not take it now; it holds back no packet of another channel (spec/08 R245,
R280). -/
def refused (s : State) (p : Packet) : Bool :=
  p.stage == .home && epCube p.dst == s.logical &&
    (match p.channel with
      | 0 => heldFull s p.dst
      | 2 => ferriesFull s (epCore p.dst)
      | _ => false)

/-- The packets sent before one. -/
def earlier (net : List Packet) (p : Packet) : List Packet := net.takeWhile fun q => q.id != p.id

/-- No earlier packet of the same source, destination, ordering class and urgency class is still under way (R272), but for one
that its destination refuses, in another channel. -/
def clearPath (s : State) (p : Packet) : Bool :=
  !p.ordered || (earlier s.net p).all fun q =>
    !(q.ordered && q.source == p.source && q.urg == p.urg && !delivered s q && q.stage != .waiting &&
      boundFor s q == some p.dst && (q.channel == p.channel || !refused s q))

/-- No earlier packet of the same source, urgency class and 64 KiB granule is still at a slice (R270). -/
def clearSlice (s : State) (p : Packet) : Bool :=
  !p.ordered || (earlier s.net p).all fun q =>
    !(q.ordered && q.source == p.source && q.urg == p.urg && q.addr.toNat / 65536 == p.addr.toNat / 65536 &&
      (match q.stage with | .slice | .walk _ _ => true | _ => false))

/-- The packet is a row command, which registers its locks through the slices itself. -/
def Packet.isRow (p : Packet) : Bool := match p.body with | .rowCmd _ _ _ _ _ _ => true | _ => false

/-- The packet of a number that has come to a core of this cube, in order, and that its home accepts (R272, R280). -/
def arriving (s : State) (id : Nat) : Option Packet :=
  match s.packet? id with
  | none => none
  | some p =>
    if p.stage == .home && epCube p.dst == s.logical && clearPath s p &&
      !(p.ordered && p.channel == 0 && heldFull s p.dst && !heldBySeal s p) then some p
    else none

/-! ### Buoys (spec/16 R365) -/

/-- The buoy of a core that claims a packet. -/
def claimedBy (s : State) (v : Nat) (p : Packet) : Option (Nat × Buoy) := if p.claimable then buoyOf s v p.dom else none

/-- A packet that has come to a core is handled there: neither held by a seal (R364) nor claimed by a buoy. -/
def handledAt (s : State) (v : Nat) (p : Packet) : Bool :=
  (claimedBy s v p).isNone && !((s.core v).sealed && p.claimable)

/-! ### Answers to waiting threads -/

/-- The thread that waits for the answer to a packet, with its place and how it goes on. -/
def awaiter (s : State) (uid ref : Nat) : Option (Nat × Nat × Thread × Resume) :=
  match s.where? uid with
  | none => none
  | some (c, slot) =>
    match s.thread? c slot with
    | none => none
    | some t =>
      match t.status with
      | .awaiting id r => if id == ref then some (c, slot, t, r) else none
      | _ => none

/-- A trap that answers a waiting chain (R194). -/
def answerTrap (s : State) (c slot : Nat) (t : Thread) (x : TrapRec) : State :=
  takeTrap (s.setThread c slot { t with status := .ready }) c slot { x with xpc := t.pc }

/-- An answer of value and failure reaches the waiting thread, or the pending bank-dot result, it is for (R180, R194); one
that was lost is a bank-dot result of code 2. -/
def answered (s : State) (uid ref : Nat) (v : Word) (fail : Option Nat) (addr : Word) : State :=
  match awaiter s uid ref with
  | some (c, slot, t, r) =>
    match fail with
    | some f => answerTrap s c slot t { cause := f % 256, detail := f / 256, remote := true, xaddr := addr }
    | none => completeLong s c slot r v
  | none =>
    match s.where? uid with
    | none => s
    | some (c, slot) =>
      s.modThread c slot fun t =>
        { t with
          pend := t.pend.map fun p =>
            if p.id == ref then
              { p with writes := some ((p.writes.getD []) ++ [.g p.d (if fail.isSome then word (2 * 2 ^ 56) else v)]) } else p }

/-- Answer a packet to the core that sent it: at once within the cube, by a reply packet to another cube or a front end. -/
def answerTo (s : State) (p : Packet) (ref : Nat) (v : Word) (fail : Option Nat) (addr : Word) : State :=
  if epCube p.src == s.logical && epCore p.src < 1028 then answered s p.uid ref v fail addr
  else s.send { directPacket s p.dst p.src p.urg p.uid p.slot (.reply ref v fail) with key := p.key, addr := addr }

/-- A bank-dot result goes back to the issuing core (R180, R181). -/
def bdotReply (s : State) (p : Packet) (ticket : Nat) (v : Word) : State :=
  s.send { directPacket s p.dst p.src p.urg p.uid p.slot (.reply ticket v none) with key := p.key }

/-- The failure code of a trap. -/
def failCode (t : TrapRec) : Nat := t.cause + 256 * t.detail

/-- A moored thread's request has found its home (R194): it raises MOORED, but for one whose home is its own core after all,
whose chain issues again. -/
def awayFrom (s : State) (p : Packet) (dst : Nat) : State :=
  if dst != p.src then answerTo s p p.id 0 (some cMOORED) p.addr
  else match awaiter s p.uid p.id with
    | none => s
    | some (c, slot, t, _) => s.setThread c slot { t with status := .ready }

/-! ### Failed packets -/

/-- A packet that a translation slice fails (R339): a ferry bounces (R243), a message is acknowledged as failed (R196), a
waiting thread traps (R194), an engine operation stops (R177), a bank-dot request answers code 2 (R180), a spawn is
unplaceable (R313). -/
def failAtSlice (s : State) (p : Packet) (t : TrapRec) : State :=
  let s1 := s.dropPacket p.id
  let f := failureOf { t with xaddr := p.addr }
  match p.body with
  | .ferry f =>
    { s with net := s1.net ++ [{ p with
        stage := if epCube p.src == s.logical then .home else .gateway, dst := p.src, src := s.logical * 2048 + slicePort,
        body := .ferry { f with kind := 2, bcause := t.cause, bdetail := t.detail } }] }
  | .access _ => acknowledge s1 p (some f)
  | .request _ => answerTo s1 p p.id 0 (some (failCode t)) p.addr
  | .engineRead g q => s1.send (directPacket s1 p.dst g.core p.urg p.uid p.slot (.engineAck g q 0 1 (some f)))
  | .landed g q _ _ => s1.send (directPacket s1 p.dst g.core p.urg p.uid p.slot (.engineAck g q 0 1 (some f)))
  | .rowCmd g _ src dst _ _ =>
    s1.send (directPacket s1 p.dst g.core p.urg p.uid p.slot (.engineAck g ⟨src, dst, 32, 0⟩ 0 1 (some f)))
  | .bdot _ _ ticket _ _ => bdotReply s1 p ticket (word (2 * 2 ^ 56))
  | .spawn ws operand _ => unplaceable s1 56 ws p.dom (0x20 + t.cause) operand true
  | _ => s1

end Sys2Proof.Machine
end

