-- ==== Sys2Proof/Machine/Stream.lean ====
section
/-! DEFINITION. Stream registers (spec/06 R168, R171). -/

namespace Sys2Proof.Machine

/-- A signed 32-bit field. -/
def sx32 (n : Nat) : Int := (BitVec.ofNat 32 n).toInt

/-- The pattern of a descriptor (R168). -/
def patternOf (d0 d1 d2 d3 : Word) : Pattern :=
  { base := d0.toNat, s0 := sx32 (bits d1 31 0), s1 := sx32 (bits d1 63 32), s2 := sx32 (bits d2 31 0),
    c0 := bits d2 47 32, c1 := bits d2 63 48, c2 := bits d3 15 0, tag := bits d3 23 20, cnt := bit d3 19,
    urg := bit d3 18, nt := bit d3 17, sink := bit d3 16 }

/-- A pattern that R168 refuses. -/
def patternBad (p : Pattern) (d3 : Word) : Bool :=
  p.c0 == 0 || p.c1 == 0 || p.c2 == 0 || bits d3 63 24 != 0 || p.base % 8 != 0 || p.s0 % 8 != 0 || p.s1 % 8 != 0 ||
  p.s2 % 8 != 0 || (!p.cnt && p.tag != 0)

/-- The number of strips. -/
def Pattern.count (p : Pattern) : Nat := p.c0 * p.c1 * p.c2

/-- The lowest and the highest offset of a strip from strip 0. -/
def Pattern.reach (p : Pattern) : Int × Int :=
  let lo (n : Nat) (st : Int) : Int := if st < 0 then ((n - 1 : Nat) : Int) * st else 0
  let hi (n : Nat) (st : Int) : Int := if st < 0 then 0 else ((n - 1 : Nat) : Int) * st
  (lo p.c0 p.s0 + lo p.c1 p.s1 + lo p.c2 p.s2, hi p.c0 p.s0 + hi p.c1 p.s1 + hi p.c2 p.s2)

/-- The base as an engine address (R148): a window base is checked for every strip and becomes global. -/
def streamBase (s : State) (core : Nat) (e : DomCopy) (p : Pattern) : Except TrapRec Nat :=
  let a : Word := word p.base
  if isWindow a then
    let lo := (bits a 51 0 : Int) + p.reach.1
    let hi := (bits a 51 0 : Int) + p.reach.2 + 128
    if decide (lo < 0) || !e.guard lo.toNat (hi - lo).toNat then .error { cause := cLGUARD, xaddr := a }
    else .ok (localGlobal s.logical core (bits a 51 0)).toNat
  else .ok p.base

/-- SMODE (R168). -/
def smodeBody (x : Ctx) (t : Thread) (s : State) : Out :=
  if (t.stream? x.c.vd).isSome then x.trap cILLOP
  else
    match memAddr s x t with
    | .error w => .wait w
    | .ok (ea, s', _) =>
      let e := s'.domEntry x.core t
      match windowLoad (s'.core x.core) e ea 32 8 with
      | .error r => x.raise r
      | .ok v =>
        let d (i : Nat) : Word := word (v / 2 ^ (64 * i))
        let p := patternOf (d 0) (d 1) (d 2) (d 3)
        if patternBad p (d 3) then x.trap cILLOP
        else
          match streamBase s' x.core e p with
          | .error r => x.raise r
          | .ok b =>
            let st : Stream :=
              { pat := { p with base := b }, op := s'.nextId, dom := t.dom, priv := e.priv, key := (s'.core x.core).owner }
            .done (s'.bump.modThread x.core x.slot fun t =>
              (t.setVreg x.c.vd 0 |> fun t => { t with lease := t.lease.map fun l =>
                { l with streams := tset l.streams x.c.vd st } }))

/-- SSTOP (R171). -/
def sstopBody (x : Ctx) (t : Thread) (s : State) : Out :=
  let s1 := match t.stream? x.c.vd with
    | some st => if st.pat.sink || st.coming.isEmpty then s else endStream s st
    | none => s
  .done (s1.modThread x.core x.slot fun t =>
    (t.setVreg x.c.vd 0 |> fun t => { t with lease := t.lease.map fun l =>
      { l with streams := tdel l.streams x.c.vd } }))

/-- SMODE: a vector register becomes a stream (R168). -/
def execSmode (c : Chain) (s : State) : Host.Outcome State Fault Refusal :=
  issueChain .smode c (smodeBody) s

/-- SSTOP: end stream mode (R171). -/
def execSstop (c : Chain) (s : State) : Host.Outcome State Fault Refusal :=
  issueChain .sstop c (sstopBody) s

end Sys2Proof.Machine
end

