-- ==== Sys2Proof/Machine/EngineOps.lean ====
section
/-! DEFINITION. The copy engine (spec/06 R145-R149, R169, R170, R172-R177): pieces, range locks of a chunk, faults,
acknowledgements. -/

namespace Sys2Proof.Machine

/-! ### Operations and their pieces -/

def State.copyOp? (s : State) (core id : Nat) : Option CopyOp := tget (s.core core).copies id

def State.setCopyOp (s : State) (core id : Nat) (op : CopyOp) : State :=
  s.modCore core fun k => { k with copies := tset k.copies id op }

/-- The piece of an operation that begins at a byte of it, before `stop` (log 18). -/
def pieceAt (op : CopyOp) (pos stop : Nat) : Piece :=
  let len := max 1 (rowLen op.kind op.gb)
  let src := rowSrc op.kind op.gb op.src (pos / len) + pos % len
  let dst := rowDst op.kind op.gb op.dst (pos / len) + pos % len
  ⟨src, dst, min (min (len - pos % len) (stop - pos)) (min (32 - src % 32) (32 - dst % 32)), pos⟩

def piecesFrom (op : CopyOp) : Nat → Nat → Nat → List Piece
  | 0, _, _ => []
  | fuel + 1, pos, stop =>
    if stop ≤ pos then []
    else
      let p := pieceAt op pos stop
      p :: piecesFrom op fuel (pos + max 1 p.len) stop

/-- The end of the current chunk: at most 64 KiB (R147). -/
def CopyOp.chunkEnd (op : CopyOp) : Nat := min op.total (op.pos + 65536)

/-- The pieces of the current chunk. -/
def chunkPieces (op : CopyOp) : List Piece := piecesFrom op ((op.chunkEnd - op.pos) / 8 + 1) op.pos op.chunkEnd

/-- The pieces of a strip of 128 bytes at an address, its bytes at `src` and `dst` alike. -/
def stripPieces (addr : Nat) : List Piece :=
  let op : CopyOp :=
    { kind := 1, seq := 0, tag := 0, uid := 0, slot := 0, group := {}, task := 0, dom := 0, priv := false, key := 0,
      scope := 0, urg := false, nt := false, dst := addr, src := addr, gb := 128, total := 128 }
  chunkPieces op

/-! ### Locks of a chunk (R147) -/

/-- The home of an engine address in this cube, with the bytes it takes there, and the first touch of its page (R263); none for
another cube, and no bytes for an elided page. -/
def sideHome (s : State) (dom : Nat) (priv : Bool) (core a len : Nat) (write : Bool) :
    Except TrapRec (Option (Nat × Span)) × State :=
  let ea := word a
  if bits ea 63 56 != 0 then (.error { cause := cXLATE, detail := 4, xaddr := ea }, s)
  else if eaCube ea != s.logical then (.ok none, s)
  else match regionOf (eaOff ea) with
    | .lstore h o => (.ok (some (h, ⟨0, o, len⟩)), s)
    | .bstore h o => (.ok (some (h, ⟨1, o, len⟩)), s)
    | .dram =>
      let r := translateUse s ea dom priv (!write) write core
      match r.1 with
      | .error t => (.error t, r.2)
      | .ok (x, home) => (.ok (if x.elided.isSome then none else some (home, ⟨2, x.pa, len⟩)), r.2)
    | _ => (.error { cause := cXLATE, detail := 1, xaddr := ea }, s)

/-- Add a span to a list, joined to the last where it goes on from it. -/
def joinSpan (sp : Span) : List Span → List Span
  | [] => [sp]
  | x :: rest => if x.store == sp.store && x.lo + x.len == sp.lo then { x with len := x.len + sp.len } :: rest else sp :: x :: rest

/-- Add a piece's side to the entries of a chunk, one per home and mode. -/
def addSide (owner : LockOwner) (write : Bool) (p : Piece) (side : Option (Nat × Span)) (ls : List (Nat × RangeLock)) :
    List (Nat × RangeLock) :=
  match side with
  | none => ls
  | some (h, sp) =>
    if ls.any (fun l => l.1 == h && l.2.write == write) then
      ls.map fun l => if l.1 == h && l.2.write == write then
        (l.1, { l.2 with spans := joinSpan sp l.2.spans, pieces := p :: l.2.pieces }) else l
    else ls ++ [(h, ⟨owner, write, [sp], [p]⟩)]

/-- The entries that pieces need at their homes, reads and writes as asked, or the first fault. -/
def pieceLocks (owner : LockOwner) (dom : Nat) (priv : Bool) (core : Nat) (reads writes : Bool) :
    List Piece → List (Nat × RangeLock) → State → Except TrapRec (List (Nat × RangeLock)) × State
  | [], ls, s => (.ok ls, s)
  | p :: rest, ls, s =>
    let a := if reads then sideHome s dom priv core p.src p.len false else (.ok none, s)
    match a.1 with
    | .error t => (.error t, a.2)
    | .ok x =>
      let b := if writes then sideHome a.2 dom priv core p.dst p.len true else (.ok none, a.2)
      match b.1 with
      | .error t => (.error t, b.2)
      | .ok y => pieceLocks owner dom priv core reads writes rest (addSide owner true p y (addSide owner false p x ls)) b.2

/-- The entries of the current chunk of an operation. -/
def chunkLocks (s : State) (core id : Nat) (op : CopyOp) : Except TrapRec (List (Nat × RangeLock)) × State :=
  pieceLocks (.copy core id) op.dom op.priv core (op.kind != 5) op.tree.isNone (chunkPieces op) [] s

/-- The next home at which a chunk registers, in increasing order (R147). -/
def nextHome (ls : List (Nat × RangeLock)) (done : List Nat) : Option Nat :=
  ((ls.map (·.1)).filter fun h => !done.contains h).min?

/-- Register entries at one home, all or none. -/
def registerAll (k : CoreSt) : List RangeLock → Option CoreSt
  | [] => some k
  | l :: rest =>
    match registerLock k l with
    | none => none
    | some k' => registerAll k' rest

/-- What a step of registration comes to (R147): every home holds its entries, one more does (`last` says that it was the last),
or the next one's table is full or has to wait. -/
inductive Registered where
  | all
  | more (home : Nat) (last : Bool) (s : State)
  | waits
  deriving DecidableEq, Repr

/-- Register entries at the next home that does not hold them yet. -/
def registerStep (s : State) (ls : List (Nat × RangeLock)) (homes : List Nat) : Registered :=
  match nextHome ls homes with
  | none => .all
  | some h =>
    match registerAll (s.core h) ((ls.filter fun l => l.1 == h).map (·.2)) with
    | none => .waits
    | some k => .more h (nextHome ls (homes ++ [h])).isNone (s.setCore h k)

/-- The owner of an engine packet's range locks. -/
def EngineTag.owner (g : EngineTag) : LockOwner :=
  match g.ref with
  | .copy id => .copy (epCore g.core) id
  | .stream _ _ op => .stream op
  | .sink id => .stream id
  | .area _ => .folio 64 0

/-! ### Faults (R177, R331, R332) -/

/-- The global address of a resume word (spec/21 R430). -/
def resumeAddr (s : State) (core entry : Nat) : Word :=
  word (s.logical * 2 ^ 42 + 0x3FC00B00000 + 8 * (32 * core + entry))

/-- Fault messages of kinds 1 and 2, reported by a core for an operation of the endpoint `issuer`, go to the issuing thread's
supervisor, or to the steward of the issuing core's die in the hardware mode (R331, spec/21 R433). -/
def faultFrom (s : State) (reporter issuer kind dom task : Nat) (f : Failure) (w3 : Word) : State :=
  let me := s.ep reporter
  if bit s.splitc 1 then
    s.send (faultPacket s me (epCube issuer * 2048 + stewardOf (epCore issuer))
      (faultWords me kind f.cause f.detail dom task f.addr w3) firmwareTask)
  else
    (s.modCore reporter fun k => useDom k dom).faultMessage (domOf (s.core reporter) dom) me kind f.cause f.detail dom task
      f.addr w3

/-- A fault message of kind 1 or 2 that the issuing core itself reports. -/
def engineFault (s : State) (core kind dom task : Nat) (f : Failure) (w3 : Word) : State :=
  faultFrom s core (s.ep core) kind dom task f w3

/-- An operation stops at a fault (R177); its message follows. -/
def CopyOp.stop (op : CopyOp) (f : Failure) : CopyOp :=
  match op.phase with
  | .register | .moving => { op with phase := .faulted f.cause f.detail f.addr op.entry false }
  | _ => op

/-- A thread that a message's failure is recorded for: resident, or exited (R196). -/
def recordFor (s : State) (core uid scope : Nat) (f : Failure) : State :=
  let upd (a b : Word) : Word × Word :=
    if bit a 63 then (a ||| 0x4000000000000000, b)
    else (word (2 ^ 63 + f.detail % 65536 * 2 ^ 16 + scope * 2 ^ 8 + f.cause), f.addr)
  match s.where? uid with
  | some (c, slot) => s.modThread c slot fun t =>
      let r := upd t.frec t.fraddr
      { t with frec := r.1, fraddr := r.2 }
  | none => s.modCore core fun k => { k with gone := k.gone.map fun x =>
      if x.uid == uid then
        let r := upd x.frec x.fraddr
        { x with frec := r.1, fraddr := r.2 }
      else x }

/-- A strip of a stream of a thread, by the number of the stream. -/
def modStream (s : State) (core slot v op : Nat) (f : Stream → Stream) : State :=
  s.modThread core slot fun t => { t with lease := t.lease.map fun l =>
    { l with streams := l.streams.map fun e => if e.1 == v && e.2.op == op then (e.1, f e.2) else e } }

def findStream (s : State) (core slot v op : Nat) : Option (Thread × Stream) :=
  match s.thread? core slot with
  | none => none
  | some t =>
    match t.lease with
    | none => none
    | some l =>
      match tget l.streams v with
      | none => none
      | some st => if st.op == op then some (t, st) else none

/-- A strip of a source stream stops at a fault (R169), which its domain's supervisor is told of; its locks stay, as a copy's do. A
piece of a stream that has ended releases its own. -/
def stopStrip (s : State) (core slot v op : Nat) (p : Option Piece) (f : Failure) : State :=
  match findStream s core slot v op with
  | none => p.elim s fun p => pieceDropped s (.stream op) p
  | some (t, st) =>
    let s1 := modStream s core slot v op fun st => { st with stuck := p.toList ++ st.stuck }
    if st.faulted.isSome then s1
    else
      let e := freeEntry (s.core core)
      engineFault (modStream s1 core slot v op fun st => { st with faulted := some e }) core 1 st.dom t.task f
        (resumeAddr s core e)

/-- Change the sink strip of a number. -/
def modSink (s : State) (core id : Nat) (f : SinkStrip → SinkStrip) : State :=
  s.modCore core fun k => { k with sinkq := k.sinkq.map fun q => if q.id == id then f q else q }

def findSink (s : State) (core id : Nat) : Option SinkStrip := (s.core core).sinkq.find? fun q => q.id == id

/-- A sink strip stops at a fault, of one of its pieces or as it registers (R170, R177). -/
def stopSink (s : State) (core id : Nat) (p : Option Piece) (f : Failure) : State :=
  match findSink s core id with
  | none => s
  | some q =>
    let s1 := modSink s core id fun q => { q with stuck := p.toList ++ q.stuck }
    if q.faulted.isSome then s1
    else
      let e := freeEntry (s.core core)
      engineFault (modSink s1 core id fun q => { q with faulted := some e }) core 1 q.dom q.task f (resumeAddr s core e)

/-! ### Packets of the copy engine -/

/-- Ask a source home for a piece (R279). -/
def sendRead (s : State) (core slot uid dom urg : Nat) (priv : Bool) (g : EngineTag) (p : Piece) : State :=
  s.post { addressed s core slot uid urg false (word p.src) dom priv (.engineRead g p) with key := g.key }

/-- The tag of a copy's packets. -/
def CopyOp.tagOf (op : CopyOp) (s : State) (core id : Nat) : EngineTag :=
  { core := s.ep core, ref := .copy id, group := op.group, tag := op.tag, count := true, key := op.key, nt := op.nt,
    task := op.task }

def urgencyOf (urg : Bool) : Nat := if urg then 1 else 0

/-- Ask for pieces of a copy. -/
def sendReads (s : State) (core id : Nat) (op : CopyOp) (ps : List Piece) : State :=
  ps.foldl (fun s p => sendRead s core op.slot op.uid op.dom (urgencyOf op.urg) op.priv (op.tagOf s core id) p) s

/-- Where a piece of an operation goes: a multicast's to the root core, to the members of this cube and down the tree
(spec/19 R408), any other to its destination. -/
def branches (s : State) (op : CopyOp) (p : Piece) : List Piece :=
  match op.tree with
  | some (t, none) =>
    let w4 := s.treeWord t 4
    let first := bits w4 42 32
    let members := (List.range (bits w4 10 0)).map fun i => first + i
    let off := p.dst % 0x400000
    let root := bits (s.treeWord t 2) 10 0
    let cores := if members.contains root then members else root :: members
    let here := cores.map fun c => { p with dst := (localGlobal s.logical c off).toNat }
    if bits (s.treeWord t 0) 55 40 == 0 then here
    else here ++ [{ p with dst := (treeDown + t) * 2 ^ 42 + p.dst % 2 ^ 42 }]
  | _ => [p]

/-- Send a row command to the cube of its rows (R183, spec/19 R394). -/
def sendRow (s : State) (core id : Nat) (op : CopyOp) : State :=
  s.send { addressed s core op.slot op.uid (urgencyOf op.urg) false (word op.dst) op.dom op.priv
      (.rowCmd (op.tagOf s core id) op.kind op.src op.dst [] false) with key := op.key }

/-- The locks of a chunk are held: a copy's pieces move, a row command can be performed, or goes to the cube of its rows. -/
def beginChunk (s : State) (core id : Nat) (op : CopyOp) : State :=
  let ps := chunkPieces op
  if op.kind ≤ 3 then
    sendReads (s.setCopyOp core id { op with phase := .moving, flying := ps.flatMap (branches s op), stuck := [] }) core id op ps
  else if op.dst / 2 ^ 42 % 2 ^ 14 != s.logical then
    sendRow (s.setCopyOp core id { op with phase := .moving, flying := ps.take 1 }) core id op
  else s.setCopyOp core id { op with phase := .moving }

/-- A chunk is done: its locks are released, and the next chunk registers or the operation is done (R147, R176). -/
def endChunk (s : State) (core id : Nat) (op : CopyOp) : State :=
  let pos := op.chunkEnd
  (releaseEverywhere s (.copy core id)).setCopyOp core id
    { op with pos := pos, homes := [], phase := if op.total ≤ pos then .done (if op.dropped then 2 else 0) else .register }

/-- The data of a piece has come to the engine: it goes to its destination as a landed packet (R175), or down a tree, whose number
stands above treeDown in place of a cube (spec/19 R408). -/
def sendLanded (s : State) (core slot uid dom urg : Nat) (priv : Bool) (ordered : Bool) (g : EngineTag) (p : Piece)
    (data : List Byte) (poison : List Bool) : State :=
  let q := { addressed s core slot uid urg ordered (word p.dst) dom priv (.landed g p data poison) with key := g.key }
  let t := p.dst / 2 ^ 42
  s.post (if t < treeDown then q
    else { q with dst := treeDown * 2048 + epCore q.dst, stage := .gateway, addr := word (p.dst % 2 ^ 42), tree := t - treeDown })

/-- Little-endian bytes as a number. -/
def byteListNum : List Byte → Nat
  | [] => 0
  | b :: bs => b.toNat + 256 * byteListNum bs

/-- Bits as a number, the first lowest. -/
def bitsNum : List Bool → Nat
  | [] => 0
  | b :: bs => (if b then 1 else 0) + 2 * bitsNum bs

/-- The bytes of a block among pieces that have been read, each with its poison. -/
def blockBytesOf (ps : List (Piece × List Byte × List Bool)) (base : Nat) : List (Byte × Bool) :=
  (List.range 256).map fun i =>
    match ps.find? fun e => decide (e.1.dst ≤ base + i) && decide (base + i < e.1.dst + e.1.len) with
    | some e => ((e.2.1[base + i - e.1.dst]?).getD 0, (e.2.2[(base + i - e.1.dst) / 8]?).getD false)
    | none => (0, false)

/-- The width in bytes of a tree's elements (spec/19 R404). -/
def treeBytes (s : State) (t : Nat) : Nat :=
  let w := s.treeWord t 1
  if bit w 61 then etBytes (bits w 60 58) else (fmtOf (bits w 60 58)).width / 8

/-- A contribution to a block goes to the combining point of its cube (spec/19 R405). -/
def sendTensor (s : State) (core id : Nat) (op : CopyOp) (t c base : Nat) (bs : List (Byte × Bool)) : State :=
  let w := max 1 (treeBytes s t)
  let n := 256 / w
  let x : Tensor :=
    { tree := t, block := (base % 0x400000 - bits (s.treeWord t 3) 43 22) / 256, lo := c, hi := c + 1,
      elems := (List.range n).map fun i => byteListNum (((bs.drop (w * i)).take w).map (·.1)),
      poison := (List.range n).map fun i => ((bs.drop (w * i)).take w).any (·.2),
      tag := op.tagOf s core id, dom := op.dom }
  s.send { directPacket s (s.ep core) (s.ep treePort) (urgencyOf op.urg) op.uid op.slot (.tensor x) with
    ordered := false, key := op.key, addr := word base }

/-- Data of a piece of a contribution: a block whose data is complete is sent (spec/19 R405). -/
def contribute (s : State) (core id : Nat) (op : CopyOp) (t c : Nat) (p : Piece) (data : List Byte) (poison : List Bool) :
    State :=
  let base := p.dst / 256 * 256
  let ps := op.parts ++ [(p, data, poison)]
  let mine := ps.filter fun e => e.1.dst / 256 * 256 == base
  if ((mine.map fun e => e.1.len).foldl (· + ·) 0 : Nat) < 256 then s.setCopyOp core id { op with parts := ps }
  else sendTensor (s.setCopyOp core id { op with parts := ps.filter fun e => e.1.dst / 256 * 256 != base }) core id op t c base
    (blockBytesOf mine base)

/-- A line of a context area in another cube has been answered. -/
def areaLine (s : State) (core id no : Nat) (f : AreaOp → AreaOp) : State :=
  s.modCore core fun k => { k with areas := k.areas.map fun a =>
    if a.id == id && a.todo.contains no then { f a with todo := a.todo.filter (· != no) } else a }

/-- Data of a source piece returns to the engine: a copy sends it on; a stream's strip is complete with its last piece
(R169). -/
def engineDataBack (s : State) (core : Nat) (g : EngineTag) (p : Piece) (data : List Byte) (poison : List Bool) : State :=
  match g.ref with
  | .copy id =>
    match s.copyOp? core id with
    | none => s
    | some op =>
      match op.phase with
      | .moving =>
        match op.tree with
        | some (t, some c) => contribute s core id op t c p data poison
        | _ => ((branches s op p).filter fun q => op.flying.contains q).foldl (fun s q =>
            sendLanded s core op.slot op.uid op.dom (urgencyOf op.urg) op.priv false g q data poison) s
      | _ => s.setCopyOp core id { op with stuck := p :: op.stuck }
  | .stream slot v op =>
    modStream s core slot v op fun st =>
      let coming := st.coming.map fun e => if e.1 == p then (e.1, some (data, poison)) else e
      if !st.coming.any (fun e => e.1 == p && e.2.isNone) then st
      else if coming.all fun e => e.2.isSome then
        let bytes := coming.flatMap fun e => (e.2.getD ([], [])).1
        let bad := coming.flatMap fun e => (e.2.getD ([], [])).2
        { st with coming := [], homes := [], asked := false, fetched := st.fetched + 1,
                  strips := st.strips ++ [(BitVec.ofNat 1024 (byteListNum bytes), BitVec.ofNat 16 (bitsNum bad))] }
      else { st with coming := coming }
  | .sink _ => s
  | .area id => areaLine s core id p.no fun a => { a with got := a.got ++ [(p.no, data, poison)] }

/-- A piece that lands in DRAM is counted where its operation was issued (R175). -/
def countsHere (p : Piece) : Bool := regionOf (p.dst % 2 ^ 42) == .dram

/-- A dropped piece (R177, R345): the fault message of kind 2 and the sender's fault record. -/
def dropReport (s : State) (core uid scope dom task : Nat) (p : Piece) : State :=
  let f : Failure := ⟨cOWNER, 0, word p.dst⟩
  recordFor (engineFault s core 2 dom task f (word p.dst)) core uid scope f

/-- An acknowledgement of a piece reaches the engine (R175-R177): code 2 dropped, a failure, or words written; of a row command,
code 16 where it took the in-array path. None where a count finds no free mailbox set. -/
def engineAcked (s : State) (core : Nat) (g : EngineTag) (p : Piece) (words code : Nat) (fail : Option Failure) :
    Option State :=
  let row := match g.ref with
    | .copy id => ((s.copyOp? core id).map fun op => decide (4 ≤ op.kind)).getD false
    | _ => false
  let counted := g.count && countsHere p && fail.isNone && code == 0 && !row
  if counted && !mailRoom (s.core core) g.group then none
  else
    let s1 := if counted then s.modCore core fun k => addMail k g.group g.tag words else s
    match g.ref with
    | .copy id =>
      match s1.copyOp? core id with
      | none => some s1
      | some op =>
        match fail with
        | some f => some (s1.setCopyOp core id { op.stop f with stuck := p :: op.stuck })
        | none =>
          let op1 := { op with flying := op.flying.filter (· != p), words := op.words + words, dropped := op.dropped || code == 2 }
          let s2 := if code == 2 then dropReport s1 core op.uid op.scope op.dom op.task p else s1
          if 4 ≤ op.kind then
            some (s2.setCopyOp core id { op1 with words := 256, path := code != 16, dropped := false, phase := .done 0 })
          else if op1.flying.isEmpty && op1.phase == .moving then some (endChunk s2 core id op1)
          else some (s2.setCopyOp core id op1)
    | .stream slot v op =>
      match fail with
      | some f => some (stopStrip s1 core slot v op (some p) f)
      | none => some s1
    | .area id => some (areaLine s1 core id p.no fun a => { a with failed := a.failed || fail.isSome || code != 0 })
    | .sink id =>
      match findSink s1 core id with
      | none => some s1
      | some q =>
        match fail with
        | some f => some (stopSink s1 core id (some p) f)
        | none =>
          let s2 := if code == 2 then dropReport s1 core q.uid 3 q.dom q.task p else s1
          let s3 := modSink s2 core id fun q => { q with flying := q.flying.map fun l => l.filter (· != p) }
          some (s3.modCore core fun k => { k with sinkq := k.sinkq.filter fun q => q.flying != some [] })

/-! ### Resume words (R332) -/

/-- Ask for pieces of a stream's strip, under the domain, privilege and tag of its SMODE (spec/15 R345, R348). -/
def askStrip (s : State) (core slot v : Nat) (t : Thread) (st : Stream) (ps : List Piece) : State :=
  let g : EngineTag :=
    { core := s.ep core, ref := .stream slot v st.op, group := t.group, tag := 0, count := false,
      key := st.key, nt := st.pat.nt, task := t.task }
  ps.foldl (fun s p => sendRead s core slot t.uid st.dom (urgencyOf st.pat.urg) st.priv g p) s

/-- Send the landed packets of a sink strip's pieces in the ordered class (R170). -/
def sendSink (s : State) (core : Nat) (q : SinkStrip) (id : Nat) (ps : List Piece) : State :=
  let g : EngineTag :=
    { core := s.ep core, ref := .sink id, group := q.group, tag := q.tag, count := q.cnt, key := q.key, nt := q.nt,
      task := q.task }
  ps.foldl (fun s p =>
    let data := (List.range p.len).map fun i => BitVec.ofNat 8 (q.data.toNat / 256 ^ (p.dst - q.addr + i))
    sendLanded s core q.slot q.uid q.dom (urgencyOf q.urg) q.priv true g p data (List.replicate (p.len / 8) false)) s

/-- Resume a stopped copy (R332): from the pieces not acknowledged, or by registering its chunk anew. -/
def resumeCopy (s : State) (core id : Nat) : Option State :=
  match s.copyOp? core id with
  | none => none
  | some op =>
    match op.phase with
    | .faulted _ _ _ _ true =>
      if op.flying.isEmpty then some (s.setCopyOp core id { op with phase := .register })
      else
        let s1 := s.setCopyOp core id { op with phase := .moving, stuck := [] }
        some (if 4 ≤ op.kind then sendRow s1 core id op else sendReads s1 core id op op.stuck)
    | _ => none

/-- Abandon a stopped copy: it completes with code 1 (R332). -/
def abandonCopy (s : State) (core id : Nat) : Option State :=
  match s.copyOp? core id with
  | none => none
  | some op =>
    match op.phase with
    | .faulted _ _ _ _ true => some (s.setCopyOp core id { op with phase := .done 1 })
    | _ => none

/-- The streams of a core that wait for a resume word. -/
def stoppedStreams (k : CoreSt) (entry : Nat) : List (Nat × Nat × Nat) :=
  k.threads.flatMap fun t => match t.2.lease with
    | none => []
    | some l => (l.streams.filter fun st => st.2.faulted == some entry).map fun st => (t.1, st.1, st.2.op)

/-- Resume or abandon a stopped strip of a stream: the pieces that failed are asked for again, or what was not locked is
registered; a strip that is abandoned releases its locks. -/
def resumeStream (s : State) (core slot v op : Nat) (go : Bool) : State :=
  match findStream s core slot v op with
  | none => s
  | some (t, st) =>
    if go then askStrip (modStream s core slot v op fun st => { st with faulted := none, stuck := [] }) core slot v t st st.stuck
    else modStream (endStream s st) core slot v op fun st => { st with faulted := some 32 }

/-- Resume or abandon a stopped sink strip. -/
def resumeSink (s : State) (core : Nat) (q : SinkStrip) (go : Bool) : State :=
  if go then
    sendSink (modSink s core q.id fun q => { q with faulted := none, stuck := [] }) core q q.id q.stuck
  else
    (releaseEverywhere s (.stream q.id)).modCore core fun k => { k with sinkq := k.sinkq.filter fun x => x.id != q.id }

/-- A privileged store to a resume word (R332): 1 resumes what is stopped there, 2 abandons it, anything else is
ignored. -/
def writeResume (s : State) (core entry : Nat) (w : Word) : State :=
  if w != 1 && w != 2 then s
  else
    let k := s.core core
    match k.copies.find? fun o => o.2.entry == entry with
    | some (id, _) => ((if w == 1 then resumeCopy s core id else abandonCopy s core id).getD s)
    | none =>
      match k.sinkq.find? fun q => q.faulted == some entry with
      | some q => resumeSink s core q (w == 1)
      | none =>
        match stoppedStreams k entry with
        | (slot, v, op) :: _ => resumeStream s core slot v op (w == 1)
        | [] => s

end Sys2Proof.Machine
end

