-- ==== Sys2Proof/Machine/Matrix.lean ====
section
/-! DEFINITION. Matrix chains and folios (spec/06 R156-R167). -/

namespace Sys2Proof.Machine

/-- MCFG (R156): enters the q0 command order. -/
def mcfgBody (x : Ctx) (t : Thread) (s : State) : Out :=
  match readField s x t x.c.a with
  | .error w => .wait w
  | .ok (a, s', _) =>
    if bits a 63 2 != 0 || bits a 1 0 == 3 then x.trap cILLOP
    else if matrixRoom (s'.core x.core) t then
      .done (enterMatrix s' x.core x.slot t (.mcfg (bits a 1 0)) 0 0 false)
    else .wait (.push 4)

/-- MGANG (R157): sets the unbound gang tag at issue; a steward core has no slice to hold one (R10, log 113). -/
def mgangBody (x : Ctx) (t : Thread) (s : State) : Out :=
  match readField s x t x.c.a with
  | .error w => .wait w
  | .ok (a, s', _) =>
    if bits a 63 16 != 0 then x.trap cILLOP
    else if 1024 ≤ x.core then .done s'
    else .done (s'.modCore x.core fun k => { k with slice := { k.slice with gang := some (bits a 15 0) } })

/-- MRESUME (R162): reads the bookmark at issue and enters the order. -/
def mresumeBody (x : Ctx) (t : Thread) (s : State) : Out :=
  match memAddr s x t with
  | .error w => .wait w
  | .ok (ea, s', _) =>
    match windowLoad (s'.core x.core) (s'.domEntry x.core t) ea 64 64 with
    | .error r => x.raise r
    | .ok v =>
      if matrixRoom (s'.core x.core) t then
        let b : List Word := (List.range 8).map fun i => word (v / 2 ^ (64 * i))
        .done (enterMatrix s' x.core x.slot t (.resume b) (b.getD 1 0) (b.getD 2 0) true)
      else .wait (.push 0)

/-- MBOOK (R161): sets or clears the bookmark address; the range locks are consulted as for a load (log 114), and a steward
core has no slice to hold the address (R10, log 113). -/
def mbookBody (x : Ctx) (t : Thread) (s : State) : Out :=
  match memAddr s x t with
  | .error w => .wait w
  | .ok (ea, s', _) =>
    let set (b : Option Nat) : Out :=
      if 1024 ≤ x.core then .done s'
      else .done (s'.modCore x.core fun k => { k with slice := { k.slice with bka := b } })
    if ea == 0 then set none
    else match windowCheck (s'.domEntry x.core t) ea 64 64 with
      | .error r => x.raise r
      | .ok o =>
        if threadConflict (s'.core x.core) false ⟨0, o, 64⟩ then x.raise { cause := cRLOCK, xaddr := ea } else set (some o)

/-- The quire of a core (R163): 16 cores of one row. -/
def quireOf (core : Nat) : Nat := core / 16

/-- A failed FOPEN (R163, R164). -/
def folioError (code : Nat) : Word := word (2 ^ 63 + code)

/-- The handle of a folio (R163). -/
def folioHandle (quire slot : Nat) : Word := word (quire / 16 * 256 + quire % 16 * 16 + slot)

/-- The key of a folio in the state: its quire and its slot; the handle is well formed. -/
def folioKey (h : Word) : Option Nat :=
  if bits h 63 16 != 0 || bits h 14 10 != 0 || bit h 3 then none
  else some ((bits h 9 8 * 16 + bits h 7 4) * 8 + bits h 2 0)

/-- FOPEN (R164). A steward core lies in no quire, so it has no distributor with a free slot: code 1 (log 115). -/
def fopenBody (x : Ctx) (t : Thread) (s : State) : Out :=
  match readField s x t x.c.a with
  | .error w => .wait w
  | .ok (a, s', p) =>
    let blen := bits a 63 48 * 64
    let nb := bits a 47 38 + 1
    let base := bits a 21 0
    let len := nb * blen
    let q := quireOf x.core
    let answer (v : Word) (s : State) : Out := writeField s x x.c.d v p 0
    if blen == 0 || 2048 * 64 < blen || bits a 37 22 != 0 || base % 64 != 0 then answer (folioError 3) s'
    else if !((s'.domEntry x.core t).guard base len && decide (base + len ≤ 4194304)) then answer (folioError 2) s'
    else
      match (List.range 8).find? fun i => (tget s'.folios (q * 8 + i)).isNone with
      | none => answer (folioError 1) s'
      | some i =>
        if 64 ≤ q then answer (folioError 1) s'
        else match registerLock (s'.core x.core) ⟨.folio q i, false, [⟨0, base, len⟩], []⟩ with
          | none => .wait (.lock base len)
          | some k =>
            answer (folioHandle q i)
              { s'.setCore x.core k with folios := tset s'.folios (q * 8 + i) ⟨x.core, base, blen, nb, false⟩ }

/-- The reply of FJOIN (R165) and the subscription it makes; a steward core has no slice that could subscribe: code 1
(log 115). -/
def joinReply (s : State) (core : Nat) (h gb : Word) : Nat × Option Subscr :=
  let die := if core < 1024 then core / 256 else core - 1024
  if bits h 9 8 != die then (2, none)
  else
    match folioKey h with
    | none => (1, none)
    | some key =>
      match tget s.folios key with
      | none => (1, none)
      | some f =>
        if f.closed || 1024 ≤ core then (1, none)
        else if (s.core core).slice.sub.isSome then (3, none)
        else if gb.toNat == 0 || 8 < gb.toNat || 131072 < gb.toNat * f.blen then (4, none)
        else (0, some ⟨key / 8, key % 8, gb.toNat, 0, []⟩)

/-- FJOIN (R165). -/
def fjoinBody (x : Ctx) (t : Thread) (s : State) : Out :=
  match readField s x t x.c.a with
  | .error w => .wait w
  | .ok (a, s1, p1) =>
    match readField s1 x t x.c.b with
    | .error w => .wait w
    | .ok (b, s2, p2) =>
      let r := joinReply s2 x.core a b
      let s3 := match r.2 with
        | none => s2
        | some sub => s2.modCore x.core fun k => { k with slice := { k.slice with sub := some sub } }
      writeField s3 x x.c.d (word r.1) (p1 || p2) 0

/-- FCLOSE (R167). -/
def fcloseBody (x : Ctx) (t : Thread) (s : State) : Out :=
  match readField s x t x.c.a with
  | .error w => .wait w
  | .ok (a, s', _) =>
    match folioKey (a &&& ~~~ (0x8000 : Word)) with
    | none => x.trap cILLOP
    | some key =>
      if bit a 15 then
        match (s'.core x.core).slice.sub with
        | none => x.trap cILLOP
        | some sub =>
          if sub.quire * 8 + sub.slot == key then
            .done (s'.modCore x.core fun k => { k with slice := { k.slice with sub := none } })
          else x.trap cILLOP
      else
        match tget s'.folios key with
        | none => x.trap cILLOP
        | some f =>
          if f.producer == x.core then .done { s' with folios := tset s'.folios key { f with closed := true } }
          else x.trap cILLOP

/-- MCFG: select the array mode (R156). -/
def execMcfg (c : Chain) (s : State) : Host.Outcome State Fault Refusal :=
  issueChain .mcfg c (mcfgBody) s

/-- MGANG: bind a gang tag (R157). -/
def execMgang (c : Chain) (s : State) : Host.Outcome State Fault Refusal :=
  issueChain .mgang c (mgangBody) s

/-- MRESUME: continue from a bookmark (R162). -/
def execMresume (c : Chain) (s : State) : Host.Outcome State Fault Refusal :=
  issueChain .mresume c (mresumeBody) s

/-- MBOOK: set the bookmark address (R161). -/
def execMbook (c : Chain) (s : State) : Host.Outcome State Fault Refusal :=
  issueChain .mbook c (mbookBody) s

/-- FOPEN: open a folio (R164). -/
def execFopen (c : Chain) (s : State) : Host.Outcome State Fault Refusal :=
  issueChain .fopen c (fopenBody) s

/-- FJOIN: subscribe to a folio (R165). -/
def execFjoin (c : Chain) (s : State) : Host.Outcome State Fault Refusal :=
  issueChain .fjoin c (fjoinBody) s

/-- FCLOSE: close or leave a folio (R167). -/
def execFclose (c : Chain) (s : State) : Host.Outcome State Fault Refusal :=
  issueChain .fclose c (fcloseBody) s

end Sys2Proof.Machine
end

