-- ==== Sys2Proof/Machine/Place.lean ====
section
/-! DEFINITION. What a launch header asks for (spec/08 R228-R230, spec/14 R305) and the contexts and group slots that clusters
have for it (spec/08 R232-R236, R245). -/

namespace Sys2Proof.Machine

/-! ### Headers (spec/14 R305, R306; spec/08 R228-R230) -/

/-- Width k of a header. -/
def widthOf (ws : List Word) (k : Nat) : Nat := bits (ws.getD 2 0) (7 * k + 6) (7 * k)

/-- s_k: the sum of the widths up to k (R228). -/
def sumTo (ws : List Word) (k : Nat) : Nat := ((List.range (k + 1)).map (widthOf ws)).foldl (· + ·) 0

def hdrPlace (ws : List Word) : Nat := bits (ws.getD 0 0) 39 37
def hdrGang (ws : List Word) : Nat := bits (ws.getD 0 0) 36 34
def hdrBarrier (ws : List Word) : Nat := bits (ws.getD 0 0) 33 31
def hdrCount (ws : List Word) : Nat := (ws.getD 1 0).toNat + 1

/-- Threads of the largest group at a level (R229). -/
def groupSize (ws : List Word) (k : Nat) : Nat := min (hdrCount ws) (2 ^ sumTo ws k)

/-- The number of threads of placement group i (R228, R229). -/
def sizeOf (ws : List Word) (i : Nat) : Nat :=
  let g := 2 ^ sumTo ws (hdrPlace ws)
  min g (hdrCount ws - i * g)

/-- The number of groups at the placement level. -/
def groupCount (ws : List Word) : Nat := (hdrCount ws + 2 ^ sumTo ws (hdrPlace ws) - 1) / 2 ^ sumTo ws (hdrPlace ws)

/-- Groups at the placement level in one gang group (R234). -/
def perGang (ws : List Word) : Nat := 2 ^ (sumTo ws (hdrGang ws) - sumTo ws (hdrPlace ws))

/-! ### Contexts and group slots (spec/08 R232-R236) -/

/-- The cores of a cluster, 0 to 31 (R232). -/
def clusterCores (c : Nat) : List Nat := (List.range 32).map fun i => c / 8 * 256 + c % 8 * 32 + i

/-- Ferries waiting for a core: in its inbox, in its spill area, in the mesh (R232, R245). -/
def ferriesFor (s : State) (c : Nat) : Nat :=
  (s.net.filter fun p => (match p.body with | .ferry _ => true | _ => false) && p.stage != .slice && p.dst == s.ep c).length

/-- Contexts of a core that a placement may count (R232). -/
def freeFor (s : State) (c : Nat) : Nat :=
  let k := s.core c
  if !k.stops.isEmpty || k.sealed then 0 else freeSlots k - ferriesFor s c

/-- Contexts of a cluster. -/
def clusterFree (s : State) (c : Nat) : Nat := ((clusterCores c).map (freeFor s)).foldl (· + ·) 0

/-- Contexts of a cluster that front ends hold for the groups of a gang (R234): the plan of each, from the group that it places
next on. -/
def reservedIn (s : State) (c : Nat) : Nat :=
  (s.fes.flatMap fun f => match f.2.work, f.2.cur with
    | .placing _ i plan, some p =>
      (plan.zip (List.range plan.length)).map fun e => if e.1 == c then sizeOf p.words (i + e.2) else 0
    | _, _ => []).foldl (· + ·) 0

/-- Free contexts of the cores of a cluster that are neither stopped nor sealed. -/
def clusterSlots (s : State) (c : Nat) : Nat :=
  ((clusterCores c).map fun k => if !(s.core k).stops.isEmpty || (s.core k).sealed then 0 else freeSlots (s.core k)).foldl (· + ·) 0

/-- A core may admit a ferry: a context is left beside those held for a gang (R234, R245). -/
def mayAdmit (s : State) (c : Nat) : Bool :=
  1024 ≤ c || !(s.core c).stops.isEmpty || decide (reservedIn s (clusterOf c) < clusterSlots s (clusterOf c))

/-- A ferry waits at a core, which is admitted before any placement there (R233, R245). -/
def ferryFirst (s : State) (c : Nat) : Bool :=
  !((s.core c).inbox.isEmpty && (s.core c).spill.isEmpty) && (freeSlot (s.core c)).isSome && mayAdmit s c

/-- A group of a cluster's table is gone: its threads have exited and no mailbox set of it is left (R236). -/
def groupGone (s : State) (g : GroupId) : Bool :=
  match tget s.groups (groupKey g) with
  | none => true
  | some e => e.live == 0 && !(s.cores.any fun c => c.2.mail.any fun m => m.1 == g && !setFree c.2 m.1 m.2)

/-- Group slot i of a cluster of this cube. -/
def slotGroup (s : State) (c i : Nat) : GroupId := ⟨s.logical, c / 8, c % 8, i⟩

/-- The lowest free group slot of a cluster. -/
def freeGroup (s : State) (c : Nat) : Option Nat := (List.range 2048).find? fun i => groupGone s (slotGroup s c i)

/-- Free group slots of a cluster, as far as a bound. -/
def groupSlots (s : State) (c bound : Nat) : Nat :=
  (((List.range 2048).filter fun i => groupGone s (slotGroup s c i)).take bound).length

end Sys2Proof.Machine
end

