-- ==== Sys2Proof/Machine/Message.lean ====
section
/-! DEFINITION. SEND and RECV (spec/07 R207, R208). -/

namespace Sys2Proof.Machine

/-- The destination lies beyond the scope (R190, R207). -/
def beyondScope (s : State) (core : Nat) (scope : Scope) (ep : Nat) : Bool :=
  let c := epCore ep
  match scope with
  | .pod => false
  | .cube => epCube ep != s.logical
  | .cluster => epCube ep != s.logical || !(c == core || (c < 1024 && core < 1024 && clusterOf c == clusterOf core))
  | .core => epCube ep != s.logical || c != core

/-- Send a message of words (R207) and count it for FENCE (R198). -/
def sendWords (s : State) (x : Ctx) (t : Thread) (gd : Word) (ws : List Word) : State :=
  let id := s.nextId
  let p := { directPacket s (s.ep x.core) (bits gd 31 0) x.urgency t.uid x.slot
      (.message (bits gd 63 32) ws (some t.group) x.c.urg none) with
    dom := t.dom, priv := (s.domEntry x.core t).priv, key := (s.core x.core).owner }
  (s.post p).modThread x.core x.slot fun t => { t with sends := t.sends ++ [(id, x.c.scope.code)] }

/-- SEND (R207): from the send stage where ga is zr, else from the local store. -/
def sendBody (x : Ctx) (t : Thread) (s : State) : Out :=
  match readField s x t x.c.d with
  | .error w => .wait w
  | .ok (gd, s1, _) =>
    let len := x.immNat
    if !epIsCore (bits gd 31 0) then x.trap cILLOP
    else if x.c.a == 10 then
      if t.stage.length < len then x.trap cILLOP
      else if beyondScope s1 x.core x.c.scope (bits gd 31 0) then x.trap cPERM 2 gd
      else .done ((sendWords s1 x t gd (t.stage.take len)).modThread x.core x.slot fun t =>
        { t with stage := t.stage.drop len })
    else
      match readField s1 x t x.c.a with
      | .error w => .wait w
      | .ok (ga, s2, _) =>
        match windowCheck (s2.domEntry x.core t) ga (8 * len) 8 with
        | .error e => x.raise e
        | .ok _ =>
          if beyondScope s2 x.core x.c.scope (bits gd 31 0) then x.trap cPERM 2 gd
          else match windowLoad (s2.core x.core) (s2.domEntry x.core t) ga (8 * len) 8 with
            | .error e => x.raise e
            | .ok v => .done (sendWords s2 x t gd ((List.range len).map fun i => word (v / 2 ^ (64 * i))))

/-- Words as one number, the first lowest. -/
def joinWords : List Word → Nat
  | [] => 0
  | w :: ws => w.toNat + 2 ^ 64 * joinWords ws

/-- The head of a task's receive queue goes to the local store, checked but for range locks and for what is popped of it already
(R208): its header, none where no message is queued. -/
def receiveAt (s : State) (c task o : Nat) : Option (Except TrapRec (Word × State)) :=
  let k := s.core c
  match (tgetD k.recvq task {}).msgs with
  | [] => none
  | m :: rest =>
    let n := 8 * m.words.length
    some <|
      if m.popped != 0 then .error { cause := cILLOP }
      else if threadConflict k true ⟨0, o, n⟩ then .error { cause := cRLOCK, xaddr := word o ||| 0x00F0000000000000 }
      else
        let k1 := cleanPoison k 0 o n
        .ok (m.hdr, replay (s.setCore c { k1 with
          lstore := k1.lstore.write o n (joinWords m.words), recvq := tset k1.recvq task ⟨rest⟩,
          poison := k1.poison ++ m.bad.map fun i => (0, o / 8 + i) }) task)

/-- RECV (R208): waits for a message; its words go to the local store and its header to gd. -/
def recvBody (x : Ctx) (t : Thread) (s : State) : Out :=
  match readField s x t x.c.a with
  | .error w => .wait w
  | .ok (ga, s1, p) =>
    let begun := match (tgetD (s1.core x.core).recvq t.task {}).msgs with | m :: _ => m.popped != 0 | [] => false
    if begun then x.trap cILLOP
    else match windowCheck (s1.domEntry x.core t) ga 128 8 with
      | .error e => x.raise e
      | .ok o =>
        match receiveAt s1 x.core t.task o with
        | none => .wait (.recv o (x.resume x.c.d x.popped))
        | some (.error e) => x.raise e
        | some (.ok (hdr, s2)) => writeField s2 x x.c.d hdr p 0

/-- SEND: send a message to a task (R207). -/
def execSend (c : Chain) (s : State) : Host.Outcome State Fault Refusal :=
  issueChain .send c (sendBody) s

/-- RECV: receive a message (R208). -/
def execRecv (c : Chain) (s : State) : Host.Outcome State Fault Refusal :=
  issueChain .recv c (recvBody) s

end Sys2Proof.Machine
end

