-- ==== Sys2Proof/Machine/Spawn.lean ====
section
/-! DEFINITION. SPAWN, TPOST and TBIND (spec/07 R209, R210). -/

namespace Sys2Proof.Machine

/-- A 64-byte packet at a local-window address (R209): its eight dwords, or the trap of the checks of R104. -/
def readPacket (s : State) (x : Ctx) (t : Thread) (ga : Word) : Except TrapRec (List Word) :=
  match windowLoad (s.core x.core) (s.domEntry x.core t) ga 64 64 with
  | .error e => .error e
  | .ok v => .ok ((List.range 8).map fun i => word (v / 2 ^ (64 * i)))

/-- Read the sources gd and ga. -/
def readTwo (s : State) (x : Ctx) (t : Thread) : Except Wait (Word × Word × State) :=
  match readField s x t x.c.d with
  | .error w => .error w
  | .ok (d, s1, _) =>
    match readField s1 x t x.c.a with
    | .error w => .error w
    | .ok (a, s2, _) => .ok (d, a, s2)

/-- SPAWN (R209). -/
def spawnBody (x : Ctx) (t : Thread) (s : State) : Out :=
  match readTwo s x t with
  | .error w => .wait w
  | .ok (gd, ga, s1) =>
    match windowCheck (s1.domEntry x.core t) ga 64 64 with
    | .error e => x.raise e
    | .ok _ =>
      if x.c.scope == .cube && eaCube gd != s1.logical then x.trap cPERM 2 gd
      else match readPacket s1 x t ga with
        | .error e => x.raise e
        | .ok ws =>
          .done (s1.post (addressed s1 x.core x.slot t.uid x.urgency true gd t.dom (s1.domEntry x.core t).priv
            (.spawn ws gd none)))

/-- The steward core of a trigger entry (spec/14 R321). -/
def triggerCore (e : Nat) : Nat := 1024 + e / 64

/-- TPOST (R210). -/
def tpostBody (x : Ctx) (t : Thread) (s : State) : Out :=
  match readTwo s x t with
  | .error w => .wait w
  | .ok (gd, ga, s1) =>
    if bits gd 63 22 != 0 then x.trap cILLOP
    else if x.c.scope == .cube && bits gd 21 8 != s1.logical then x.trap cPERM 2 gd
    else
      .done (s1.post { directPacket s1 (s1.ep x.core) (bits gd 21 8 * 2048 + triggerCore (bits gd 7 0)) x.urgency t.uid
        x.slot (.tpost (bits gd 7 0) ga) with
        dom := t.dom, priv := (s1.domEntry x.core t).priv, key := (s1.core x.core).owner })

/-- TBIND (R210): the thread waits for the entry's answer. -/
def tbindBody (x : Ctx) (t : Thread) (s : State) : Out :=
  match readTwo s x t with
  | .error w => .wait w
  | .ok (gd, ga, s1) =>
    let e := bits gd 7 0
    let go (packet : Option (List Word)) : Out :=
      let id := s.nextId
      let p := { directPacket s (s.ep x.core) (s.ep (triggerCore e)) 0 t.uid x.slot (.tbind e packet) with
        dom := t.dom, priv := (s.domEntry x.core t).priv, key := (s.core x.core).owner, addr := ga }
      hold (s.send p) x (.awaiting id (x.resume 10 (((queueSources x.o x.c).head?).map portOf)))
    if ga == 0 then go none
    else match readPacket s1 x t ga with
      | .error r => x.raise r
      | .ok ws => go (some ws)

/-- SPAWN: send a task packet towards an operand (R209). -/
def execSpawn (c : Chain) (s : State) : Host.Outcome State Fault Refusal :=
  issueChain .spawn c (spawnBody) s

/-- TPOST: post a datum to a trigger entry (R210). -/
def execTpost (c : Chain) (s : State) : Host.Outcome State Fault Refusal :=
  issueChain .tpost c (tpostBody) s

/-- TBIND: bind a trigger entry (R210). -/
def execTbind (c : Chain) (s : State) : Host.Outcome State Fault Refusal :=
  issueChain .tbind c (tbindBody) s

end Sys2Proof.Machine
end

