-- ==== Sys2Proof/Machine/Priv.lean ====
section
/-! DEFINITION. Privileged system instructions (spec/07 R222-R226; spec/16 R353, R365-R367). -/

namespace Sys2Proof.Machine

/-! ### SLINV (R222) -/

/-- A walk is in progress at a slice of this cube. -/
def walking (s : State) : Bool :=
  s.net.any fun p => match p.stage with | .walk _ _ => true | _ => false

/-- Invalidate what the slices of this cube hold (R222, spec/15 R333). -/
def invalidate (s : State) (mode : Nat) (a : Word) : State :=
  match mode with
  | 0 => { s with leaves := s.leaves.filter fun l => l.page != eaOff a / 2 ^ pageBits l.level }
  | 1 => { s with leaves := s.leaves.filter fun l => bits l.d0 56 50 != bits a 6 0 }
  | _ => { s with leaves := [], spaceHeld := [] }

/-- A malformed SLINV operand (R222). -/
def slinvBad (a : Word) : Bool :=
  match bits a 15 12 with
  | 0 => bits a 11 0 != 0
  | 1 => bits a 11 7 != 0
  | 2 => bits a 11 0 != 0
  | _ => true

/-- SLINV (R222): waits for the walks of its own cube; another cube answers. -/
def slinvBody (x : Ctx) (t : Thread) (s : State) : Out :=
  match readField s x t x.c.a with
  | .error w => .wait w
  | .ok (a, s', _) =>
    if slinvBad a then x.trap cILLOP
    else
      let mode := bits a 15 12
      if x.c.scope == .cube || eaCube a == s.logical then
        if walking s' then .wait .slices else .done (invalidate s' mode a)
      else
        let id := s.nextId
        hold (s.send (directPacket s (s.ep x.core) (eaCube a * 2048 + slicePort) 2 t.uid x.slot (.slinv mode a))) x
          (.awaiting id (x.resume 10 (((queueSources x.o x.c).head?).map portOf)))

/-! ### Keys and owners (R223, R224) -/

/-- Write back and drop the lines that a cache holds under a key slot (R223). -/
def flushKey (s : State) (core key : Nat) : State :=
  let k := s.core core
  let s1 := (k.cache.filter fun l => l.key == key).foldl (fun s l => writeBack s l) s
  s1.modCore core fun k => { k with cache := k.cache.filter fun l => l.key != key }

/-- Install or empty a key slot (R223, spec/15 R342). -/
def installKey (s : State) (slot : Nat) (ws : List Word) : State :=
  let s1 := (s.cores.map (·.1)).foldl (fun s c => flushKey s c slot) s
  if bit (ws.getD 0 0) 63 then
    let k : BitVec 256 := BitVec.ofNat 256
      ((ws.getD 2 0).toNat + 2 ^ 64 * (ws.getD 3 0).toNat + 2 ^ 128 * (ws.getD 4 0).toNat + 2 ^ 192 * (ws.getD 5 0).toNat)
    { s1 with keys := tset s1.keys slot (.given k) }
  else { s1 with keys := tdel s1.keys slot }

/-- A key record that SETKEY refuses (spec/15 R342). -/
def keyRecordBad (ws : List Word) : Bool :=
  let w0 := ws.getD 0 0
  bits w0 62 8 != 0 || 2 ≤ bits w0 7 0 || (bit w0 63 && bits w0 7 0 == 0) ||
  ws.getD 1 0 != 0 || ws.getD 6 0 != 0 || ws.getD 7 0 != 0

/-- SETKEY (R223): ILLOP for the record, PRIV for slot 0 outside a system domain, then the checks of the address. -/
def setkeyBody (x : Ctx) (t : Thread) (s : State) : Out :=
  match readTwo s x t with
  | .error w => .wait w
  | .ok (gd, ga, s1) =>
    let slot := bits gd 6 0
    let barred := slot == 0 && !(s1.domEntry x.core t).system
    match readPacket s1 x t ga with
    | .error e => if barred then x.trap cPRIV else x.raise e
    | .ok ws =>
      if keyRecordBad ws then x.trap cILLOP
      else if barred then x.trap cPRIV
      else .done (installKey s1 slot ws)

/-- The core produces a folio. -/
def producesFolio (s : State) (core : Nat) : Bool := s.folios.any fun f => f.2.producer == core

/-- SETOWN may not change the owner now (R224, spec/16 R365). -/
def setownBarred (s : State) (core slot : Nat) (key : Nat) : Bool :=
  let k := s.core core
  k.threads.any (fun t => t.1 != slot) || !k.locks.isEmpty || producesFolio s core || k.slice.sub.isSome ||
  k.buoys.any (fun b => b.2.key == key)

/-- The streams of every resident thread of a core end with its residency (R4). -/
def dropStreams (s : State) (core : Nat) : State :=
  ((s.core core).threads.foldl (fun s t => endStreams s t.2.lease) s).modCore core fun k => { k with
    threads := k.threads.map fun t => (t.1, { t.2 with lease := t.2.lease.map fun l => { l with streams := [] } }) }

/-- Set the owner tag; a change scrubs the stores and fills the tags (R224), and with the residency that it ends go the matrix
engine context, the mailbox sets and the stream patterns (spec/00 R4): commands accepted go on (log 112). A seal ends, and what
waited for it is delivered (spec/16 R364). -/
def setOwner (s : State) (core key : Nat) : State :=
  let k := s.core core
  if k.owner == key then replayAll (s.setCore core { k with sealed := false })
  else
    let s1 := dropStreams s core
    let k := s1.core core
    replayAll ((s1.setCore core { k with
      owner := key, sealed := false, lstore := [], bstore := [], empty := [], mail := [], slice := { order := k.slice.order },
      poison := k.poison.filter fun p => p.1 == 2 }).pass core 24576)

/-- SETOWN (R224). -/
def setownBody (x : Ctx) (t : Thread) (s : State) : Out :=
  match readField s x t x.c.a with
  | .error w => .wait w
  | .ok (a, s', _) =>
    if bits a 63 7 != 0 || setownBarred s' x.core x.slot (bits a 6 0) then x.trap cILLOP
    else .done (setOwner s' x.core (bits a 6 0))

/-! ### Instruction stores (R225) -/

/-- Send a system message to a core and count it for FENCE. -/
def sendSystem (s : State) (x : Ctx) (t : Thread) (ep : Nat) (body : Body) : State :=
  let id := s.nextId
  (s.send { directPacket s (s.ep x.core) ep 0 t.uid x.slot body with
    dom := t.dom, priv := true, key := (s.core x.core).owner }).modThread x.core x.slot fun t =>
      { t with sends := t.sends ++ [(id, 3)] }

/-- ISTW (R225). -/
def istwBody (x : Ctx) (t : Thread) (s : State) : Out :=
  match readTwo s x t with
  | .error w => .wait w
  | .ok (gd, ga, s1) =>
    if bits gd 63 50 != 0 || bits gd 34 32 != 0 || !epIsCore (bits gd 31 0) then x.trap cILLOP
    else .done (sendSystem s1 x t (bits gd 31 0) (.istw (bits gd 49 32) ga))

/-- START (R225). -/
def startBody (x : Ctx) (t : Thread) (s : State) : Out :=
  match readTwo s x t with
  | .error w => .wait w
  | .ok (gd, ga, s1) =>
    if bits gd 63 32 != 0 || !epIsCore (bits gd 31 0) then x.trap cILLOP
    else if ga == 0 then .done (sendSystem s1 x t (bits gd 31 0) (.start none))
    else match readPacket s1 x t ga with
      | .error e => x.raise e
      | .ok ws => .done (sendSystem s1 x t (bits gd 31 0) (.start (some ws)))

/-! ### Buoys and the halt tree (R226) -/

/-- Set a buoy on a core (spec/16 R365): the handle, and the core; the seal ends (R364). -/
def setBuoy (k : CoreSt) (v target : Nat) : Word × CoreSt :=
  match (List.range 16).find? fun i => (tget k.buoys i).isNone with
  | none => (word (2 ^ 63), k)
  | some i => (word (v * 16 + i), { k with buoys := tset k.buoys i ⟨k.owner, target, k.cyc, []⟩, sealed := false })

/-- BUOYS (R226, spec/16 R365); a reserved core number for the vacated core raises ILLOP (log 117). -/
def buoysBody (x : Ctx) (t : Thread) (s : State) : Out :=
  match readField s x t x.c.a with
  | .error w => .wait w
  | .ok (a, s', p) =>
    let v := bits a 42 32
    if bits a 63 43 != 0 || 1028 ≤ v || !(s'.core v).threads.isEmpty then x.trap cILLOP
    else
      let r := setBuoy (s'.core v) v (bits a 31 0)
      writeField (replayAll (s'.setCore v r.2)) x x.c.d r.1 p 0

/-- BUOYC (R226): an unused handle raises ILLOP. -/
def buoycBody (x : Ctx) (t : Thread) (s : State) : Out :=
  match readField s x t x.c.a with
  | .error w => .wait w
  | .ok (a, s', _) =>
    let v := bits a 14 4
    if bits a 63 15 != 0 || (tget (s'.core v).buoys (bits a 3 0)).isNone then x.trap cILLOP
    else .done (s'.modCore v fun k => { k with buoys := tdel k.buoys (bits a 3 0) })

/-- HALTRQ (spec/16 R353): the request goes along tree 0; a stop of the issuer's own partition stops the issuer after this
chain. -/
def haltrqBody (x : Ctx) (t : Thread) (s : State) : Out :=
  match readField s x t x.c.a with
  | .error w => .wait w
  | .ok (a, s', _) =>
    let p := bits a 15 0
    if p == 0 || 2 ≤ bits a 17 16 || bits a 63 18 != 0 then x.trap cILLOP
    else
      let stop := bits a 17 16 == 0
      let s1 := s'.send (directPacket s' (s'.ep x.core) (s'.logical * 2048 + barrierPort) 2 t.uid x.slot (.haltReq p stop))
      let s2 := s1.send (directPacket s1 (s1.ep x.core) (treeUp * 2048 + barrierPort) 2 t.uid x.slot (.haltReq p stop))
      .done (if stop && (s2.core x.core).part == p then
          s2.modThread x.core x.slot fun t => { t with stops := 4 :: t.stops.filter (· != 4) }
        else s2)

/-- SLINV: invalidate translations (R222). -/
def execSlinv (c : Chain) (s : State) : Host.Outcome State Fault Refusal :=
  issueChain .slinv c (slinvBody) s

/-- SETKEY: install a key (R223). -/
def execSetkey (c : Chain) (s : State) : Host.Outcome State Fault Refusal :=
  issueChain .setkey c (setkeyBody) s

/-- SETOWN: set the owner tag (R224). -/
def execSetown (c : Chain) (s : State) : Host.Outcome State Fault Refusal :=
  issueChain .setown c (setownBody) s

/-- ISTW: write instruction words (R225). -/
def execIstw (c : Chain) (s : State) : Host.Outcome State Fault Refusal :=
  issueChain .istw c (istwBody) s

/-- START: make instruction words visible (R225). -/
def execStart (c : Chain) (s : State) : Host.Outcome State Fault Refusal :=
  issueChain .start c (startBody) s

/-- BUOYS: set a buoy (R226). -/
def execBuoys (c : Chain) (s : State) : Host.Outcome State Fault Refusal :=
  issueChain .buoys c (buoysBody) s

/-- BUOYC: clear a buoy (R226). -/
def execBuoyc (c : Chain) (s : State) : Host.Outcome State Fault Refusal :=
  issueChain .buoyc c (buoycBody) s

/-- HALTRQ: request of the halt tree (R226). -/
def execHaltrq (c : Chain) (s : State) : Host.Outcome State Fault Refusal :=
  issueChain .haltrq c (haltrqBody) s

end Sys2Proof.Machine
end

