-- ==== Sys2Proof/Machine/Copy.lean ====
section
/-! DEFINITION. Copies and MWAIT (spec/06 R172-R178). -/

namespace Sys2Proof.Machine

/-- Read the three scalar operands d, a, b as sources, in that order; at most one of them is a queue port (R28). -/
def readThree (s : State) (x : Ctx) (t : Thread) : Except Wait (Word × Word × Word × State) :=
  match readField s x t x.c.d with
  | .error w => .error w
  | .ok (d, s1, _) =>
    match readField s1 x t x.c.a with
    | .error w => .error w
    | .ok (a, s2, _) =>
      match readField s2 x t x.c.b with
      | .error w => .error w
      | .ok (b, s3, _) => .ok (d, a, b, s3)

/-- CPYG, CPYP and CPYD (R172-R174): the checks, then room in the copy engine, then the operation is handed over. -/
def copyBody (kind : Nat) (x : Ctx) (t : Thread) (s : State) : Out :=
  match readThree s x t with
  | .error w => .wait w
  | .ok (gd, ga, gb, s') =>
    match makeCopy s' x.core x.slot t kind gd ga gb x.immNat x.c.scope.code x.c.urg x.c.nt with
    | .error e => x.raise e
    | .ok op =>
      if copyRoom (s'.core x.core) t then .done (enterCopy s' x.core x.slot op) else .wait (.push 1)

/-- The count of a mailbox has reached e (R178). -/
def countReached (n : BitVec 32) (e : Nat) : Bool := e == 0 || decide ((n - BitVec.ofNat 32 e).toNat < 2 ^ 31)

/-- MWAIT can complete on a core. -/
def mailReached (k : CoreSt) (g : GroupId) (mb e : Nat) : Bool :=
  countReached (mailCount k g mb) e && (e == 0 || mailRoom k g)

/-- MWAIT has read its mailbox: the count is subtracted. -/
def takeMail (s : State) (c : Nat) (g : GroupId) (mb e : Nat) : State :=
  if e == 0 then s else s.modCore c fun k => addMail k g mb (2 ^ 32 - e)

/-- MWAIT (R178): wait for the count, then subtract. -/
def mwaitBody (x : Ctx) (t : Thread) (s : State) : Out :=
  match readField s x t x.c.a with
  | .error w => .wait w
  | .ok (a, s', _) =>
    let e := bits a 31 0
    if mailReached (s'.core x.core) t.group x.immNat e then
      .done (takeMail s' x.core t.group x.immNat e)
    else .wait (.mailbox t.group x.immNat e (x.resume 10 x.popped))

/-- CPYG: copy a run (R172). -/
def execCpyg (c : Chain) (s : State) : Host.Outcome State Fault Refusal :=
  issueChain .cpyg c (copyBody 1) s

/-- CPYP: copy rows (R173). -/
def execCpyp (c : Chain) (s : State) : Host.Outcome State Fault Refusal :=
  issueChain .cpyp c (copyBody 2) s

/-- CPYD: deal blocks to cores (R174). -/
def execCpyd (c : Chain) (s : State) : Host.Outcome State Fault Refusal :=
  issueChain .cpyd c (copyBody 3) s

/-- MWAIT: wait on a mailbox (R178). -/
def execMwait (c : Chain) (s : State) : Host.Outcome State Fault Refusal :=
  issueChain .mwait c (mwaitBody) s

end Sys2Proof.Machine
end

