-- ==== Sys2Proof/Machine/Waits.lean ====
section
/-! DEFINITION. The waits that end with the event they wait for (spec/08 R251, R252): MWAIT, RECV, BWAIT and BAW. -/

namespace Sys2Proof.Machine

/-- A thread takes a trap at the chain where it waits. -/
def trapWaiting (s : State) (c slot : Nat) (t : Thread) (x : TrapRec) : State :=
  takeTrap (s.setThread c slot { t with status := .ready }) c slot { x with xpc := t.pc }

/-- A wait of MWAIT, RECV, BWAIT or BAW completes where what it waits for has come: its subtraction, its message or its release
takes effect and the thread goes on after the chain (R252). -/
def finishWait (s : State) (c slot : Nat) : Option State :=
  match s.thread? c slot with
  | none => none
  | some t =>
    match t.status with
    | .blocked (.mailbox g mb e r) _ =>
      if mailReached (s.core c) g mb e then some (completeChain (takeMail s c g mb e) c slot r none) else none
    | .blocked (.recv o r) _ =>
      match receiveAt s c t.task o with
      | none => none
      | some (.error e) => some (trapWaiting s c slot t e)
      | some (.ok (hdr, s1)) => some (completeChain s1 c slot r (some hdr))
    | .blocked (.barrierRelease r) _ =>
      match t.arrival with
      | none => none
      | some a =>
        if a.lost then some (trapWaiting s c slot { t with rs := false } { cause := cBOVER, detail := 4, xaddr := barAddr a.bar })
        else if a.released then
          some (completeChain (s.setThread c slot { t with rs := false }) c slot r (some (releasedWord a)))
        else none
    | _ => none

/-- Complete the wait of a thread, if it can be. -/
def tryFinish (s : State) (c slot : Nat) : State := (finishWait s c slot).getD s

end Sys2Proof.Machine
end

