-- ==== Sys2Proof/Machine/StopOps.lean ====
section
/-! DEFINITION. Stops and releases (spec/16 R349-R354). -/

namespace Sys2Proof.Machine

/-! ### One thread (R350, R351) -/

/-- A command that a split can end (spec/06 R159): a COMPUTE or a resumed one. -/
def splittable (m : MCmd) : Bool :=
  m.phase == .running &&
    match m.kind with
    | .words => bits m.w0 63 60 == 1
    | .resume _ => true
    | _ => false

/-- The sixteen cores of the quire of a compute core (spec/06 R163). -/
def rowOf (core : Nat) : List Nat := (List.range 16).map fun i => core / 16 * 16 + i

/-- A split becomes pending for commands of a core. -/
def splitWhere (p : MCmd → Bool) (k : CoreSt) : CoreSt :=
  { k with slice := { k.slice with order := k.slice.order.map fun m => if splittable m && p m then { m with split := true } else m } }

/-- A stop reaches the running commands of a core that a test picks, and every member of their gangs (R352, spec/06 R159).
-/
def splitRunning (s : State) (c : Nat) (p : MCmd → Bool) : State :=
  let gangs := ((s.core c).slice.order.filter fun m => splittable m && p m).filterMap (·.gang)
  let s1 := s.modCore c (splitWhere p)
  if gangs.isEmpty then s1
  else (rowOf c).foldl (fun s d => s.modCore d (splitWhere fun m => match m.gang with
    | some g => gangs.contains g
    | none => false)) s1

/-- A CSAVE or CLOAD with its area in another cube is given up: a thread that was being saved stays. -/
def cancelArea (s : State) (c id : Nat) : State :=
  match (s.core c).areas.find? fun a => a.id == id with
  | none => s
  | some a =>
    let s1 := s.modCore c fun k => { k with areas := k.areas.filter fun a => a.id != id }
    if a.save then s1.modThread c a.tgt fun t => { t with stops := t.stops.filter (· != 5) } else s1

/-- What a stop does to a waiting thread (R351): waits and sleeps are left, but for those it does not interrupt. -/
def leaveWait (s : State) (c slot : Nat) : State :=
  match s.thread? c slot with
  | none => s
  | some t =>
    let ready (s : State) : State := s.modThread c slot fun t => { t with status := .ready }
    match t.status with
    | .blocked (.lease _ _) _ => ready (s.modCore c fun k => { k with leaseq := k.leaseq.filter (· != slot) })
    | .blocked (.area id r) _ => if r.fixed then s else ready (cancelArea s c id)
    | .blocked _ _ => ready s
    | .awaiting _ r => if r.fixed then s else ready s
    | .sleeping _ _ _ _ _ _ => ready (s.modCore c fun k => leaveFeSlot k slot)
    | .departing _ _ _ _ => ready s
    | _ => s

/-- A stop cause applies to the thread of a slot; one that applies already has no further effect (R350). A wait of MWAIT, RECV or
BWAIT whose end has come completes first (spec/08 R252). -/
def stopSlot (cause : Nat) (s : State) (c slot : Nat) : State :=
  match s.thread? c slot with
  | none => s
  | some t =>
    if t.stops.contains cause then s
    else
      let s1 := (tryFinish s c slot).modThread c slot fun t => { t with stops := cause :: t.stops }
      splitRunning (leaveWait s1 c slot) c fun m => m.uid == t.uid

/-- A stop cause ends for the thread of a slot. -/
def freeSlotStop (cause : Nat) (s : State) (c slot : Nat) : State :=
  s.modThread c slot fun t => { t with stops := t.stops.filter (· != cause) }

/-- A stop has taken effect on a thread (R351). -/
def hasStopped (t : Thread) : Bool :=
  match t.status with
  | .awaiting _ r | .blocked (.area _ r) _ => !r.fixed
  | .exiting => false
  | _ => true

/-! ### Whole cores (R350, R352) -/

/-- The slots of the threads of a core. -/
def slotsOf (k : CoreSt) : List Nat := k.threads.map (·.1)

/-- A core, quire or halt stop reaches a core. -/
def stopCore (cause : Nat) (s : State) (c : Nat) : State :=
  let k := s.core c
  if k.stops.contains cause then s
  else
    let s1 := s.setCore c { k with stops := cause :: k.stops }
    splitRunning ((slotsOf k).foldl (fun s i => stopSlot cause s c i) s1) c fun _ => true

/-- Its release. -/
def releaseCore (cause : Nat) (s : State) (c : Nat) : State :=
  let s1 := s.modCore c fun k => { k with stops := k.stops.filter (· != cause) }
  (slotsOf (s.core c)).foldl (fun s i => freeSlotStop cause s c i) s1

/-- Every context of a core has stopped. -/
def coreHasStopped (k : CoreSt) : Bool := k.threads.all fun t => hasStopped t.2

/-! ### Groups (R350) -/

/-- The resident threads of a group: core and slot. -/
def membersAt (s : State) (g : GroupId) : List (Nat × Nat) :=
  s.cores.flatMap fun c => (c.2.threads.filter fun t => t.2.group == g).map fun t => (c.1, t.1)

/-- A group stop: none where the cube already holds 16 others. -/
def stopGroup (s : State) (g : GroupId) : Option State :=
  if s.gstops.contains g then some s
  else if 16 ≤ s.gstops.length then none
  else some ((membersAt s g).foldl (fun s x => stopSlot 1 s x.1 x.2) { s with gstops := s.gstops ++ [g] })

/-- Its release. -/
def releaseGroup (s : State) (g : GroupId) : State :=
  (membersAt s g).foldl (fun s x => freeSlotStop 1 s x.1 x.2) { s with gstops := s.gstops.filter (· != g) }

/-- Every resident thread of a group has stopped. -/
def groupHasStopped (s : State) (g : GroupId) : Bool :=
  s.cores.all fun c => c.2.threads.all fun t => t.2.group != g || hasStopped t.2

/-! ### The halt tree (R353, R354) -/

/-- A halt stop reaches a compute core: its counters are kept (R354). -/
def haltCore (s : State) (c : Nat) : State :=
  let k := s.core c
  if k.stops.contains 4 then s
  else (stopCore 4 s c).modCore c fun k => { k with hcyc := word k.cyc, hsent := k.sent, hrecv := k.recv }

/-- The compute cores of a partition. -/
def partition (s : State) (p : Nat) : List Nat := (s.cores.filter fun c => decide (c.1 < 1024) && c.2.part == p).map (·.1)

/-! ### The stop word (R349, R350) -/

/-- A store to the stop word of a core's block: the state after it, and whether every thread it names has stopped; none
where it fails. -/
def stopOp (s : State) (c : Nat) (op slot : Nat) (g : GroupId) : Option State :=
  match op with
  | 0 => some (stopSlot 0 s c slot)
  | 1 => stopGroup s g
  | 2 => some ((rowOf c).foldl (stopCore 2) s)
  | 3 => some (stopCore 3 s c)
  | 4 => some (freeSlotStop 0 s c slot)
  | 5 => some (releaseGroup s g)
  | 6 => some ((rowOf c).foldl (releaseCore 2) s)
  | _ => some (releaseCore 3 s c)

/-- Every thread that a stop names has stopped: it can be acknowledged (R350). -/
def stopDone (s : State) (c : Nat) (op slot : Nat) (g : GroupId) : Bool :=
  match op with
  | 0 => match s.thread? c slot with | none => true | some t => hasStopped t
  | 1 => groupHasStopped s g
  | 2 => (rowOf c).all fun d => coreHasStopped (s.core d)
  | 3 => coreHasStopped (s.core c)
  | _ => true

end Sys2Proof.Machine
end

