-- ==== Sys2Proof/Machine/Context.lean ====
section
/-! DEFINITION. CSAVE and CLOAD (spec/07 R227, spec/16 R355-R360). -/

namespace Sys2Proof.Machine

/-! ### Save areas as byte images -/

/-- Write a dword of an image. -/
def put (m : Memory) (o : Nat) (w : Word) : Memory := m.write o 8 w.toNat

/-- Write dwords one after the other. -/
def putAll (m : Memory) (o : Nat) : List Word → Memory
  | [] => m
  | w :: ws => putAll (put m o w) (o + 8) ws

/-- A group identity at bits [63:34] (R242, R358). -/
def groupBits (g : GroupId) : Nat := g.cube * 2 ^ 50 + g.die * 2 ^ 48 + g.cl * 2 ^ 45 + g.slot * 2 ^ 34

/-- The group identity of bits [63:34]. -/
def groupOfBits (w : Word) : GroupId := ⟨bits w 63 50, bits w 49 48, bits w 47 45, bits w 44 34⟩

/-- Dword 0x0A0 of a thread area (R358): the arrival record. -/
def recordWord (a : Option Arrival) : Word :=
  match a with
  | none => 0
  | some a => word (a.phase.toNat * 2 ^ 32 + (a.bar.scope + 1) * 2 ^ 30 + a.bar.n * 2 ^ 22 + flagBit a.released 21 +
      a.fa.toNat * 2 ^ 16)

/-- The barrier of a record of a thread of a group (R203). -/
def recordBar (g : GroupId) (scope n : Nat) : BarName :=
  match scope with
  | 0 => ⟨0, g.cube * 32 + g.die * 8 + g.cl, n⟩
  | 1 => ⟨1, g.cube, n⟩
  | _ => ⟨2, 0, n⟩

/-- The arrival record of dword 0x0A0. -/
def recordOf (g : GroupId) (w : Word) : Option Arrival :=
  if bits w 31 30 == 0 then none
  else some { bar := recordBar g (bits w 31 30 - 1) (bits w 29 22), phase := BitVec.ofNat 32 (bits w 63 32),
              released := bit w 21, fa := BitVec.ofNat 5 (bits w 20 16) }

/-- The commands of a thread that have not begun (R356), in their order. -/
def waitingCmds (k : CoreSt) (uid : Nat) : List MCmd :=
  k.slice.order.filter fun m => m.uid == uid && m.phase == .queued

/-- Dwords 0 to 3 of a q0 entry (R358, R359); `slot` is 0 in a thread area. -/
def cmdWords (m : MCmd) (slot bound : Nat) : List Word :=
  let e := match m.kind with | .words => 0 | .mcfg _ => 1 | .resume _ => 2 | .badHalf => 0
  let w0 : Word := match m.kind with | .mcfg mode => word mode | _ => m.w0
  [w0, m.w1, word (e * 2 ^ 62 + flagBit m.gang.isSome bound + slot * 2 ^ 16 + m.gang.getD 0), 0]

/-- The bookmark of a command, if it is an MRESUME. -/
def cmdBook (m : MCmd) : List Word := match m.kind with | .resume b => b | _ => []

/-- The descriptor of a pattern (R168). -/
def patternWords (p : Pattern) : List Word :=
  let lo (x : Int) : Nat := (BitVec.ofInt 32 x).toNat
  [word p.base, word (lo p.s1 * 2 ^ 32 + lo p.s0), word (p.c1 * 2 ^ 48 + p.c0 * 2 ^ 32 + lo p.s2),
   word (p.tag * 2 ^ 20 + flagBit p.cnt 19 + flagBit p.urg 18 + flagBit p.nt 17 + flagBit p.sink 16 + p.c2)]

/-- The copies of a thread that have not posted their entry (R360). -/
def openCopies (k : CoreSt) (uid : Nat) : List (Nat × CopyOp) := k.copies.filter fun o => o.2.uid == uid && !o.2.detached

/-- Write a list of items at a stride. -/
def putEach {α : Type} (f : Memory → Nat → α → Memory) (m : Memory) (o stride : Nat) : List α → Memory
  | [] => m
  | x :: xs => putEach f (f m o x) (o + stride) stride xs

/-- The scalar part of a thread area: offsets 0x000 to 0x0BF. -/
def scalarWords (s : State) (c : Nat) (t : Thread) (cmds nd : Nat) : List Word :=
  let lease := (t.lease.map (·.windows)).getD 0
  [word (2 ^ 56 + s.ep c),
   word (t.pc * 2 ^ 32 + (if t.inHandler then t.entryDepth else 0) * 2 ^ 23 + flagBit t.rs 21 + lease * 2 ^ 16 +
     flagBit t.inHandler 15 + t.gates.length * 2 ^ 12 + t.dom)] ++
  t.g.toList ++
  [t.pw, t.wk, t.xpc, t.xpw, t.xcause, t.xaddr, t.frec, t.fraddr, recordWord t.arrival, t.bdcfg, word (groupBits t.group),
   word (t.q0.length * 2 ^ 59 + t.q1.length * 2 ^ 54 + t.q3.length * 2 ^ 48 + t.stage.length * 2 ^ 43 +
     flagBit t.half.isSome 42 + cmds * 2 ^ 37 + nd * 2 ^ 32 + t.mseq.toNat * 2 ^ 16 + t.cseq.toNat)]

/-- The vector part of a thread area: masks, patterns, positions, registers. -/
def vectorImage (m : Memory) (base : Nat) (t : Thread) : Memory :=
  match t.lease with
  | none => m
  | some l =>
    let m1 := (List.range 4).foldl (fun m i => m.write (base + 0x700 + 16 * i) 16 (tgetD l.m i 0).toNat) m
    let m2 := (List.range 4).foldl (fun m i =>
      match tget l.streams (4 + i) with
      | none => m
      | some st => put (putAll m (base + 0x740 + 32 * i) (patternWords st.pat)) (base + 0x7C0 + 8 * i)
          (word (2 ^ 63 + st.used))) m1
    (List.range (8 * l.windows)).foldl (fun m i => m.write (base + 0x1000 + 128 * i) 128 (tgetD l.v i 0).toNat) m2

/-- A thread area (R358) at a base of an image; `cmds` are its withdrawn commands, `book` its kept bookmark. -/
def threadImage (s : State) (c : Nat) (t : Thread) (cmds : List MCmd) (book : Option (List Word)) (m : Memory) (base : Nat) :
    Memory :=
  let nd := (openCopies (s.core c) t.uid).length
  let m1 := putAll m base (scalarWords s c t cmds.length nd)
  let m2 := putEach (fun m o (f : GateFrame) => putAll m o [word (f.next * 2 ^ 32 + f.dom), f.pw]) m1 (base + 0xC0) 16
    t.gates.reverse
  let m3 := putAll (putAll (putAll (putAll m2 (base + 0x100) t.q0) (base + 0x180) t.q1) (base + 0x200)
    (t.q3.map fun e => e.2.getD 0)) (base + 0x300) t.stage
  let m4 := put (put m3 (base + 0x380) (t.half.getD 0)) (base + 0x388) (word t.aseq.toNat)
  let m5 := putEach (fun m o x => putAll m o (cmdWords x 0 16)) m4 (base + 0x400) 32 cmds
  let m6 := match book with
    | none => m5
    | some b => put (putAll m5 (base + 0x600) b) (base + 0x640) 1
  let m7 := putEach (fun m o x => putAll m o (cmdBook x)) m6 (base + 0x800) 64 cmds
  vectorImage m7 base t

/-! ### Reading a thread area -/

/-- A dword of an image. -/
def get (m : Memory) (o : Nat) : Word := m.dword o

/-- n dwords of an image. -/
def getAll (m : Memory) (o n : Nat) : List Word := (List.range n).map fun i => get m (o + 8 * i)

/-- No byte of a range is nonzero. -/
def zeroIn (m : Memory) (lo hi : Nat) : Bool := m.all fun c => c.1 < lo || hi ≤ c.1

/-- The bookmark slots of the entries of a q0 list that are no MRESUME, and those of no entry, are zero (R358, R359). -/
def booksZero (m : Memory) (o book n size : Nat) : Bool :=
  (List.range 16).all (fun i => (i < n && bits (get m (o + 32 * i + 16)) 63 62 == 2) ||
    zeroIn m (book + 64 * i) (book + 64 * i + 64)) && zeroIn m (o + 32 * n) (o + size)

/-- The commands of a q0 list in an image, 32 bytes each, with their bookmarks (R358, R359); none where a field is out of
range. -/
def readCmds (m : Memory) (o book n bound : Nat) : Option (List (MKind × Word × Word × Option Nat × Nat)) :=
  ((List.range n).map fun i =>
    let a := o + 32 * i
    let d2 := get m (a + 16)
    let gang := if bit d2 bound then some (bits d2 15 0) else none
    let slot := if bound == 22 then bits d2 21 16 else 0
    let clean := bits d2 61 (bound + 1) == 0 && (bound == 22 || bits d2 15 0 == 0 || bit d2 16) && get m (a + 24) == 0
    match bits d2 63 62 with
    | 0 => if clean then some (MKind.words, get m a, get m (a + 8), gang, slot) else none
    | 1 => if clean && bits (get m a) 63 2 == 0 && get m (a + 8) == 0 then
        some (.mcfg (bits (get m a) 1 0), 0, 0, gang, slot) else none
    | 2 => if clean then some (.resume (getAll m (book + 64 * i) 8), get m a, get m (a + 8), gang, slot) else none
    | _ => none).foldr (fun x acc => match x, acc with | some x, some l => some (x :: l) | _, _ => none) (some [])

/-- The fields of a thread area that must be zero are zero, and its version, kind and counts are in range (R358). -/
def areaOk (m : Memory) (b : Nat) : Bool :=
  let d0 := get m b
  let d1 := get m (b + 8)
  let rec' := get m (b + 0xA0)
  let n := get m (b + 0xB8)
  let n0 := bits n 63 59
  let n1 := bits n 58 54
  let n3 := bits n 53 48
  let ns := bits n 47 43
  let nw := bits n 41 37
  let nd := bits n 36 32
  let gdep := bits d1 14 12
  let lease := bits d1 18 16
  bits d0 63 54 == 4 && bits d0 53 32 == 0 && bits d1 63 50 == 0 && bits d1 31 26 == 0 && bits d1 25 23 ≤ 4 &&
  bits d1 22 21 ≤ 1 && bits d1 20 19 == 0 && lease ≤ 4 && gdep ≤ 4 && (bit d1 15 || bits d1 25 23 == 0) &&
  bits rec' 15 0 == 0 && bits (get m (b + 0xB0)) 33 0 == 0 && n0 ≤ 16 && n1 ≤ 16 && n3 ≤ 32 && ns ≤ 16 && nw ≤ 16 &&
  nd ≤ 16 && zeroIn m (b + 0xC0 + 16 * gdep) (b + 0x100) && zeroIn m (b + 0x100 + 8 * n0) (b + 0x180) &&
  zeroIn m (b + 0x180 + 8 * n1) (b + 0x200) && zeroIn m (b + 0x200 + 8 * n3) (b + 0x300) &&
  zeroIn m (b + 0x300 + 8 * ns) (b + 0x380) && (bit n 42 || get m (b + 0x380) == 0) &&
  bits (get m (b + 0x388)) 63 16 == 0 && zeroIn m (b + 0x390) (b + 0x400) &&
  bits (get m (b + 0x640)) 63 1 == 0 && (bit (get m (b + 0x640)) 0 || zeroIn m (b + 0x600) (b + 0x640)) &&
  booksZero m (b + 0x400) (b + 0x800) nw 0x200 && zeroIn m (b + 0x648) (b + 0x700) && zeroIn m (b + 0x7E0) (b + 0x800) &&
  zeroIn m (b + 0xC00) (b + 0x1000) && zeroIn m (b + 0x1000 + 1024 * lease) (b + 0x2000) &&
  (0 < lease || zeroIn m (b + 0x700) (b + 0x7E0)) && (readCmds m (b + 0x400) (b + 0x800) nw 16).isSome

/-- The stream of v(4+i) as saved (R358): it goes on at the next strip. -/
def readStream (m : Memory) (b i op : Nat) : Option Stream :=
  let pos := get m (b + 0x7C0 + 8 * i)
  if !bit pos 63 then none
  else
    let d (j : Nat) : Word := get m (b + 0x740 + 32 * i + 8 * j)
    some { pat := patternOf (d 0) (d 1) (d 2) (d 3), fetched := bits pos 47 0, used := bits pos 47 0, op := op }

/-- The lease of a thread area. -/
def readLease (m : Memory) (b op : Nat) : Option Lease :=
  let w := bits (get m (b + 8)) 18 16
  if w == 0 then none
  else
    some {
      windows := w,
      v := (List.range (8 * w)).foldl (fun t i =>
        let x := BitVec.ofNat 1024 (m.read (b + 0x1000 + 128 * i) 128)
        if x == 0 then t else tset t i x) [],
      m := (List.range 4).foldl (fun t i => tset t i (BitVec.ofNat 128 (m.read (b + 0x700 + 16 * i) 16))) [],
      streams := (List.range 4).foldl (fun t i =>
        match readStream m b i (op + i) with | none => t | some st => tset t (4 + i) st) [] }

/-- The thread of an area (R357, R358): it continues as R351 states, held where the gang of its group has not been released. The
predicate word is loaded as it stands but for p0: DESIGN CHOICE (log 110), as are the bits of a pc that no pc has (spec/01 R11,
R32). -/
def readThread (s : State) (m : Memory) (b : Nat) : Thread :=
  let d1 := get m (b + 8)
  let n := get m (b + 0xB8)
  let g := groupOfBits (get m (b + 0xB0))
  let gdep := bits d1 14 12
  let nw := ((readCmds m (b + 0x400) (b + 0x800) (bits n 41 37) 16).getD []).filter fun x =>
    match x.1 with | .mcfg _ => false | _ => true
  { uid := s.nextId, pc := 2 * bits d1 49 33, g := Vector.ofFn fun i => get m (b + 0x10 + 8 * i.val),
    wk := get m (b + 0x68), pw := get m (b + 0x60) ||| 1, dom := bits d1 11 0, group := g,
    task := launchField s g 5,
    gates := ((List.range gdep).map fun i =>
      (⟨2 * bits (get m (b + 0xC0 + 16 * i)) 49 33, bits (get m (b + 0xC0 + 16 * i)) 11 0, get m (b + 0xC8 + 16 * i)⟩ :
        GateFrame)).reverse,
    leaseGate := if bits d1 18 16 == 0 then 0 else Config.restoredGate s.freeCtr % (gdep + 1),
    inHandler := bit d1 15, entryDepth := bits d1 25 23,
    xpc := get m (b + 0x70) &&& 0x3FFFE, xpw := get m (b + 0x78), xcause := get m (b + 0x80), xaddr := get m (b + 0x88),
    frec := get m (b + 0x90), fraddr := get m (b + 0x98), arrival := recordOf g (get m (b + 0xA0)),
    lease := readLease m b s.nextId, bdcfg := get m (b + 0xA8),
    q0 := getAll m (b + 0x100) (bits n 63 59), q1 := getAll m (b + 0x180) (bits n 58 54),
    q3 := (getAll m (b + 0x200) (bits n 53 48)).map fun w => (0, some w),
    out0 := bits n 63 59 + nw.length, out1 := bits n 58 54,
    stage := getAll m (b + 0x300) (bits n 47 43), half := if bit n 42 then some (get m (b + 0x380)) else none,
    mseq := BitVec.ofNat 16 (bits n 31 16), cseq := BitVec.ofNat 16 (bits n 15 0),
    aseq := BitVec.ofNat 16 (bits (get m (b + 0x388)) 15 0), detached := bits n 36 32,
    rs := bits d1 22 21 == 1,
    status := if (tget s.groups (groupKey g)).any (fun e => g.cube == s.logical && !e.opened) then .gangHold else .ready }

/-- The commands a restored thread re-enters (R357): its last commands that post a status, in order, end at its next
sequence number. -/
def readOrder (m : Memory) (o book n bound : Nat) (who : Nat → Option (Nat × Nat × BitVec 16 × Nat)) : List MCmd :=
  let cs := (readCmds m o book n bound).getD []
  let posts (x : MKind × Word × Word × Option Nat × Nat) : Bool := match x.1 with | .mcfg _ => false | _ => true
  (cs.zip (List.range cs.length)).filterMap fun e =>
    match who e.1.2.2.2.2 with
    | none => none
    | some (uid, slot, next, dom) =>
      let later := ((cs.drop e.2).filter fun x => posts x && x.2.2.2.2 == e.1.2.2.2.2).length
      some { kind := e.1.1, w0 := e.1.2.1, w1 := e.1.2.2.1, gang := e.1.2.2.2.1, uid := uid, slot := slot, dom := dom,
             seq := if posts e.1 then next - BitVec.ofNat 16 later else 0 }

/-! ### The save area -/

/-- The lines of an area: their addresses. -/
def areaLines (ga : Word) (size : Nat) : List Word := (List.range (size / 32)).map fun i => ga + word (32 * i)

/-- Every line of an area of this cube is translated (R355, spec/09 R263): its translations and homes, none where one fails or is
elided, with the state in which the slices hold what they found. -/
def areaHomes (s : State) (core : Nat) (t : Thread) (write : Bool) (ga : Word) (size : Nat) :
    Option (List (Xl × Nat)) × State :=
  let priv := (s.domEntry core t).priv
  let r := (areaLines ga size).foldl (fun (acc : Option (List (Xl × Nat)) × State) a =>
    match acc.1 with
    | none => acc
    | some l =>
      match translateUse acc.2 a t.dom priv (!write) write core with
      | (.error _, s') => (none, s')
      | (.ok (x, h), s') => (if x.elided.isSome then none else some ((x, h) :: l), s')) (some [], s)
  (r.1.map List.reverse, r.2)

/-- An area lies wholly in DRAM and is aligned (R355). -/
def areaPlace (ga : Word) (size : Nat) : Bool :=
  bits ga 63 56 == 0 && ga.toNat % 4096 == 0 && decide (eaOff ga + size ≤ 0x3F000000000)

/-- Write an image to its area at the homes (R356), poison with it. -/
def writeArea (s : State) (m : Memory) (bad : List Nat) (homes : List (Xl × Nat)) : State :=
  (homes.zip (List.range homes.length)).foldl (fun s e =>
    let x := e.1.1
    let line := x.pa / 32
    let s1 := homeWriteLine s e.1.2 line x.key false 0 32 (m.read (32 * e.2) 32)
    let mask : BitVec 4 := BitVec.ofNat 4 ((List.range 4).foldl (fun n i => n + flagBit (bad.contains (4 * e.2 + i)) i) 0)
    homePoison s1 e.1.2 line x.key mask) s

/-- The image of an area that has been read by lines, and its poisoned words. -/
def imageOf (ls : List (Nat × List Byte × List Bool)) : Memory × List Nat :=
  (ls.foldl (fun m l => m.write (32 * l.1) 32 (byteListNum l.2.1)) [],
   ls.flatMap fun l => ((List.range 4).filter fun i => (l.2.2[i]?).getD false).map fun i => 4 * l.1 + i)

/-- Read an area at its homes: its image and its poisoned words. -/
def readArea (s : State) (homes : List (Xl × Nat)) : (Memory × List Nat) × State :=
  let r := (homes.zip (List.range homes.length)).foldl (fun (acc : (List (List Host.Cell) × List Nat) × State) e =>
    let d := homeReadLine acc.2 e.1.2 (e.1.1.pa / 32) e.1.1.key false
    let cells := (List.range 32).filterMap fun i =>
      let v : Byte := BitVec.ofNat 8 (lineBytes d.1.1 i 1)
      if v == 0 then none else some (32 * e.2 + i, v)
    let bad := ((List.range 4).filter fun i => bit d.1.2 i).map fun i => 4 * e.2 + i
    ((cells :: acc.1.1, acc.1.2 ++ bad), d.2)) (([], []), s)
  ((r.1.1.reverse.flatten, r.1.2), r.2)

/-! ### Selectors and readiness -/

/-- Kind and target of a selector (R227, R355): none where it is bad on this core. -/
def selector (core slot : Nat) (w : Word) : Option (Nat × Nat) :=
  let k := bits w 1 0
  let tgt := bits w 17 8
  if bits w 63 18 != 0 || bits w 7 2 != 0 then none
  else match k with
    | 0 => if tgt < 64 && tgt != slot then some (0, tgt) else none
    | 1 => if tgt < 1024 && tgt != core then some (1, tgt) else none
    | 2 => if tgt % 16 == 0 && tgt < 1024 && tgt / 16 != core / 16 then some (2, tgt) else none
    | _ => none

/-- The bytes of an area by kind (R355). -/
def areaSize (kind : Nat) : Nat := match kind with | 0 => 0x2000 | 1 => 0x700000 | _ => 16 * 0x700000

/-- The target cores of a selector of kind 1 or 2. -/
def targetCores (kind tgt : Nat) : List Nat := if kind == 1 then [tgt] else (List.range 16).map (tgt + ·)

/-- A stopped thread can be saved now (R356): its results are in, its sends acknowledged, its bank-dot results delivered,
its running matrix commands posted. -/
def threadSettled (k : CoreSt) (t : Thread) : Bool :=
  t.allKnown && t.sends.isEmpty && t.beats.isEmpty && t.q3.all (fun e => e.2.isSome) &&
  !k.slice.order.any (fun m => m.uid == t.uid && m.phase != .queued) &&
  match t.status with
  | .ready | .parked _ | .gangHold | .stopped => true
  | .blocked (.barrierRelease _) _ => true
  | _ => false

/-- A core can be saved now (R356). -/
def coreSettled (s : State) (c : Nat) : Bool :=
  let k := s.core c
  k.threads.all (fun t => threadSettled k t.2) && k.copies.isEmpty && k.locks.isEmpty && k.sinkq.isEmpty

/-- A thread is stopped: by a stop (R350), or as after a double fault. -/
def isStopped (t : Thread) : Bool := !t.stops.isEmpty || t.status == .stopped

/-- Every context of a core is stopped. -/
def coreStopped (k : CoreSt) : Bool := k.threads.all fun t => isStopped t.2

/-- The waits of CSAVE are over (R356), or those of CLOAD (R357: room in the q0 order). -/
def contextReady (s : State) (core slot : Nat) (load : Bool) (sel : Word) : Bool :=
  match selector core slot sel with
  | none => true
  | some (0, tgt) =>
    if load then true
    else match s.thread? core tgt with
      | none => true
      | some t => threadSettled (s.core core) t
  | some (kind, tgt) => load || (targetCores kind tgt).all (coreSettled s)

/-! ### CSAVE (R356) -/

/-- Take a thread off its core as saved. -/
def removeThread (s : State) (c slot : Nat) (t : Thread) : State :=
  let s0 := endStreams s t.lease
  let k := s0.core c
  let k1 := { k with
    copies := k.copies.map fun o => if o.2.uid == t.uid then (o.1, { o.2 with detached := true }) else o,
    slice := { k.slice with
      order := k.slice.order.filter fun m => !(m.uid == t.uid && m.phase == .queued),
      kept := match k.slice.kept with | some (u, b) => if u == t.uid then none else some (u, b) | none => none } }
  (s0.setCore c k1).delThread c slot

/-- The bookmark a slice keeps for a thread. -/
def keptBook (k : CoreSt) (uid : Nat) : Option (List Word) :=
  match k.slice.kept with
  | some (u, b) => if u == uid then some b else none
  | none => none

/-- A queue slot in a core area (R359). -/
def queueWords (q : RunQueue) : List Word :=
  [word (2 ^ 63 + q.level * 2 ^ 56 + q.tickets * 2 ^ 40 + q.miss * 2 ^ 29), word (groupBits q.group)]

/-- A mailbox set in a core area (R359). -/
def mailWords (g : GroupId) (m : MailSet) : List Word :=
  let w0 : Word := word (2 ^ 63 + groupBits g / 2 ^ 34 * 2 ^ 33 + m.mberr.toNat)
  w0 :: (List.range 8).map fun i =>
    word ((tgetD m.count (2 * i) 0).toNat + 2 ^ 32 * (tgetD m.count (2 * i + 1) 0).toNat)

/-- The bytes of a memory moved up by an offset. -/
def shift (m : Memory) (o : Nat) : Memory := m.map fun c => (c.1 + o, c.2)

/-- The full/empty tags as a bit map (R359). -/
def tagsImage (k : CoreSt) : Memory :=
  let full : Memory := (List.range 0x10000).map fun i => (0xA0000 + i, 0xFF)
  k.empty.foldl (fun m w => m.setByte (0xA0000 + w / 8) (m.byte (0xA0000 + w / 8) &&& ~~~ (BitVec.ofNat 8 (2 ^ (w % 8))))) full

/-- A core area (R359). -/
def coreImage (s : State) (c : Nat) : Memory :=
  let k := s.core c
  let m0 := putAll [] 0 [word (2 ^ 56 + 2 ^ 54 + 112 * 2 ^ 32 + s.ep c), word k.owner, k.dtab, word k.rng.toNat, k.mwlim,
    k.mglim, k.fewlim]
  let m1 := (List.range 16).foldl (fun m l => put m (0x40 + 8 * l) (word (tgetD k.win l 0 * 256 + tgetD k.left l 0))) m0
  let m2 := k.queues.foldl (fun m q => putAll m (0x100 + 16 * q.1) (queueWords q.2)) m1
  let m3 := putEach (fun m o (e : GroupId × MailSet) => putAll m o (mailWords e.1 e.2)) m2 0x500 128 k.mail
  let m4 := putAll m3 0xD00 [word k.slice.mode, (match k.slice.bka with | some o => word (2 ^ 63 + o) | none => 0),
    (match k.slice.gang with | some g => word (2 ^ 16 + g) | none => 0), word k.slice.order.length]
  let m5 := match k.slice.kept with | some (_, b) => putAll m4 0xD40 b | none => m4
  let m6 := putEach (fun m o (x : MCmd) => putAll m o (cmdWords x x.slot 22)) m5 0xE00 32 k.slice.order
  let m7 := putEach (fun m o (x : MCmd) => putAll m o (cmdBook x)) m6 0x1000 64 k.slice.order
  let m8 := k.slice.acc.foldl (fun m e => m.write (0x10000 + 4 * e.1) 4 e.2.toNat) m7
  let m9 := k.threads.foldl (fun m t => threadImage s c t.2.flush [] none m (0x20000 + 0x2000 * t.1)) m8
  m9 ++ tagsImage k ++ shift k.lstore 0x100000 ++ shift k.bstore 0x500000

/-- The poisoned words of a core's stores as words of its area. -/
def corePoison (k : CoreSt) : List Nat :=
  k.poison.filterMap fun p => if p.1 == 0 then some (0x100000 / 8 + p.2) else if p.1 == 1 then some (0x500000 / 8 + p.2) else none

/-- Write back and drop the dirty lines of a home cache (R356). -/
def cleanCache (s : State) (c : Nat) : State :=
  let k := s.core c
  let s1 := (k.cache.filter (·.dirty)).foldl (fun s l => writeBack s l) s
  s1.modCore c fun k => { k with cache := k.cache.filter fun l => !l.dirty }

/-- A core whose context has been saved (R356, R364): empty and sealed. -/
def sealCore (k : CoreSt) : CoreSt :=
  { k with threads := [], queues := [], mail := [], slice := {}, sealed := true, win := [], left := [] }

/-- The receive queues of a core go to their tasks' spill areas (R356). -/
def spillQueues (s : State) (c : Nat) : State :=
  ((s.core c).recvq.map (·.1)).foldl (fun s task => spillQueue s c task) s

/-- Save a core whose waits are over into the lines of its area. -/
def saveCore (s : State) (c : Nat) (homes : List (Xl × Nat)) : State :=
  let s1 := spillQueues (cleanCache s c) c
  let k := s1.core c
  writeArea (s1.setCore c (sealCore k)) (coreImage s1 c) (corePoison k) homes

/-- Save the cores of a selector, one area after another. -/
def saveCores (s : State) : List Nat → List (Xl × Nat) → State
  | [], _ => s
  | c :: cs, homes => saveCores (saveCore s c (homes.take (0x700000 / 32))) cs (homes.drop (0x700000 / 32))

/-- Targets that can be saved, once they have settled: none but stopped threads, and no core that produces an open folio (R355,
R356). -/
def canSave (s : State) (core kind tgt : Nat) : Bool :=
  if kind == 0 then (s.thread? core tgt).any isStopped
  else (targetCores kind tgt).all fun c => coreStopped (s.core c) && !producesFolio s c

/-- The image of a target that is saved, and its poisoned words. -/
def targetImage (s : State) (core kind tgt : Nat) : Memory × List Nat :=
  if kind == 0 then
    match s.thread? core tgt with
    | none => ([], [])
    | some u =>
      let k := s.core core
      (threadImage s core u.flush (waitingCmds k u.uid) (keptBook k u.uid) [] 0, [])
  else
    let cs := targetCores kind tgt
    let at' := cs.zip (List.range cs.length)
    (at'.flatMap fun e => shift (coreImage s e.1) (0x700000 * e.2),
     at'.flatMap fun e => (corePoison (s.core e.1)).map (· + 0xE0000 * e.2))

/-- A thread is marked as it is saved into another cube: it does not run meanwhile. -/
def freezeThread (s : State) (c slot : Nat) : State := s.modThread c slot fun t => { t with stops := 5 :: t.stops }

/-- The threads of a core. -/
def allThreads (s : State) (c : Nat) (f : State → Nat → State) : State := (slotsOf (s.core c)).foldl f s

/-- The packets by which an area of another cube is written or read, a line each (R355; DEDUCED, log 111). -/
def areaPackets (s : State) (x : Ctx) (t : Thread) (a : AreaOp) (ga : Word) (img : Memory × List Nat) : State :=
  let g : EngineTag :=
    { core := s.ep x.core, ref := .area a.id, group := t.group, tag := 0, count := false, key := (s.core x.core).owner,
      nt := false, task := t.task }
  let priv := (s.domEntry x.core t).priv
  a.todo.foldl (fun s i =>
    let at' := (ga + word (32 * i)).toNat
    let p : Piece := ⟨at', at', 32, i⟩
    if a.save then
      sendLanded s x.core x.slot t.uid t.dom 0 priv true g p ((List.range 32).map fun j => img.1.byte (32 * i + j))
        ((List.range 4).map fun j => img.2.contains (4 * i + j))
    else sendRead s x.core x.slot t.uid t.dom 0 priv g p) s

/-- A CSAVE or CLOAD begins with its area in another cube: the thread waits until every line has been answered (R355). Cores that
are saved are sealed (R364). -/
def startArea (s : State) (x : Ctx) (t : Thread) (save : Bool) (kind tgt : Nat) (ga : Word) : Out :=
  let a : AreaOp :=
    { id := s.nextId, save := save, slot := x.slot, uid := t.uid, dom := t.dom, kind := kind, tgt := tgt,
      todo := List.range (areaSize kind / 32) }
  let cores := if save && kind != 0 then targetCores kind tgt else []
  let s1 := cores.foldl (fun s c => spillQueues (cleanCache s c) c) s.bump
  let img := if save then targetImage s1 x.core kind tgt else ([], [])
  let s2 := cores.foldl (fun s c => allThreads (s.modCore c fun k => { k with sealed := true }) c fun s i => freezeThread s c i) s1
  let s3 := if save && kind == 0 then freezeThread s2 x.core tgt else s2
  let s4 := s3.modCore x.core fun k => { k with areas := k.areas ++ [a] }
  hold (areaPackets s4 x t a ga img) x
    (.blocked (.area a.id { x.resume x.c.d x.popped with fixed := save && kind != 0 }) (s.cyc x.core))

/-- CSAVE (R227, R355, R356). -/
def csaveBody (x : Ctx) (t : Thread) (s : State) : Out :=
  match readField s x t x.c.a with
  | .error w => .wait w
  | .ok (ga, s', p) =>
    let sel := t.scalar x.c.d
    let answer (n : Nat) (s : State) : Out := writeField s x x.c.d (word n) p 0
    match selector x.core x.slot sel with
    | none => answer 3 s'
    | some (kind, tgt) =>
      if !areaPlace ga (areaSize kind) then answer 2 s'
      else if !canSave s' x.core kind tgt then answer 1 s'
      else if !contextReady s' x.core x.slot false sel then .wait (.context false sel)
      else if eaCube ga != s'.logical then startArea s x t true kind tgt ga
      else match areaHomes s' x.core t true ga (areaSize kind) with
        | (none, s'') => answer 2 s''
        | (some homes, s'') =>
          if kind == 0 then
            match s''.thread? x.core tgt with
            | none => answer 1 s''
            | some u => answer 0 (writeArea (removeThread s'' x.core tgt u) (targetImage s'' x.core kind tgt).1 [] homes)
          else answer 0 (saveCores s'' (targetCores kind tgt) homes)

/-! ### CLOAD (R357) -/

/-- The group slot that a thread area names holds a placed group (R357). -/
def groupHeld (s : State) (g : GroupId) : Bool := g.cube != s.logical || !groupGone s g

/-- A thread area that a load accepts. -/
def areaLoads (s : State) (m : Memory) (b : Nat) : Bool := areaOk m b && groupHeld s (groupOfBits (get m (b + 0xB0)))

/-- Place a thread of an area into a slot; its withdrawn commands re-enter the order. -/
def loadThread (s : State) (c slot : Nat) (m : Memory) (b : Nat) (withOrder : Bool) : State :=
  let t := readThread s m b
  let n := get m (b + 0xB8)
  let s1 := seat { s with nextId := s.nextId + 8, freeCtr := s.freeCtr + 1 } c slot t
  if !withOrder then s1
  else
    let cmds := readOrder m (b + 0x400) (b + 0x800) (bits n 41 37) 16 fun _ => some (t.uid, slot, t.mseq, t.dom)
    let book := if bit (get m (b + 0x640)) 0 then some (t.uid, getAll m (b + 0x600) 8) else none
    s1.modCore c fun k => { k with slice := { k.slice with
      order := k.slice.order ++ cmds, kept := match book with | some x => some x | none => k.slice.kept } }

/-- A core area that a load accepts (R357, R359). -/
def coreAreaOk (s : State) (m : Memory) : Bool :=
  let slots := (List.range 64).filter fun i => !zeroIn m (0x20000 + 0x2000 * i) (0x22000 + 0x2000 * i)
  let leases := slots.map fun i => bits (get m (0x20008 + 0x2000 * i)) 18 16
  bits (get m 0) 63 54 == 5 && bits (get m 0) 53 48 == 0 && bits (get m 0) 47 32 == 112 && bits (get m 8) 63 7 == 0 &&
  slots.all (fun i => areaLoads s m (0x20000 + 0x2000 * i)) && leases.foldl (· + ·) 0 ≤ 4 &&
  (leases.filter (0 < ·)).length ≤ 4 && bits (get m 0xD18) 63 5 == 0 && bits (get m 0xD18) 4 0 ≤ 16 &&
  (readCmds m 0xE00 0x1000 (bits (get m 0xD18) 4 0) 22).isSome &&
  booksZero m 0xE00 0x1000 (bits (get m 0xD18) 4 0) 0x200 && bits (get m 0xD00) 63 2 == 0 &&
  zeroIn m 0x38 0x40 && zeroIn m 0xC0 0x100 && zeroIn m 0xD20 0xD40 && zeroIn m 0xD80 0xE00 && zeroIn m 0x1400 0x10000 &&
  zeroIn m 0xB0000 0x100000 && (s.key? (bits (get m 8) 6 0)).isSome

/-- The target core of a load is free (R357). -/
def coreFree (s : State) (c owner : Nat) : Bool :=
  let k := s.core c
  k.threads.isEmpty && k.locks.isEmpty && k.slice.order.isEmpty && k.copies.isEmpty && k.slice.sub.isNone &&
  !producesFolio s c && !k.buoys.any (fun b => b.2.key == owner)

/-- The bytes of an image in a range, moved down. -/
def cut (m : Memory) (lo hi : Nat) : Memory := (m.filter fun c => lo ≤ c.1 && c.1 < hi).map fun c => (c.1 - lo, c.2)

/-- The mailbox sets of an image (R359). -/
def readMail (m : Memory) : List (GroupId × MailSet) :=
  (List.range 16).filterMap fun i =>
    let w0 := get m (0x500 + 128 * i)
    if !bit w0 63 then none
    else some (groupOfBits (word (bits w0 62 33 * 2 ^ 34)),
      { count := (List.range 16).foldl (fun t j =>
          tset t j (BitVec.ofNat 32 (m.read (0x508 + 128 * i + 4 * j) 4))) [],
        mberr := BitVec.ofNat 16 (bits w0 15 0) })

/-- The run queues of an image (R359). -/
def readQueues (s : State) (m : Memory) : Tab RunQueue :=
  (List.range 64).filterMap fun i =>
    let d := get m (0x100 + 16 * i)
    if !bit d 63 then none
    else
      let g := groupOfBits (get m (0x108 + 16 * i))
      some (i, { task := launchField s g 5, group := g, level := bits d 59 56, tickets := bits d 55 40, miss := bits d 39 29 })

/-- The core state of an image, its threads apart (R357, R359). -/
def loadedCore (s : State) (k : CoreSt) (m : Memory) (bad : List Nat) : CoreSt :=
  { k with
    lstore := cut m 0x100000 0x500000, bstore := cut m 0x500000 0x700000,
    empty := (List.range 0x80000).filter fun w => !bit (m.byte (0xA0000 + w / 8)) (w % 8),
    poison := (k.poison.filter fun p => p.1 == 2) ++ bad.filterMap fun w =>
      if w < 0x20000 then none else if w < 0xA0000 then some (0, w - 0x20000) else some (1, w - 0xA0000),
    owner := bits (get m 8) 6 0, dtab := get m 0x10, doms := [], rng := BitVec.ofNat 32 (bits (get m 0x18) 31 0),
    mwlim := get m 0x20, mglim := get m 0x28, fewlim := get m 0x30,
    win := (List.range 16).map fun l => (l, bits (get m (0x40 + 8 * l)) 13 8),
    left := (List.range 16).map fun l => (l, bits (get m (0x40 + 8 * l)) 6 0),
    queues := readQueues s m, mail := readMail m, sealed := false,
    stops := 3 :: k.stops.filter (· != 3),
    slice := {
      acc := (List.range 0x4000).filterMap fun i =>
        let v := m.read (0x10000 + 4 * i) 4
        if v == 0 then none else some (i, BitVec.ofNat 32 v),
      mode := bits (get m 0xD00) 1 0,
      bka := if bit (get m 0xD08) 63 then some (bits (get m 0xD08) 21 0) else none,
      gang := if bit (get m 0xD10) 16 then some (bits (get m 0xD10) 15 0) else none,
      kept := if zeroIn m 0xD40 0xD80 then none else some (0, getAll m 0xD40 8) } }

/-- Load a core (R357): its state, then every thread in its saved slot, stopped, then the q0 order. -/
def loadCore (s : State) (c : Nat) (m : Memory) (bad : List Nat) : State :=
  let s1 := s.setCore c (loadedCore s (s.core c) m bad)
  let slots := (List.range 64).filter fun i => !zeroIn m (0x20000 + 0x2000 * i) (0x22000 + 0x2000 * i)
  let s2 := slots.foldl (fun s i => loadThread s c i m (0x20000 + 0x2000 * i) false) s1
  let cmds := readOrder m 0xE00 0x1000 (bits (get m 0xD18) 4 0) 22 fun slot =>
    (s2.thread? c slot).map fun t => (t.uid, slot, t.mseq, t.dom)
  let s3 := s2.modCore c fun k => { k with slice := { k.slice with order := cmds } }
  slots.foldl (fun s i => s.modThread c i fun t =>
    { t with out0 := t.q0.length + (cmds.filter fun m => m.uid == t.uid && (match m.kind with | .mcfg _ => false | _ => true)).length }) s3

/-- Load the cores of a selector from one image each. -/
def loadCores (s : State) : List (Nat × Memory × List Nat) → State
  | [] => s
  | (c, m, bad) :: rest => loadCores (loadCore s c m bad) rest

/-- Cut an image of several core areas into one for each core. -/
def coreAreas (cores : List Nat) (m : Memory) (bad : List Nat) : List (Nat × Memory × List Nat) :=
  (cores.zip (List.range cores.length)).map fun e =>
    let lo := e.2 * 0x700000
    (e.1, cut m lo (lo + 0x700000), (bad.filter fun w => lo / 8 ≤ w && w < (lo + 0x700000) / 8).map fun w => w - lo / 8)

/-- A store of a size with free byte writes (R357; log 57). -/
def spoil (m : Memory) (size : Nat) (ws : List (Nat × Nat)) : Memory :=
  ws.foldl (fun m w => m.setByte (w.1 % size) (BitVec.ofNat 8 w.2)) m

/-- A core load that ends with status 2 leaves the local store and the B-store of its targets unspecified (R357). -/
def abandonCores (s : State) (cores : List Nat) : State :=
  (cores.foldl (fun s c => s.modCore c fun k => { k with
    lstore := spoil k.lstore 0x400000 (Config.abandoned s.freeCtr c 0),
    bstore := spoil k.bstore 0x200000 (Config.abandoned s.freeCtr c 1) }) s).tick

/-- Load an image that has been read, or find that it cannot be loaded (R357): the status and the state. -/
def loadImage (s : State) (core kind tgt : Nat) (m : Memory) (bad : List Nat) : Nat × State :=
  if kind == 0 then
    let k := s.core core
    if (tget k.threads tgt).isSome then (1, s)
    else if !areaLoads s m 0 || !bad.isEmpty then (2, s)
    else
      let w := bits (get m 8) 18 16
      if w != 0 && !(leaseRoom k w && k.leaseq.isEmpty) then (1, s) else (0, loadThread s core tgt m 0 true)
  else
    let areas := coreAreas (targetCores kind tgt) m bad
    if areas.any fun a => !coreFree s a.1 (bits (get a.2.1 8) 6 0) then (1, s)
    else if areas.any fun a => !coreAreaOk s a.2.1 || a.2.2.any (fun w => w < 0x20000) then
      (2, abandonCores s (targetCores kind tgt))
    else (0, replayAll (loadCores s areas))

/-- Every line of an area in another cube has been answered: the target is saved and leaves its core, or the image is loaded; after
a failure the target is as it was (R355-R357). -/
def finishArea (s : State) (c id : Nat) (r : Resume) : Option State :=
  match (s.core c).areas.find? fun a => a.id == id with
  | none => none
  | some a =>
    if !a.todo.isEmpty then none
    else
      let s1 := s.modCore c fun k => { k with areas := k.areas.filter fun a => a.id != id }
      let thaw (s : State) (d slot : Nat) : State := s.modThread d slot fun t => { t with stops := t.stops.filter (· != 5) }
      let y : Nat × State :=
        if !a.save then
          if a.failed then (2, s1)
          else
            let img := imageOf a.got
            loadImage s1 c a.kind a.tgt img.1 img.2
        else if a.kind == 0 then
          if a.failed then (2, thaw s1 c a.tgt)
          else match s1.thread? c a.tgt with
            | none => (1, s1)
            | some u => (0, removeThread s1 c a.tgt u)
        else if a.failed then
          (2, replayAll ((targetCores a.kind a.tgt).foldl (fun s d =>
            allThreads (s.modCore d fun k => { k with sealed := false }) d fun s i => thaw s d i) s1))
        else (0, (targetCores a.kind a.tgt).foldl (fun s d => s.modCore d sealCore) s1)
      some (completeChain y.2 c a.slot r (some (word y.1)))

/-- CLOAD (R227, R355, R357). -/
def cloadBody (x : Ctx) (t : Thread) (s : State) : Out :=
  match readField s x t x.c.a with
  | .error w => .wait w
  | .ok (ga, s', p) =>
    let sel := t.scalar x.c.d
    let answer (n : Nat) (s : State) : Out := writeField s x x.c.d (word n) p 0
    match selector x.core x.slot sel with
    | none => answer 3 s'
    | some (kind, tgt) =>
      if !areaPlace ga (areaSize kind) then answer 2 s'
      else if eaCube ga != s'.logical then startArea s x t false kind tgt ga
      else match areaHomes s' x.core t false ga (areaSize kind) with
        | (none, s'') => answer 2 s''
        | (some homes, s'') =>
          let r := readArea s'' homes
          let y := loadImage r.2 x.core kind tgt r.1.1 r.1.2
          answer y.1 y.2

/-- CSAVE: save a context (R227, spec/16 R356). -/
def execCsave (c : Chain) (s : State) : Host.Outcome State Fault Refusal :=
  issueChain .csave c (csaveBody) s

/-- CLOAD: load a context (R227, spec/16 R357). -/
def execCload (c : Chain) (s : State) : Host.Outcome State Fault Refusal :=
  issueChain .cload c (cloadBody) s

end Sys2Proof.Machine
end

