-- ==== Sys2Proof/Machine/Control.lean ====
section
/-! DEFINITION. Branches, calls, the end and the yielding of a thread, the cycle counter (spec/04 R101-R103,
R106-R109). -/

namespace Sys2Proof.Machine

/-- The target of BT, BF and CALL (spec/02 R54). -/
def branchTarget (x : Ctx) : Nat := (((x.start : Int) + 2 * immInt x.o x.c) % 0x40000).toNat

/-- BT and BF (R101). -/
def branchBody (sense : Bool) (x : Ctx) (t : Thread) (s : State) : Out :=
  if pwPred t.pw x.c.d.toNat == sense then .jump s (branchTarget x) else .done s

/-- A register target of JR and CALLR (R102): a[17:0], or ALIGN. -/
def registerTarget (x : Ctx) (a : Word) : Except Out Nat :=
  if bit a 0 then .error (x.trap cALIGN 0 a) else .ok (bits a 17 0)

/-- JR (R102). -/
def jrBody (x : Ctx) (t : Thread) (s : State) : Out :=
  match registerTarget x (t.scalar x.c.a) with
  | .error o => o
  | .ok pc => .jump s pc

/-- Write the link and jump. -/
def linkTo (x : Ctx) (s : State) (v : Word) (pc : Nat) : Out :=
  match writeField s x x.c.d v false 0 with
  | .done s' => .jump s' pc
  | o => o

/-- CALL (R102): d := next_pc. -/
def callBody (x : Ctx) (_ : Thread) (s : State) : Out := linkTo x s (word x.next) (branchTarget x)

/-- CALLR (R102): reads a before it writes d. -/
def callrBody (x : Ctx) (t : Thread) (s : State) : Out :=
  match registerTarget x (t.scalar x.c.a) with
  | .error o => o
  | .ok pc => linkTo x s (word x.next) pc

/-- EXIT (R107): GATE inside a gate call; else the thread issues nothing more, and ends once its pending results are in.
-/
def exitBody (x : Ctx) (t : Thread) (s : State) : Out :=
  if !t.gates.isEmpty then x.trap cGATE 5 (Config.gateAddr 5 s.freeCtr)
  else .over (endThread (s.setThread x.core x.slot { t with status := .exiting }) x.core x.slot)

/-- YIELD parks as at a marker (R108). -/
def yieldBody (x : Ctx) (t : Thread) (s : State) : Out :=
  .over (settle (s.setThread x.core x.slot { t with pc := x.next, status := .parked true }) x.core x.slot)

/-- NOP: does nothing (R106). -/
def execNop (c : Chain) (s : State) : Host.Outcome State Fault Refusal :=
  issueChain .nop c (fun _ _ s => .done s) s

/-- BT: branch if the predicate is 1 (R101). -/
def execBt (c : Chain) (s : State) : Host.Outcome State Fault Refusal :=
  issueChain .bt c (branchBody true) s

/-- BF: branch if the predicate is 0 (R101). -/
def execBf (c : Chain) (s : State) : Host.Outcome State Fault Refusal :=
  issueChain .bf c (branchBody false) s

/-- CALL: link and branch (R102). -/
def execCall (c : Chain) (s : State) : Host.Outcome State Fault Refusal :=
  issueChain .call c (callBody) s

/-- CALLR: link and branch to a register (R102). -/
def execCallr (c : Chain) (s : State) : Host.Outcome State Fault Refusal :=
  issueChain .callr c (callrBody) s

/-- JR: branch to a register (R102). -/
def execJr (c : Chain) (s : State) : Host.Outcome State Fault Refusal :=
  issueChain .jr c (jrBody) s

/-- EXIT: end the thread (R107). -/
def execExit (c : Chain) (s : State) : Host.Outcome State Fault Refusal :=
  issueChain .exit c (exitBody) s

/-- YIELD: park, then last in the queue (R108). -/
def execYield (c : Chain) (s : State) : Host.Outcome State Fault Refusal :=
  issueChain .yield c (yieldBody) s

/-- RDCYC: the core cycle counter, modulo 2^64 (R109). -/
def execRdcyc (c : Chain) (s : State) : Host.Outcome State Fault Refusal :=
  issueChain .rdcyc c (fun x _ s => writeField s x x.c.d (word (s.cyc x.core)) false 0) s

end Sys2Proof.Machine
end

