-- ==== Sys2Proof/Machine/Float.lean ====
section
/-! DEFINITION. Scalar floating point and FMT (spec/04 R110-R118). -/

namespace Sys2Proof.Machine

/-- A format code FSEL names is permitted for a source: codes 0 to 6 (R81, R110). -/
def fselFmtOk (code : Nat) : Bool := code ≤ 6

/-- The operands of a page-1 instruction of shape "x, y[, z]" as values (R110). -/
def fsources (x : Ctx) (t : Thread) (s : State) : Except Out (FVal × FVal × State × Bool) :=
  let ctl := fctlOf x.pw
  let fa := fmtA x.pw true x.et
  let fb := fmtB x.pw true x.et
  if !fselFmtOk fa || (x.c.hasReg && !fselFmtOk fb) then .error (x.trap cILLOP)
  else match readField s x t x.c.a with
    | .error w => .error (.wait w)
    | .ok (a, s1, p1) =>
      if x.c.hasReg then
        match readField s1 x t x.c.b with
        | .error w => .error (.wait w)
        | .ok (b, s2, p2) =>
          .ok (fread ctl (fmtOf fa) (a.toNat % 2 ^ (fmtOf fa).width), fread ctl (fmtOf fb) (b.toNat % 2 ^ (fmtOf fb).width), s2, p1 || p2)
      else
        .ok (fread ctl (fmtOf x.et) ((t.scalar x.c.d).toNat % 2 ^ (fmtOf x.et).width),
          fread ctl (fmtOf fa) (a.toNat % 2 ^ (fmtOf fa).width), s1, p1)

/-- Write a floating-point result to d (R110, R66): zero-extended, exceptions into the sticky flags. -/
def fresult (x : Ctx) (s : State) (fmt : Nat) (v : FVal) (tail : Bool) (fl : Flags) (long : Bool) : Out :=
  let w := fwriteSt (fctlOf x.pw) (fmtOf fmt) v tail
  writeField s x x.c.d (word w.1) long (w.2 ||| fl) [.flags]

/-- d := f(x, y) (R110). -/
def fop2 (f : RMode → FVal → FVal → FVal × Flags) (x : Ctx) (t : Thread) (s : State) : Out :=
  match fsources x t s with
  | .error o => o
  | .ok (a, b, s', p) =>
    let r := f (fctlOf x.pw).mode a b
    let w := fwrite (fctlOf x.pw) (fmtOf x.et) r.1
    writeField s' x x.c.d (word w.1) p (w.2 ||| r.2)

/-- FDIV (R110): long, its flags pending. -/
def fdivBody (x : Ctx) (t : Thread) (s : State) : Out :=
  match fsources x t s with
  | .error o => o
  | .ok (a, b, s', _) =>
    let r := fdivX a b
    fresult x s' x.et r.1 r.2.1 r.2.2 true

/-- One source of a page-1 instruction (R110), with the default format given and AV honoured or not. -/
def fsource1 (x : Ctx) (t : Thread) (s : State) (dflt : Nat) (honours : Bool) :
    Except Out (Nat × Nat × State × Bool) :=
  let fa := fmtA x.pw honours dflt
  if !fselFmtOk fa then .error (x.trap cILLOP)
  else match readField s x t x.c.a with
    | .error w => .error (.wait w)
    | .ok (a, s', p) => .ok (fa, a.toNat % 2 ^ (fmtOf fa).width, s', p)

/-- FSQRT (R110): long. -/
def fsqrtBody (x : Ctx) (t : Thread) (s : State) : Out :=
  match fsource1 x t s x.et true with
  | .error o => o
  | .ok (fa, a, s', _) =>
    let r := fsqrtX (fread (fctlOf x.pw) (fmtOf fa) a)
    fresult x s' x.et r.1 r.2.1 r.2.2 true

/-- FMA and FMS (R110): c + x × y or c − x × y with one rounding; b is read with or without XREG. -/
def fmaBody (subtract : Bool) (x : Ctx) (t : Thread) (s : State) : Out :=
  let ctl := fctlOf x.pw
  let fa := fmtA x.pw true x.et
  let fb := fmtB x.pw true x.et
  if !fselFmtOk fa || !fselFmtOk fb then x.trap cILLOP
  else match readField s x t x.c.a with
    | .error w => .wait w
    | .ok (a, s1, p1) =>
      match readField s1 x t x.c.b with
      | .error w => .wait w
      | .ok (b, s2, p2) =>
        let va := fread ctl (fmtOf fa) (a.toNat % 2 ^ (fmtOf fa).width)
        let vb := fread ctl (fmtOf fb) (b.toNat % 2 ^ (fmtOf fb).width)
        let vc := fread ctl (fmtOf x.et) ((t.scalar x.c.d).toNat % 2 ^ (fmtOf x.et).width)
        let r := ffmaX ctl.mode vc (if subtract then va.neg else va) vb
        let w := fwrite ctl (fmtOf x.et) r.1
        writeField s2 x x.c.d (word w.1) (p1 || p2) (w.2 ||| r.2)

/-- FABS and FNEG (R113): the sign bit in ef; no flush, no flag. -/
def fsignBody (invert : Bool) (x : Ctx) (t : Thread) (s : State) : Out :=
  match fsource1 x t s x.et false with
  | .error o => o
  | .ok (fa, a, s', p) => writeField s' x x.c.d (word (fsignOp invert (fmtOf fa) a)) p 0

/-- The compares (R112); `quiet` ones set NV on a signalling NaN only. -/
def fcmpBody (quiet : Bool) (f : FVal → FVal → Bool) (x : Ctx) (t : Thread) (s : State) : Out :=
  let ctl := fctlOf x.pw
  let fa := fmtA x.pw true x.et
  let fb := fmtB x.pw true x.et
  if !fselFmtOk fa || !fselFmtOk fb then x.trap cILLOP
  else match readField s x t x.c.a with
    | .error w => .wait w
    | .ok (a, s1, p1) =>
      match readField s1 x t x.c.b with
      | .error w => .wait w
      | .ok (b, s2, p2) =>
        let va := fread ctl (fmtOf fa) (a.toNat % 2 ^ (fmtOf fa).width)
        let vb := fread ctl (fmtOf fb) (b.toNat % 2 ^ (fmtOf fb).width)
        let nv := if quiet then sigFlag va ||| sigFlag vb else if va.isNan || vb.isNan then flNV else 0
        writePred s2 x x.c.d.toNat (f va vb) (p1 || p2) nv

/-- x ≤ y of ordered values. -/
def fleX (x y : FVal) : Bool := fltX false x y || feqX x y
/-- Unordered. -/
def funX (x y : FVal) : Bool := x.isNan || y.isNan

/-- FCLASS (R113). -/
def fclassBody (x : Ctx) (t : Thread) (s : State) : Out :=
  match fsource1 x t s x.et true with
  | .error o => o
  | .ok (fa, a, s', p) => writeField s' x x.c.d (word (fclassOf (fmtOf fa) a)) p 0

/-- The controls of a conversion between equal formats, which copies an infinity (R114). -/
def FCtl.copying (c : FCtl) (same : Bool) : FCtl := if same then { c with ovf := true } else c

/-- FCVT (R110, R114): the source format is FP64 unless AV names one. -/
def fcvtBody (x : Ctx) (t : Thread) (s : State) : Out :=
  match fsource1 x t s 0 true with
  | .error o => o
  | .ok (fa, a, s', p) =>
    let v := fread (fctlOf x.pw) (fmtOf fa) a
    let w := fwrite ((fctlOf x.pw).copying (fa == x.et)) (fmtOf x.et) v
    writeField s' x x.c.d (word w.1) p (w.2 ||| sigFlag v)

/-- FTOI and FTON (R114, R76). -/
def ftoiBody (code : Nat) (x : Ctx) (t : Thread) (s : State) : Out :=
  match fsource1 x t s x.et true with
  | .error o => o
  | .ok (fa, a, s', p) =>
    let r := fToInt (fctlOf x.pw).mode (intMin code) (intMax code) (fread (fctlOf x.pw) (fmtOf fa) a)
    writeField s' x x.c.d (BitVec.ofInt 64 r.1) p r.2

/-- ITOF and NTOF (R114, R76). -/
def itofBody (code : Nat) (x : Ctx) (t : Thread) (s : State) : Out :=
  match readField s x t x.c.a with
  | .error w => .wait w
  | .ok (a, s', p) =>
    let w := fwrite (fctlOf x.pw) (fmtOf x.et) (fromInt (intOf code a.toNat) 0 false)
    writeField s' x x.c.d (word w.1) p w.2

/-- FRND (R114). -/
def frndBody (x : Ctx) (t : Thread) (s : State) : Out :=
  match fsource1 x t s x.et false with
  | .error o => o
  | .ok (fa, a, s', p) =>
    let r := frndX (fctlOf x.pw).mode (fread (fctlOf x.pw) (fmtOf fa) a)
    let w := fwrite (fctlOf x.pw) (fmtOf x.et) r.1
    writeField s' x x.c.d (word w.1) p (w.2 ||| r.2)

/-- FCLRF (R115): clear the sticky flags that the mask selects. -/
def fclrfBody (x : Ctx) (_ : Thread) (s : State) : Out :=
  .done (s.modThread x.core x.slot fun t => { t with pw := t.pw &&& ~~~ (word (x.immNat * 2 ^ 16)) })

/-- FMT (R117): PP := 1 and FSEL := imm, after the clearing of the old pair (R118). -/
def fmtBody (x : Ctx) (_ : Thread) (s : State) : Out :=
  .done (s.modThread x.core x.slot fun t => { t with pw := setPP t.pw (BitVec.ofNat 12 x.immNat) })

/-- FADD: x + y (R110). -/
def execFadd (c : Chain) (s : State) : Host.Outcome State Fault Refusal :=
  issueChain .fadd c (fop2 faddX) s

/-- FSUB: x - y (R110). -/
def execFsub (c : Chain) (s : State) : Host.Outcome State Fault Refusal :=
  issueChain .fsub c (fop2 (fun m a b => faddX m a b.neg)) s

/-- FMUL: x * y (R110). -/
def execFmul (c : Chain) (s : State) : Host.Outcome State Fault Refusal :=
  issueChain .fmul c (fop2 (fun _ a b => fmulX a b)) s

/-- FDIV: x / y, long (R110). -/
def execFdiv (c : Chain) (s : State) : Host.Outcome State Fault Refusal :=
  issueChain .fdiv c (fdivBody) s

/-- FMIN: smaller (R111). -/
def execFmin (c : Chain) (s : State) : Host.Outcome State Fault Refusal :=
  issueChain .fmin c (fop2 (fun _ a b => fminmaxX false a b)) s

/-- FMAX: larger (R111). -/
def execFmax (c : Chain) (s : State) : Host.Outcome State Fault Refusal :=
  issueChain .fmax c (fop2 (fun _ a b => fminmaxX true a b)) s

/-- FMA: c + x * y (R110). -/
def execFma (c : Chain) (s : State) : Host.Outcome State Fault Refusal :=
  issueChain .fma c (fmaBody false) s

/-- FMS: c - x * y (R110). -/
def execFms (c : Chain) (s : State) : Host.Outcome State Fault Refusal :=
  issueChain .fms c (fmaBody true) s

/-- FSQRT: square root, long (R110). -/
def execFsqrt (c : Chain) (s : State) : Host.Outcome State Fault Refusal :=
  issueChain .fsqrt c (fsqrtBody) s

/-- FABS: sign cleared (R113). -/
def execFabs (c : Chain) (s : State) : Host.Outcome State Fault Refusal :=
  issueChain .fabs c (fsignBody false) s

/-- FNEG: sign inverted (R113). -/
def execFneg (c : Chain) (s : State) : Host.Outcome State Fault Refusal :=
  issueChain .fneg c (fsignBody true) s

/-- FCMPEQ: x = y (R112). -/
def execFcmpeq (c : Chain) (s : State) : Host.Outcome State Fault Refusal :=
  issueChain .fcmpeq c (fcmpBody true feqX) s

/-- FCMPLT: x < y (R112). -/
def execFcmplt (c : Chain) (s : State) : Host.Outcome State Fault Refusal :=
  issueChain .fcmplt c (fcmpBody false (fltX false)) s

/-- FCMPLE: x <= y (R112). -/
def execFcmple (c : Chain) (s : State) : Host.Outcome State Fault Refusal :=
  issueChain .fcmple c (fcmpBody false fleX) s

/-- FCMPUN: unordered (R112). -/
def execFcmpun (c : Chain) (s : State) : Host.Outcome State Fault Refusal :=
  issueChain .fcmpun c (fcmpBody true funX) s

/-- FCLASS: class mask (R113). -/
def execFclass (c : Chain) (s : State) : Host.Outcome State Fault Refusal :=
  issueChain .fclass c (fclassBody) s

/-- FCVT: convert between formats (R110). -/
def execFcvt (c : Chain) (s : State) : Host.Outcome State Fault Refusal :=
  issueChain .fcvt c (fcvtBody) s

/-- FTOI: to i64 (R114). -/
def execFtoi (c : Chain) (s : State) : Host.Outcome State Fault Refusal :=
  issueChain .ftoi c (ftoiBody 3) s

/-- FTON: to n64 (R114). -/
def execFton (c : Chain) (s : State) : Host.Outcome State Fault Refusal :=
  issueChain .fton c (ftoiBody 7) s

/-- ITOF: from i64 (R114). -/
def execItof (c : Chain) (s : State) : Host.Outcome State Fault Refusal :=
  issueChain .itof c (itofBody 3) s

/-- NTOF: from n64 (R114). -/
def execNtof (c : Chain) (s : State) : Host.Outcome State Fault Refusal :=
  issueChain .ntof c (itofBody 7) s

/-- FRND: round to an integral value (R114). -/
def execFrnd (c : Chain) (s : State) : Host.Outcome State Fault Refusal :=
  issueChain .frnd c (frndBody) s

/-- FCLRF: clear sticky flags (R115). -/
def execFclrf (c : Chain) (s : State) : Host.Outcome State Fault Refusal :=
  issueChain .fclrf c (fclrfBody) s

/-- FMT: set the pending format selector (R117). -/
def execFmt (c : Chain) (s : State) : Host.Outcome State Fault Refusal :=
  issueChain .fmt c (fmtBody) s

end Sys2Proof.Machine
end

