-- ==== Sys2Proof/Machine/VecOps.lean ====
section
/-! DEFINITION. Operands of the vector instructions (spec/05 R119-R128): elements, mask control, stream registers, long results. -/

namespace Sys2Proof.Machine

/-! ### Elements and masks (spec/05 R119, R120, R126) -/

/-- Element i of width w (R119). -/
def lane (w x i : Nat) : Nat := x / 2 ^ (w * i) % 2 ^ w

/-- Elements of width w laid from the low end (R119). -/
def packLanes (w : Nat) : List Nat → Nat
  | [] => 0
  | x :: rest => x % 2 ^ w + 2 ^ w * packLanes w rest

/-- Mask control names a mask (R52). -/
def Ctx.masked (x : Ctx) : Bool := (opRow x.o).imm == .mask && bit x.imm 2

/-- Element i is active (R126). -/
def Ctx.active (x : Ctx) (t : Thread) (i : Nat) : Bool :=
  !x.masked || bit (t.mask (bits x.imm 1 0)) i

/-- Inactive elements become zero (R126). -/
def Ctx.zeroing (x : Ctx) : Bool := bit x.imm 3

/-- The elements of a result and the exceptions of its active elements (R127): `f` for active elements, the old element
or zero for others. -/
def lanesOf (x : Ctx) (t : Thread) (n w old : Nat) (f : Nat → Nat × Flags) : Nat × Flags :=
  let rs : List (Nat × Flags) := (List.range n).map fun i =>
    if x.active t i then f i else (if x.zeroing then 0 else lane w old i, 0)
  (packLanes w (rs.map (·.1)), rs.foldl (fun a r => a ||| r.2) 0)

/-- The element count for a widest width; none beyond 128 (R120). -/
def laneCount (w : Nat) : Option Nat := if w < 8 then none else some (1024 / w)

/-! ### Vector operands (R128, R168-R170) -/

/-- Read a vector source field: a register, or the next strip of a source stream (R128, R169), whose poison the issue has
looked at. -/
def readVec (s : State) (x : Ctx) (t : Thread) (n : Nat) : Except Out (Nat × State) :=
  match t.stream? n with
  | none => .ok ((t.vreg n).toNat, s)
  | some st =>
    if st.pat.count ≤ st.used then .error (x.trap cILLOP)
    else match st.strips with
      | [] => .error (.wait (.stream n))
      | (v, _) :: rest =>
        let st' : Stream := { st with strips := rest, used := st.used + 1 }
        .ok (v.toNat, s.modThread x.core x.slot fun t =>
          { t with lease := t.lease.map fun l => { l with streams := tset l.streams n st' } })

/-- Strips that the sink streams of a thread have taken and the copy engine has not yet sent. -/
def sinkLoad (k : CoreSt) (uid : Nat) : Nat :=
  (k.sinkq.filter fun q => q.uid == uid && q.flying.isNone).length +
    ((k.threads.find? fun t => t.2.uid == uid).map (·.2.beats.length)).getD 0

/-- A sink stream has room for one more strip; how many it holds the spec does not say (log 26). -/
def sinkRoom (k : CoreSt) (uid : Nat) : Bool := sinkLoad k uid == 0 || decide (sinkLoad k uid ≤ Config.sinkDepth)

/-- Give a sink stream its next strip, which is handed over when its last beat is written (R128, R170). Its packets carry the
domain, privilege and owner tag of the stream's SMODE (spec/15 R345, R348). -/
def handOver (s : State) (x : Ctx) (t : Thread) (n : Nat) (st : Stream) (v : Nat) : State :=
  let q : SinkStrip :=
    { op := st.op, addr := (st.pat.strip st.used).toNat, data := BitVec.ofNat 1024 v, uid := t.uid, slot := x.slot, group := t.group,
      task := t.task, dom := st.dom, priv := st.priv, key := st.key, tag := st.pat.tag,
      cnt := st.pat.cnt, urg := st.pat.urg, nt := st.pat.nt }
  s.modThread x.core x.slot fun t =>
    { t with
      beats := t.beats ++ [q],
      lease := t.lease.map fun l => { l with streams := tset l.streams n { st with used := st.used + 1 } } }

/-- Write a long vector result (R121): pending with the sticky flags where the instruction is a floating-point one, or
handed to a sink stream. -/
def writeVec (s : State) (x : Ctx) (t : Thread) (v : Nat) (float : Bool) (fl : Flags) : Out :=
  let n := x.c.vd
  let fres : List Res := if float then [.flags] else []
  match t.stream? n with
  | some st =>
    if st.pat.count ≤ st.used then x.trap cILLOP
    else if !sinkRoom (s.core x.core) t.uid then .wait (.stream n)
    else
      let s' := handOver s x t n st v
      .done (if float then addPend s' x.core x.slot fres (some [.flags fl]) else s')
  | none => .done (addPend s x.core x.slot (.v n :: fres) (some [.v n (BitVec.ofNat 1024 v), .flags fl]))

/-- Write a long mask result. -/
def writeMask (s : State) (x : Ctx) (v : Nat) (float : Bool) (fl : Flags) : Out :=
  let n := x.c.d.toNat
  .done (addPend s x.core x.slot (.m n :: (if float then [.flags] else []))
    (some [.m n (BitVec.ofNat 128 v), .flags fl]))

/-- The sources of the shape "x, y[, z]" (R125): d and a without XREG, a and b with it. -/
def vsources (x : Ctx) (t : Thread) (s : State) : Except Out (Nat × Nat × State) :=
  match readVec s x t x.c.va with
  | .error o => .error o
  | .ok (a, s1) =>
    if x.c.hasReg then
      match readVec s1 x t x.c.vb with
      | .error o => .error o
      | .ok (b, s2) => .ok (a, b, s2)
    else .ok ((t.vreg x.c.vd).toNat, a, s1)

/-- The sources a and b of an instruction that always reads both. -/
def vsourcesAB (x : Ctx) (t : Thread) (s : State) : Except Out (Nat × Nat × State) :=
  match readVec s x t x.c.va with
  | .error o => .error o
  | .ok (a, s1) =>
    match readVec s1 x t x.c.vb with
    | .error o => .error o
    | .ok (b, s2) => .ok (a, b, s2)

/-- The old value of the destination register. -/
def oldVec (x : Ctx) (t : Thread) : Nat := (t.vreg x.c.vd).toNat
def oldMask (x : Ctx) (t : Thread) : Nat := (t.mask x.c.d.toNat).toNat

end Sys2Proof.Machine
end

