-- ==== Sys2Proof/Machine/VecFloat.lean ====
section
/-! DEFINITION. Floating-point vector instructions (spec/05 R127, R130, R131, R134). -/

namespace Sys2Proof.Machine

/-- The formats of x and y and the value of each element (R127, R130): `d op a` reads x from d in ef. -/
def vfmtX (x : Ctx) : Nat := if x.c.hasReg then fmtA x.pw true x.et else x.et
def vfmtY (x : Ctx) : Nat := if x.c.hasReg then fmtB x.pw true x.et else fmtA x.pw true x.et

/-- Width of a format code. -/
def fw (code : Nat) : Nat := (fmtOf code).width

/-- Element i of a source as a value (R127). -/
def flane (x : Ctx) (code v i : Nat) : FVal := fread (fctlOf x.pw) (fmtOf code) (lane (fw code) v i)

/-- Write an element in ef (R127): its code and exceptions. -/
def fput (x : Ctx) (code : Nat) (v : FVal) (tail : Bool) (fl : Flags) : Nat × Flags :=
  let r := fwriteSt (fctlOf x.pw) (fmtOf code) v tail
  (r.1, r.2 ||| fl)

/-- d[i] := f(x[i], y[i]) in floating point (R127, R130). -/
def vf2 (f : RMode → FVal → FVal → FVal × Bool × Flags) (x : Ctx) (t : Thread) (s : State) : Out :=
  let cx := vfmtX x
  let cy := vfmtY x
  if !fselFmtOk cx || !fselFmtOk cy then x.trap cILLOP
  else match vsources x t s with
    | .error o => o
    | .ok (a, b, s') =>
      match laneCount (max (fw x.et) (max (fw cx) (fw cy))) with
      | none => x.trap cILLOP
      | some n =>
        let r := lanesOf x t n (fw x.et) (oldVec x t) fun i =>
          let q := f (fctlOf x.pw).mode (flane x cx a i) (flane x cy b i)
          fput x x.et q.1 q.2.1 q.2.2
        writeVec s' x t r.1 true r.2

/-- An exact or rounded operation without a sticky tail. -/
def noTail (f : RMode → FVal → FVal → FVal × Flags) (m : RMode) (a b : FVal) : FVal × Bool × Flags :=
  let r := f m a b
  (r.1, false, r.2)

/-- VFMA (R130): d + a × b with one rounding; d read in ef. -/
def vfmaBody (x : Ctx) (t : Thread) (s : State) : Out :=
  let ca := fmtA x.pw true x.et
  let cb := fmtB x.pw true x.et
  if !fselFmtOk ca || !fselFmtOk cb then x.trap cILLOP
  else match vsourcesAB x t s with
    | .error o => o
    | .ok (a, b, s') =>
      match laneCount (max (fw x.et) (max (fw ca) (fw cb))) with
      | none => x.trap cILLOP
      | some n =>
        let d := oldVec x t
        let r := lanesOf x t n (fw x.et) d fun i =>
          let q := ffmaX (fctlOf x.pw).mode (flane x x.et d i) (flane x ca a i) (flane x cb b i)
          fput x x.et q.1 false q.2
        writeVec s' x t r.1 true r.2

/-- An instruction of one float source in format `code` whose result elements have width `wd`; `f` takes the bits of a
source element. -/
def vf1 (code wd : Nat) (f : Nat → Nat × Flags) (x : Ctx) (t : Thread) (s : State) : Out :=
  if !fselFmtOk code then x.trap cILLOP
  else match readVec s x t x.c.va with
    | .error o => o
    | .ok (a, s') =>
      match laneCount (max wd (fw code)) with
      | none => x.trap cILLOP
      | some n =>
        let r := lanesOf x t n wd (oldVec x t) fun i => f (lane (fw code) a i)
        writeVec s' x t r.1 true r.2

/-- VSQRT (R130). -/
def vsqrtBody (x : Ctx) : Thread → State → Out :=
  let code := fmtA x.pw true x.et
  vf1 code (fw x.et) (fun a =>
    let q := fsqrtX (fread (fctlOf x.pw) (fmtOf code) a)
    fput x x.et q.1 q.2.1 q.2.2) x

/-- VABS and VNEG (R130, R113): the sign bit in ef. -/
def vsignBody (invert : Bool) (x : Ctx) : Thread → State → Out :=
  vf1 x.et (fw x.et) (fun a => (fsignOp invert (fmtOf x.et) a, 0)) x

/-- The float compares into masks (R131, R112). -/
def vfcmp (quiet : Bool) (f : FVal → FVal → Bool) (x : Ctx) (t : Thread) (s : State) : Out :=
  let ca := fmtA x.pw true x.et
  let cb := fmtB x.pw true x.et
  if !fselFmtOk ca || !fselFmtOk cb then x.trap cILLOP
  else match vsourcesAB x t s with
    | .error o => o
    | .ok (a, b, s') =>
      match laneCount (max (fw ca) (fw cb)) with
      | none => x.trap cILLOP
      | some n =>
        let r := lanesOf x t n 1 (oldMask x t) fun i =>
          let va := flane x ca a i
          let vb := flane x cb b i
          (flagBit (f va vb) 0,
            if quiet then sigFlag va ||| sigFlag vb else if va.isNan || vb.isNan then flNV else 0)
        writeMask s' x r.1 true r.2

/-- A position of a floating-point reduction: its format, its bits, the exceptions so far (R86). -/
structure RedElem where
  code  : Nat
  bits  : Nat
  fl    : Flags
  part  : Bool
  deriving DecidableEq, Repr

/-- One combination of a reduction (R86, R134). -/
def redCombine (x : Ctx) (f : RMode → FVal → FVal → FVal × Flags) (a b : RedElem) : RedElem :=
  let ctl := fctlOf x.pw
  let r := f ctl.mode (fread ctl (fmtOf a.code) a.bits) (fread ctl (fmtOf b.code) b.bits)
  let w := fwrite ctl (fmtOf x.et) r.1
  ⟨x.et, w.1, a.fl ||| b.fl ||| r.2 ||| w.2, true⟩

/-- The result of a reduction (R134): an element that met no partner is read and written in ef; a signalling NaN sets NV
(spec/03 R79). -/
def redFinish (x : Ctx) (r : RedElem) : Nat × Flags :=
  if r.part then (r.bits, r.fl)
  else
    let v := fread (fctlOf x.pw) (fmtOf r.code) r.bits
    let w := fwrite (fctlOf x.pw) (fmtOf x.et) v
    (w.1, r.fl ||| w.2 ||| sigFlag v)

/-- VRSUM, VRMIN, VRMAX (R134). -/
def vfreduce (f : RMode → FVal → FVal → FVal × Flags) (sum : Bool) (x : Ctx) (t : Thread) (s : State) : Out :=
  let code := fmtA x.pw true 1
  if !fselFmtOk code then x.trap cILLOP
  else match readVec s x t x.c.va with
    | .error o => o
    | .ok (a, s') =>
      match laneCount (fw code) with
      | none => x.trap cILLOP
      | some n =>
        let xs : List (Option RedElem) := (List.range n).map fun i =>
          if x.active t i then some ⟨code, lane (fw code) a i, 0, false⟩ else none
        let r := match treeFold (redCombine x f) 7 (xs ++ List.replicate (128 - n) none) with
          | none => (if sum then 0 else (fmtOf x.et).nanCode, 0)
          | some e => redFinish x e
        writeField s' x x.c.d (word r.1) true r.2 [.flags]

/-- VADD (R130). -/
def execVadd (c : Chain) (s : State) : Host.Outcome State Fault Refusal :=
  issueChain .vadd c (vf2 (noTail faddX)) s

/-- VSUB (R130). -/
def execVsub (c : Chain) (s : State) : Host.Outcome State Fault Refusal :=
  issueChain .vsub c (vf2 (noTail fun m a b => faddX m a b.neg)) s

/-- VMUL (R130). -/
def execVmul (c : Chain) (s : State) : Host.Outcome State Fault Refusal :=
  issueChain .vmul c (vf2 (noTail fun _ a b => fmulX a b)) s

/-- VDIV (R130). -/
def execVdiv (c : Chain) (s : State) : Host.Outcome State Fault Refusal :=
  issueChain .vdiv c (vf2 (fun _ a b => fdivX a b)) s

/-- VMIN (R130). -/
def execVmin (c : Chain) (s : State) : Host.Outcome State Fault Refusal :=
  issueChain .vmin c (vf2 (noTail fun _ a b => fminmaxX false a b)) s

/-- VMAX (R130). -/
def execVmax (c : Chain) (s : State) : Host.Outcome State Fault Refusal :=
  issueChain .vmax c (vf2 (noTail fun _ a b => fminmaxX true a b)) s

/-- VFMA (R130). -/
def execVfma (c : Chain) (s : State) : Host.Outcome State Fault Refusal :=
  issueChain .vfma c (vfmaBody) s

/-- VSQRT (R130). -/
def execVsqrt (c : Chain) (s : State) : Host.Outcome State Fault Refusal :=
  issueChain .vsqrt c (vsqrtBody) s

/-- VABS (R130). -/
def execVabs (c : Chain) (s : State) : Host.Outcome State Fault Refusal :=
  issueChain .vabs c (vsignBody false) s

/-- VNEG (R130). -/
def execVneg (c : Chain) (s : State) : Host.Outcome State Fault Refusal :=
  issueChain .vneg c (vsignBody true) s

/-- VCMPEQ (R131). -/
def execVcmpeq (c : Chain) (s : State) : Host.Outcome State Fault Refusal :=
  issueChain .vcmpeq c (vfcmp true feqX) s

/-- VCMPLT (R131). -/
def execVcmplt (c : Chain) (s : State) : Host.Outcome State Fault Refusal :=
  issueChain .vcmplt c (vfcmp false (fltX false)) s

/-- VCMPLE (R131). -/
def execVcmple (c : Chain) (s : State) : Host.Outcome State Fault Refusal :=
  issueChain .vcmple c (vfcmp false fleX) s

/-- VCMPUN (R131). -/
def execVcmpun (c : Chain) (s : State) : Host.Outcome State Fault Refusal :=
  issueChain .vcmpun c (vfcmp true funX) s

/-- VRSUM: leaf-order sum (R134). -/
def execVrsum (c : Chain) (s : State) : Host.Outcome State Fault Refusal :=
  issueChain .vrsum c (vfreduce faddX true) s

/-- VRMIN: leaf-order minimum (R134). -/
def execVrmin (c : Chain) (s : State) : Host.Outcome State Fault Refusal :=
  issueChain .vrmin c (vfreduce (fun _ a b => fminmaxX false a b) false) s

/-- VRMAX: leaf-order maximum (R134). -/
def execVrmax (c : Chain) (s : State) : Host.Outcome State Fault Refusal :=
  issueChain .vrmax c (vfreduce (fun _ a b => fminmaxX true a b) false) s

end Sys2Proof.Machine
end

