-- ==== Sys2Proof/Machine/Convert.lean ====
section
/-! DEFINITION. Vector conversions and quantisation (spec/05 R139-R142). -/

namespace Sys2Proof.Machine

/-- VCVT (R139): float to float; OVF is honoured, a result in E2M1 saturates. -/
def vcvtBody (x : Ctx) : Thread → State → Out :=
  let code := fmtA x.pw true 1
  vf1 code (fw x.et) (fun a =>
    let v := fread (fctlOf x.pw) (fmtOf code) a
    fput x x.et v false (sigFlag v)) x

/-- VCVTI (R139, R76): float to integer. -/
def vcvtiBody (x : Ctx) : Thread → State → Out :=
  let code := fmtA x.pw true 1
  vf1 code (etWidth x.et) (fun a =>
    let r := fToInt (fctlOf x.pw).mode (intMin x.et) (intMax x.et) (fread (fctlOf x.pw) (fmtOf code) a)
    (wrapTo (etWidth x.et) r.1, r.2)) x

/-- The signed integer type that VCVTF reads for a result format (R139). -/
def cvtfInt (code : Nat) : Nat :=
  match code with
  | 0 => 3
  | 1 => 2
  | 2 | 3 => 1
  | _ => 0

/-- Controls with the overflow mode off: only VCVT honours OVF (R139). -/
def FCtl.saturating (c : FCtl) : FCtl := { c with ovf := false }

/-- VCVTF (R139): signed integer of the result's width to float. -/
def vcvtfBody (x : Ctx) (t : Thread) (s : State) : Out :=
  match readVec s x t x.c.va with
  | .error o => o
  | .ok (a, s') =>
    let w := fw x.et
    let r := lanesOf x t (1024 / w) w (oldVec x t) fun i =>
      fwrite (fctlOf x.pw).saturating (fmtOf x.et) (fromInt (intOf (cvtfInt x.et) (lane w a i)) 0 false)
    writeVec s' x t r.1 true r.2

/-- The 32 FP32 elements of a block (R141). -/
def blockOf (x : Ctx) (a : Nat) : List FVal := (List.range 32).map fun i => flane x 1 a i

/-- A block register (R140): elements from the low end, the scale in the top byte. -/
def blockReg (w scale : Nat) (codes : List Nat) : Nat := packLanes w codes + scale * 2 ^ 1016

/-- The exceptions of a quantisation (R70, R73): NV where the block holds a NaN or an infinity. -/
def quantFlags (xs : List FVal) (es : List (Nat × Flags)) : Flags :=
  (if hasSpecial xs then flNV else 0) ||| es.foldl (fun a e => a ||| e.2) 0

/-- MXQ (R141). -/
def mxqBody (x : Ctx) (t : Thread) (s : State) : Out :=
  if fmtA x.pw true 1 != 1 then x.trap cILLOP
  else match readVec s x t x.c.va with
    | .error o => o
    | .ok (a, s') =>
      let xs := blockOf x a
      let f := fmtOf x.et
      let scale := mxScale xs f.emax
      let es := xs.map (mxElem (fctlOf x.pw) f scale)
      writeVec s' x t (blockReg f.width scale (es.map (·.1))) true (quantFlags xs es)

/-- The FP32 results of a block read back (R141, R142). -/
def dequant (x : Ctx) (vals : List FVal) : Nat × Flags :=
  let rs := vals.map fun v => fwrite (fctlOf x.pw) .fp32 v
  (packLanes 32 (rs.map (·.1)), rs.foldl (fun a r => a ||| r.2) 0)

/-- MXDQ (R141). -/
def mxdqBody (x : Ctx) (t : Thread) (s : State) : Out :=
  match readVec s x t x.c.va with
  | .error o => o
  | .ok (a, s') =>
    let f := fmtOf x.et
    let scale := lane 8 a 127
    let vals := (List.range 32).map fun i =>
      if scale == 0xFF then FVal.nan false
      else fscale (fread (fctlOf x.pw) f (lane f.width a i)) ((scale : Int) - 127)
    let r := dequant x vals
    writeVec s' x t r.1 true r.2

/-- TSQ (R142): RM and FSEL are ignored. -/
def tsqBody (x : Ctx) (t : Thread) (s : State) : Out :=
  match readVec s x t x.c.va with
  | .error o => o
  | .ok (a, s') =>
    let xs := blockOf x a
    let scale := mxScale xs 0
    let es := xs.map (ts8Elem scale)
    writeVec s' x t (blockReg 8 scale (es.map (·.1))) true (quantFlags xs es)

/-- TSDQ (R142). -/
def tsdqBody (x : Ctx) (t : Thread) (s : State) : Out :=
  match readVec s x t x.c.va with
  | .error o => o
  | .ok (a, s') =>
    let scale := lane 8 a 127
    let vals := (List.range 32).map fun i =>
      if scale == 0xFF then FVal.nan false
      else fscale (fromInt (ts8Units (lane 8 a i)) (-6) false) ((scale : Int) - 127)
    let r := dequant x vals
    writeVec s' x t r.1 true r.2

/-- VCVT: float to float (R139). -/
def execVcvt (c : Chain) (s : State) : Host.Outcome State Fault Refusal :=
  issueChain .vcvt c (vcvtBody) s

/-- VCVTI: float to integer (R139). -/
def execVcvti (c : Chain) (s : State) : Host.Outcome State Fault Refusal :=
  issueChain .vcvti c (vcvtiBody) s

/-- VCVTF: integer to float (R139). -/
def execVcvtf (c : Chain) (s : State) : Host.Outcome State Fault Refusal :=
  issueChain .vcvtf c (vcvtfBody) s

/-- MXQ: quantise to an MX block (R141). -/
def execMxq (c : Chain) (s : State) : Host.Outcome State Fault Refusal :=
  issueChain .mxq c (mxqBody) s

/-- MXDQ: read an MX block (R141). -/
def execMxdq (c : Chain) (s : State) : Host.Outcome State Fault Refusal :=
  issueChain .mxdq c (mxdqBody) s

/-- TSQ: quantise to a TS8 block (R142). -/
def execTsq (c : Chain) (s : State) : Host.Outcome State Fault Refusal :=
  issueChain .tsq c (tsqBody) s

/-- TSDQ: read a TS8 block (R142). -/
def execTsdq (c : Chain) (s : State) : Host.Outcome State Fault Refusal :=
  issueChain .tsdq c (tsdqBody) s

end Sys2Proof.Machine
end

