-- ==== Sys2Proof/Machine/VecMem.lean ====
section
/-! DEFINITION. Vector leases and vector accesses to the local store (spec/05 R122, R123, R136-R138). -/

namespace Sys2Proof.Machine

/-- VLEASE (R122): refused to a thread that holds a lease, suspended or not (R212; log 27); granted behind the core's blocked
requests. -/
def vleaseBody (x : Ctx) (t : Thread) (s : State) : Out :=
  let n := x.immNat
  let k := s.core x.core
  if t.lease.isSome then x.trap cILLOP
  else if leaseRoom k n && k.leaseq.isEmpty then .done (s.modThread x.core x.slot (·.leased n))
  else .wait (.lease n (x.resume 10))

/-- VFREE (R123). -/
def vfreeBody (x : Ctx) (t : Thread) (s : State) : Out :=
  .done ((endStreams s t.lease).modThread x.core x.slot fun t => { t with lease := none, parity := t.parity.filter scalarRes })

/-- VLD (R136): one access at issue. -/
def vldBody (x : Ctx) (t : Thread) (s : State) : Out :=
  match memAddr s x t with
  | .error w => .wait w
  | .ok (ea, s', _) =>
    match windowLoad (s'.core x.core) (s'.domEntry x.core t) ea 128 8 with
    | .error e => x.raise e
    | .ok v => writeVec s' x t v false 0

/-- VST (R136). -/
def vstBody (x : Ctx) (t : Thread) (s : State) : Out :=
  match memAddr s x t with
  | .error w => .wait w
  | .ok (ea, s1, _) =>
    match readVec s1 x t x.c.vd with
    | .error o => o
    | .ok (v, s2) =>
      match windowStore (s2.core x.core) (s2.domEntry x.core t) ea 128 8 v with
      | .error e => x.raise e
      | .ok k => .done (s2.setCore x.core k)

/-- VLDM (R136): short, unless its index came from a queue port (R34). -/
def vldmBody (x : Ctx) (t : Thread) (s : State) : Out :=
  match memAddr s x t with
  | .error w => .wait w
  | .ok (ea, s', p) =>
    match windowLoad (s'.core x.core) (s'.domEntry x.core t) ea 16 8 with
    | .error e => x.raise e
    | .ok v =>
      if p then writeMask s' x v false 0
      else .done (s'.modThread x.core x.slot fun u => u.setMask x.c.d.toNat (BitVec.ofNat 128 v))

/-- VSTM (R136). -/
def vstmBody (x : Ctx) (t : Thread) (s : State) : Out :=
  match memAddr s x t with
  | .error w => .wait w
  | .ok (ea, s1, _) =>
    match windowStore (s1.core x.core) (s1.domEntry x.core t) ea 16 8 (t.mask x.c.d.toNat).toNat with
    | .error e => x.raise e
    | .ok k => .done (s1.setCore x.core k)

/-- The loads of the active elements, in increasing index; the trap of the first that fails (R137). -/
def gatherLanes (k : CoreSt) (e : DomCopy) (n : Nat) : List (Option Word) → Except TrapRec (List (Option Nat))
  | [] => .ok []
  | none :: rest => match gatherLanes k e n rest with
    | .error t => .error t
    | .ok vs => .ok (none :: vs)
  | some ea :: rest => match windowLoad k e ea n n with
    | .error t => .error t
    | .ok v => match gatherLanes k e n rest with
      | .error t => .error t
      | .ok vs => .ok (some v :: vs)

/-- The checks of the active elements of a store (R137). -/
def scatterCheck (k : CoreSt) (e : DomCopy) (n : Nat) : List (Option Word × Nat) → Option TrapRec
  | [] => none
  | (none, _) :: rest => scatterCheck k e n rest
  | (some ea, v) :: rest => match windowStore k e ea n n v with
    | .error t => some t
    | .ok _ => scatterCheck k e n rest

/-- The stores of the active elements in increasing index, once all checks have passed (R137). -/
def scatterLanes (k : CoreSt) (e : DomCopy) (n : Nat) : List (Option Word × Nat) → CoreSt
  | [] => k
  | (none, _) :: rest => scatterLanes k e n rest
  | (some ea, v) :: rest => match windowStore k e ea n n v with
    | .error _ => scatterLanes k e n rest
    | .ok k' => scatterLanes k' e n rest

/-- The addresses of the 16 elements of VLDS and VSTS (R137). -/
def strideAddrs (base stride : Word) : List (Option Word) :=
  (List.range 16).map fun i => some (base + word i * stride)

/-- The addresses of the active elements of VGATH and VSCAT (R137). -/
def indexAddrs (x : Ctx) (t : Thread) (base : Word) (b : Nat) : List (Option Word) :=
  let w := etWidth x.et
  (List.range (1024 / w)).map fun i =>
    if x.active t i then some (base + BitVec.ofInt 64 (intOf x.et (lane w b i) * (w / 8 : Nat))) else none

/-- Load the elements of a list of addresses (R137). -/
def gatherInto (x : Ctx) (t : Thread) (s : State) (n : Nat) (eas : List (Option Word)) : Out :=
  match gatherLanes (s.core x.core) (s.domEntry x.core t) n eas with
  | .error e => x.raise e
  | .ok vs =>
    let w := 8 * n
    let r := lanesOf x t vs.length w (oldVec x t) fun i => (((vs.getD i none).getD 0), 0)
    writeVec s x t r.1 false 0

/-- Store elements at a list of addresses (R137). -/
def scatterFrom (x : Ctx) (t : Thread) (s : State) (n v : Nat) (eas : List (Option Word)) : Out :=
  let w := 8 * n
  let xs := (List.range eas.length).map fun i => (eas.getD i none, lane w v i)
  let k := s.core x.core
  let e := s.domEntry x.core t
  match scatterCheck k e n xs with
  | some tr => x.raise tr
  | none => .done (s.setCore x.core (scatterLanes k e n xs))

/-- VLDS (R137). -/
def vldsBody (x : Ctx) (t : Thread) (s : State) : Out :=
  match readField s x t x.c.b with
  | .error w => .wait w
  | .ok (gb, s', _) => gatherInto x t s' 8 (strideAddrs (t.scalar x.c.a) gb)

/-- VSTS (R137). -/
def vstsBody (x : Ctx) (t : Thread) (s : State) : Out :=
  match readField s x t x.c.b with
  | .error w => .wait w
  | .ok (gb, s1, _) =>
    match readVec s1 x t x.c.vd with
    | .error o => o
    | .ok (v, s2) => scatterFrom x t s2 8 v (strideAddrs (t.scalar x.c.a) gb)

/-- VGATH (R137). -/
def vgathBody (x : Ctx) (t : Thread) (s : State) : Out :=
  match readVec s x t x.c.vb with
  | .error o => o
  | .ok (b, s') => gatherInto x t s' (etBytes x.et) (indexAddrs x t (t.scalar x.c.a) b)

/-- VSCAT (R137). -/
def vscatBody (x : Ctx) (t : Thread) (s : State) : Out :=
  match readVec s x t x.c.vd with
  | .error o => o
  | .ok (v, s1) =>
    match readVec s1 x t x.c.vb with
    | .error o => o
    | .ok (b, s2) => scatterFrom x t s2 (etBytes x.et) v (indexAddrs x t (t.scalar x.c.a) b)

/-- VLEASE: take a vector lease (R122). -/
def execVlease (c : Chain) (s : State) : Host.Outcome State Fault Refusal :=
  issueChain .vlease c (vleaseBody) s

/-- VFREE: give up the lease (R123). -/
def execVfree (c : Chain) (s : State) : Host.Outcome State Fault Refusal :=
  issueChain .vfree c (vfreeBody) s

/-- VLD: load a register (R136). -/
def execVld (c : Chain) (s : State) : Host.Outcome State Fault Refusal :=
  issueChain .vld c (vldBody) s

/-- VST: store a register (R136). -/
def execVst (c : Chain) (s : State) : Host.Outcome State Fault Refusal :=
  issueChain .vst c (vstBody) s

/-- VLDM: load a mask (R136). -/
def execVldm (c : Chain) (s : State) : Host.Outcome State Fault Refusal :=
  issueChain .vldm c (vldmBody) s

/-- VSTM: store a mask (R136). -/
def execVstm (c : Chain) (s : State) : Host.Outcome State Fault Refusal :=
  issueChain .vstm c (vstmBody) s

/-- VLDS: strided load (R137). -/
def execVlds (c : Chain) (s : State) : Host.Outcome State Fault Refusal :=
  issueChain .vlds c (vldsBody) s

/-- VSTS: strided store (R137). -/
def execVsts (c : Chain) (s : State) : Host.Outcome State Fault Refusal :=
  issueChain .vsts c (vstsBody) s

/-- VGATH: gather (R137). -/
def execVgath (c : Chain) (s : State) : Host.Outcome State Fault Refusal :=
  issueChain .vgath c (vgathBody) s

/-- VSCAT: scatter (R137). -/
def execVscat (c : Chain) (s : State) : Host.Outcome State Fault Refusal :=
  issueChain .vscat c (vscatBody) s

end Sys2Proof.Machine
end

