-- ==== Sys2Proof/Machine/EvThread.lean ====
section
/-! DEFINITION. Steps of threads without an encoding (spec/01 R27, R35; spec/05 R122; spec/06 R150, R176, R178; spec/07 R202, R215). -/

namespace Sys2Proof.Machine

/-- The outcome of a step without an encoding: the state after it, or a refusal by name where it cannot take place. -/
def happens (row : String) (r : Option State) : Host.Outcome State Fault Refusal :=
  match r with
  | none => .refused (.notEnabled row)
  | some s => .next s

/-! ### Queue ports (R27, R145, R150, R176) -/

/-- The kind of a matrix command word 0 (R151, R154): 1 COMPUTE, 2 ACCZERO, 3 ACCLOAD, 4 ACCSTORE. -/
def cmdKind (w : Word) : Nat := bits w 63 60

/-- A thread that can issue. -/
def readyThread (s : State) (c slot : Nat) : Option Thread :=
  match s.thread? c slot with
  | none => none
  | some t => if t.isReady then some t else none

/-- The first push of a command (R150): the half-command slot is empty. -/
def pushFirst (s : State) (c slot : Nat) (w : Word) : Option State :=
  match readyThread s c slot with
  | none => none
  | some t => if t.half.isNone then pushPort s c slot 0 w else none

/-- The second push, which enters a command whose first word has a kind (R150, R151, R154). -/
def pushSecond (s : State) (c slot kind : Nat) (w : Word) : Option State :=
  match readyThread s c slot with
  | none => none
  | some t =>
    match t.half with
    | none => none
    | some w0 => if cmdKind w0 == kind then pushPort s c slot 0 w else none

/-- A push to q1 (R176). -/
def pushDescriptor (s : State) (c slot : Nat) (w : Word) : Option State :=
  match readyThread s c slot with
  | none => none
  | some _ => pushPort s c slot 1 w

/-- A pop of a queue port into a register field, or the thread blocks (R27). -/
def popEntry (s : State) (c slot : Nat) (port d : BitVec 4) : Option State :=
  match readyThread s c slot with
  | none => none
  | some t =>
    if port.toNat < 12 then none
    else match popPort s c slot (portOf port) with
      | none =>
        let now := s.cyc c
        some (s.setThread c slot { t with status := .blocked (.pop (portOf port)) now })
      | some (v, s') => some (addPend s' c slot (gRes d) (some [.g d.toNat v]))

/-! ### Blocked threads (R27, R122, R251) -/

/-- A blocked chain can proceed. -/
def canProceed (s : State) (c slot : Nat) (t : Thread) (w : Wait) : Bool :=
  let k := s.core c
  match w with
  | .pop p => (popPort s c slot p).isSome
  | .push 1 => copyRoom k t
  | .push 2 => decide (t.stage.length < 16)
  | .push 3 => decide (t.q3.length < 32)
  | .push _ => matrixRoom k t
  | .ownMessages => !ownPending s c t
  | .lock lo len => (registerLock k ⟨.folio 64 0, false, [⟨0, lo, len⟩], []⟩).isSome
  | .fence scope => fenceClear t scope
  | .lease _ _ | .mailbox _ _ _ _ | .barrierRelease _ | .recv _ _ | .area _ _ => false
  | .stream v =>
    match t.stream? v with
    | none => true
    | some st => if st.pat.sink then sinkRoom k t.uid else !st.strips.isEmpty || decide (st.pat.count ≤ st.used)
  | .slices => !walking s
  | .context load sel => contextReady s c slot load sel

/-- A thread is ready again at its chain, which issues in its turn (R27, R251). -/
def wake (s : State) (c slot : Nat) : State := s.modThread c slot fun t => { t with status := .ready }

/-- What a blocked thread waits for has come: a wait of MWAIT, RECV, BWAIT or BAW completes, another blocked chain can issue (R27,
R251). -/
def releaseBlock (s : State) (c slot : Nat) : Option State :=
  match s.thread? c slot with
  | none => none
  | some t =>
    match t.status with
    | .blocked (.area id r) _ => finishArea s c id r
    | .blocked w _ =>
      if !t.stops.isEmpty then none
      else match finishWait s c slot with
        | some s' => some s'
        | none => if canProceed s c slot t w then some (wake s c slot) else none
    | _ => none

/-- The oldest lease request of a core is granted when enough windows are free, and completes (R122). -/
def grantLease (s : State) (c : Nat) : Option State :=
  let k := s.core c
  match k.leaseq with
  | [] => none
  | slot :: rest =>
    match s.thread? c slot with
    | none => none
    | some t =>
      match t.status with
      | .blocked (.lease n r) _ =>
        if t.stops.isEmpty && leaseRoom k n then
          some (completeChain ((s.setCore c { k with leaseq := rest }).modThread c slot (·.leased n)) c slot r none)
        else none
      | _ => none

/-! ### Results and traps (R35, R107, R215) -/

/-- The oldest known pending result. -/
def knownPend (t : Thread) : Option Pend := t.pend.find? fun p => p.writes.isSome

/-- A long result lands (R35), or a strip of a sink stream is handed over; an exiting thread ends once its results have returned (R107). -/
def returnResult (s : State) (c slot : Nat) : Option State :=
  match s.thread? c slot with
  | none => none
  | some t =>
    match t.status with
    | .exiting => if t.allKnown then some (endThread s c slot) else none
    | _ =>
      match knownPend t with
      | none => passBeat s c slot
      | some p =>
        let t' := { t.writes (p.writes.getD []) with pend := t.pend.filter fun q => q.id != p.id }
        some (settle (s.setThread c slot t') c slot)

/-- A trap that waited for pending results is taken (R215), also while the thread is stopped: its chain has issued. -/
def enterTrap (s : State) (c slot : Nat) : Option State :=
  match s.thread? c slot with
  | none => none
  | some t =>
    match t.status with
    | .trapWait x => if t.allKnown then some (takeTrap s c slot x) else none
    | _ => none

/-! ### Limits (R178, R202) -/

/-- A wait that began in a cycle has exceeded a limit; 0 is no limit. -/
def expired (now since : Nat) (limit : Word) : Bool := limit != 0 && decide (since + limit.toNat < now)

/-- A sleep on a word expires (R202). -/
def expireSleep (s : State) (c slot : Nat) : Option State :=
  let k := s.core c
  match s.thread? c slot with
  | none => none
  | some t =>
    match t.status with
    | .sleeping _ _ since _ _ ea =>
      if expired k.cyc since k.fewlim then
        some (takeTrap ((s.modCore c fun k => leaveFeSlot k slot).modThread c slot fun t => { t with status := .ready })
          c slot { cause := cFETIME, remote := true, xaddr := ea, xpc := t.pc })
      else none
    | _ => none

/-- A queued STFE message that has exceeded the limit. -/
def expiredStfe (k : CoreSt) : Option Nat :=
  (k.feq.flatMap fun e => e.2.stores).findSome? fun x =>
    match x.1 with
    | .storeMsg id => if expired k.cyc x.2 k.fewlim then some id else none
    | _ => none

/-- A queued STFE message expires: it leaves its queue and fails (R202). -/
def expireStfe (s : State) (c : Nat) : Option State :=
  match expiredStfe (s.core c) with
  | none => none
  | some id =>
    match s.packet? id with
    | none => none
    | some p =>
      some (acknowledge ((s.modCore c fun k => leaveFe k (.storeMsg id)).dropPacket id) p
        (some ⟨cFETIME, 1, p.addr⟩))

/-- An MWAIT exceeds its limit (R178). -/
def expireMwait (s : State) (c slot : Nat) : Option State :=
  let k := s.core c
  match s.thread? c slot with
  | none => none
  | some t =>
    match t.status with
    | .blocked (.mailbox g mb e _) since =>
      if expired k.cyc since k.mwlim && !mailReached k g mb e then
        some (takeTrap (s.modThread c slot fun t => { t with status := .ready }) c slot
          { cause := cMWTIME, xaddr := word mb, xpc := t.pc })
      else none
    | _ => none

/-- MATRIX_WORD0_PUSH: the first push of a matrix command (R150). -/
def execMatrixWord0Push (core slot : Nat) (w : Word) (s : State) : Host.Outcome State Fault Refusal :=
  happens "MATRIX_WORD0_PUSH" (pushFirst s core slot w)

/-- COMPUTE: the second push, which enters a COMPUTE command (R151). -/
def execCompute (core slot : Nat) (w : Word) (s : State) : Host.Outcome State Fault Refusal :=
  happens "COMPUTE" (pushSecond s core slot 1 w)

/-- ACCZERO: the second push, which enters an ACCZERO command (R154). -/
def execAcczero (core slot : Nat) (w : Word) (s : State) : Host.Outcome State Fault Refusal :=
  happens "ACCZERO" (pushSecond s core slot 2 w)

/-- ACCLOAD: the second push, which enters an ACCLOAD command (R154). -/
def execAccload (core slot : Nat) (w : Word) (s : State) : Host.Outcome State Fault Refusal :=
  happens "ACCLOAD" (pushSecond s core slot 3 w)

/-- ACCSTORE: the second push, which enters an ACCSTORE command (R154). -/
def execAccstore (core slot : Nat) (w : Word) (s : State) : Host.Outcome State Fault Refusal :=
  happens "ACCSTORE" (pushSecond s core slot 4 w)

/-- COPY_DESCRIPTOR_PUSH: a push to q1 starts a copy (R176). -/
def execCopyDescriptorPush (core slot : Nat) (w : Word) (s : State) : Host.Outcome State Fault Refusal :=
  happens "COPY_DESCRIPTOR_PUSH" (pushDescriptor s core slot w)

/-- QUEUE_PORT_POP: a queue port is popped, or the thread blocks (R27). -/
def execQueuePortPop (core slot : Nat) (port d : BitVec 4) (s : State) : Host.Outcome State Fault Refusal :=
  happens "QUEUE_PORT_POP" (popEntry s core slot port d)

/-- BLOCK_RELEASE: a blocked chain issues when it can proceed (R27). -/
def execBlockRelease (core slot : Nat) (s : State) : Host.Outcome State Fault Refusal :=
  happens "BLOCK_RELEASE" (releaseBlock s core slot)

/-- LEASE_GRANT: the oldest lease request is granted (R122). -/
def execLeaseGrant (core : Nat) (s : State) : Host.Outcome State Fault Refusal :=
  happens "LEASE_GRANT" (grantLease s core)

/-- RESULT_RETURN: a long result lands (R35). -/
def execResultReturn (core slot : Nat) (s : State) : Host.Outcome State Fault Refusal :=
  happens "RESULT_RETURN" (returnResult s core slot)

/-- TRAP_ENTRY: the handler is entered once the results have returned (R215). -/
def execTrapEntry (core slot : Nat) (s : State) : Host.Outcome State Fault Refusal :=
  happens "TRAP_ENTRY" (enterTrap s core slot)

/-- FE_SLEEP_EXPIRE: a sleep on a word expires (R202). -/
def execFeSleepExpire (core slot : Nat) (s : State) : Host.Outcome State Fault Refusal :=
  happens "FE_SLEEP_EXPIRE" (expireSleep s core slot)

/-- STFE_QUEUE_EXPIRE: a queued STFE expires (R202). -/
def execStfeQueueExpire (core : Nat) (s : State) : Host.Outcome State Fault Refusal :=
  happens "STFE_QUEUE_EXPIRE" (expireStfe s core)

/-- MWAIT_TIMEOUT: an MWAIT exceeds its limit (R178). -/
def execMwaitTimeout (core slot : Nat) (s : State) : Host.Outcome State Fault Refusal :=
  happens "MWAIT_TIMEOUT" (expireMwait s core slot)

end Sys2Proof.Machine
end

