-- ==== Sys2Proof/Machine/EvBankDot.lean ====
section
/-! DEFINITION. Bank-dot requests (spec/06 R180, R181). -/

namespace Sys2Proof.Machine

/-! ### The run of a request (R179, R180) -/

def bdStride (cfg : Word) : Nat := bits cfg 52 45
def bdW (cfg : Word) : Fmt := fmtOf (bits cfg 44 42)
def bdV (cfg : Word) : Fmt := fmtOf (bits cfg 41 39)
def bdSoff (cfg : Word) : Nat := bits cfg 38 28

/-- Offset of weight i from the run's first byte. -/
def bdOff (cfg : Word) (i : Nat) : Nat := i * bdStride cfg * ((bdW cfg).width / 8)

/-- The bytes the run occupies. -/
def bdRun (cfg : Word) : Nat := bdOff cfg (bdLen cfg - 1) + (bdW cfg).width / 8

/-- The run crosses its row or is misaligned; so do the scales of a TS8 run beyond the row's end. -/
def bdBad (cfg : Word) (pa : Nat) : Bool :=
  pa % ((bdW cfg).width / 8) != 0 || decide (2048 < pa % 2048 + bdRun cfg) ||
  (bdW cfg == .ts8 && decide (2048 ≤ bdSoff cfg + (bdLen cfg - 1) / 32))

/-- Physical addresses and widths of what the unit reads: the weights, and the scales of TS8 weights. -/
def bdReads (cfg : Word) (pa : Nat) : List (Nat × Nat) :=
  (List.range (bdLen cfg)).map (fun i => (pa + bdOff cfg i, (bdW cfg).width / 8)) ++
  (if bdW cfg == .ts8 then
    (List.range ((bdLen cfg + 31) / 32)).map fun j => (pa / 2048 * 2048 + bdSoff cfg + j, 1) else [])

/-- A value read from the row, or from the pattern of an elided page. -/
def bdRead (s : State) (x : Xl) (a n : Nat) : Nat :=
  match x.elided with
  | some d => ((List.range n).map fun i => d.toNat / 2 ^ (8 * ((a + i) % 8)) % 256 * 256 ^ i).foldl (· + ·) 0
  | none => lineBytes (s.dramLine (a / 32) x.key).1 (a % 32) n

/-- A read meets a poisoned word. -/
def bdPoison (s : State) (x : Xl) (a : Nat) : Bool :=
  x.elided.isNone && bit (s.dramLine (a / 32) x.key).2 (a % 32 / 8)

/-- The product of weight i and vector element i, with its exceptions. -/
def bdProd (s : State) (cfg : Word) (x : Xl) (vec : List Byte) (i : Nat) : FVal × Flags :=
  let code := bdRead s x (x.pa + bdOff cfg i) ((bdW cfg).width / 8)
  let w := if bdW cfg == .ts8 then mxValue .ts8 (bdRead s x (x.pa / 2048 * 2048 + bdSoff cfg + i / 32) 1) code
    else fdecode (bdW cfg) code
  let e := (bdV cfg).width / 8
  fmulX w (fdecode (bdV cfg) (byteListNum ((vec.drop (i * e)).take e)))

/-- The dot product: kblock_sum over runs of 64 in element order, merged in leaf order (R180, R85). -/
def bdDot (s : State) (cfg : Word) (x : Xl) (vec : List Byte) : Nat × Flags :=
  (List.range ((bdLen cfg + 63) / 64)).foldl (fun acc t =>
    let ps := (List.range (min 64 (bdLen cfg - 64 * t))).map fun j => bdProd s cfg x vec (64 * t + j)
    let r := fp32Add acc.1 (kblockSum (ps.map (·.1))).bits
    (r.1, acc.2 ||| kblockFlags ps ||| r.2)) (0, 0)

/-- The result word of a request whose run can be read (R180). -/
def bdResult (s : State) (cfg : Word) (x : Xl) (vec : List Byte) (bad : Bool) : Word :=
  if bad || (bdReads cfg x.pa).any (fun r => bdPoison s x r.1) then bdFailure 1
  else
    let d := bdDot s cfg x vec
    word (d.2.toNat * 2 ^ 59 + d.1)

/-- The unit has streamed: which of its column's grants it had depends on time alone (R182, spec/21 R442, R443), so the
rotating pointer and the count of quarter-rate cycles take free values (log 52). -/
def grantColumn (s : State) (pa : Nat) : State :=
  let l := tgetD s.power (columnOf pa) {}
  let x := Config.freeWord s.freeCtr
  let y := { l with ptr := bits x 3 0, loss := min (2 ^ 32 - 1) (l.loss + bits x 35 4) }
  { s.tick with power := tset s.power (columnOf pa) y }

/-- The result of a request goes back, the lock on its run released (R180). -/
def bdotDone (s : State) (p : Packet) (c ticket : Nat) (v : Word) : State :=
  bdotReply ((s.modCore c fun k => releaseLocks k (.packet p.id) none).dropPacket p.id) p ticket v

/-- A bank-dot request reaches the home of its run (R180): it fails, or takes an elided page's pattern, or the home writes back the
run's dirty lines and registers a read lock on the run; none while the lock has to wait. -/
def bankDotLock (s : State) (id : Nat) : Option State :=
  match arriving s id with
  | none => none
  | some p =>
    match p.body, p.xl with
    | .bdot cfg vec ticket _ bad, some x =>
      let c := epCore p.dst
      if 1028 ≤ c then none
      else
        let s1 := s.countPacket p c
        if bdBad cfg x.pa then some (bdotDone s1 p c ticket (bdFailure 4))
        else if x.elided.isSome then some (bdotDone s1 p c ticket (bdResult s1 cfg x vec (bad || !p.bad.isEmpty)))
        else if !x.pinned then some (bdotDone s1 p c ticket (bdFailure 3))
        else
          let s2 := ((bdReads cfg x.pa).map fun r => r.1 / 32).foldl (fun s l => cleanLine s c l) s1
          match registerLock (s2.core c) ⟨.packet id, false, [⟨2, x.pa, bdRun cfg⟩], []⟩ with
          | none => none
          | some k => some ((s2.setCore c k).modPacket id fun p => { p with stage := .queued })
    | _, _ => none

/-- The bank reads the row and computes (R180). -/
def bankDotRead (s : State) (id : Nat) : Option State :=
  match s.packet? id with
  | none => none
  | some p =>
    match p.stage, p.body, p.xl with
    | .queued, .bdot cfg vec ticket _ bad, some x =>
      some (bdotDone (grantColumn s x.pa) p (epCore p.dst) ticket
        (bdResult s cfg x vec (bad || !p.bad.isEmpty || failedColumn s x.pa)))
    | _, _, _ => none

/-- BANK_DOT_PERFORM: a request takes its lock, or, where it holds it, is computed (R180). -/
def bankDot (s : State) (id : Nat) : Option State :=
  match bankDotRead s id with
  | some s1 => some s1
  | none => bankDotLock s id

/-- The oldest request of a thread's q3 queue that has no result yet. -/
def nextResult (t : Thread) : Option Nat := (t.q3.find? fun e => e.2.isNone).map (·.1)

/-- BDOTQ_RESULT_DELIVER: the result of the oldest outstanding BDOTQ enters q3 (R181). -/
def deliverResult (s : State) (c slot : Nat) : Option State :=
  match s.thread? c slot with
  | none => none
  | some t =>
    match nextResult t with
    | none => none
    | some ticket =>
      let mine (p : Packet) : Bool :=
        p.uid == t.uid && (match p.body with | .reply r _ _ => r == ticket | _ => false)
      match s.net.find? mine with
      | none => none
      | some p =>
        match (arriving s p.id).map Packet.body with
        | some (.reply _ v fail) =>
          let v' := if !p.bad.isEmpty then bdFailure 1 else if fail.isSome then bdFailure 2 else v
          some ((s.dropPacket p.id).setThread c slot
            { t with q3 := t.q3.map fun e => if e.1 == ticket then (e.1, some v') else e })
        | _ => none

/-- BANK_DOT_PERFORM: a bank-dot request is performed at its home (R180). -/
def execBankDotPerform (pkt : Nat) (s : State) : Host.Outcome State Fault Refusal :=
  happens "BANK_DOT_PERFORM" (bankDot s pkt)

/-- BDOTQ_RESULT_DELIVER: a result enters q3 in issue order (R181). -/
def execBdotqResultDeliver (core slot : Nat) (s : State) : Host.Outcome State Fault Refusal :=
  happens "BDOTQ_RESULT_DELIVER" (deliverResult s core slot)

end Sys2Proof.Machine
end

