-- ==== Sys2Proof/Machine/EvBarrier.lean ====
section
/-! DEFINITION. Barrier units (spec/07 R203-R206; spec/08 R253). -/

namespace Sys2Proof.Machine

/-! ### Units (R203, R204, R206, R253) -/

def State.setBar (s : State) (b : BarName) (u : Barrier) : State :=
  { s with bars := s.bars.filter (fun e => e.1 != b) ++ [(b, u)] }

/-- A packet that has come to the barrier units of this cube. -/
def atUnit (s : State) (id : Nat) : Option Packet :=
  match arriving s id with
  | some p => if epCore p.dst == barrierPort then some p else none
  | none => none

/-- A unit answers a packet to its source, in the system class. -/
def unitAnswer (s : State) (p : Packet) (body : Body) : State :=
  s.send (directPacket s (s.ep barrierPort) p.src 2 p.uid p.slot body)

/-- The endpoints of this cube that a release reaches (R204). -/
def scopeCores (s : State) (b : BarName) : List Nat :=
  match b.scope with
  | 0 =>
    let c := b.unit % 32
    (List.range 32).map fun i => s.ep (c / 8 * 256 + c % 8 * 32 + i)
  | _ => (List.range 1028).map fun i => s.ep i

/-- Send a release to the cores of this cube, and for a pod barrier down the tree. -/
def spreadRelease (s : State) (b : BarName) (phase : BitVec 32) (fa : Flags) : State :=
  let one (s : State) (ep : Nat) : State :=
    s.send (directPacket s (s.ep barrierPort) ep 2 0 0 (.barRelease b phase fa))
  let s1 := (scopeCores s b).foldl one s
  if b.scope == 2 then one s1 (treeDown * 2048 + barrierPort) else s1

/-- Release the current phase of a barrier (R204, R253): every core of the scope and the remote waiters. -/
def releasePhase (s : State) (b : BarName) (u : Barrier) : State :=
  let ws := u.waiters.filter fun w => w.2.2 == u.phase
  let u1 : Barrier :=
    { e := u.e - u.d, a := 0, d := 0, phase := u.phase + 1, fa := 0, history := ((u.phase, u.fa) :: u.history).take 16,
      waiters := u.waiters.filter fun w => w.2.2 != u.phase }
  let s1 := spreadRelease (s.setBar b u1) b u.phase u.fa
  ws.foldl (fun s w => s.send (directPacket s (s.ep barrierPort) w.1 2 w.2.1 0 (.barRelease b u.phase u.fa))) s1

/-- BARRIER_UNIT_ARRIVAL: an arrival is refused or counted; the last one releases the phase (R204). -/
def unitArrival (s : State) (id : Nat) : Option State :=
  match atUnit s id with
  | none => none
  | some p =>
    match p.body with
    | .barArrive b fl drop =>
      let u := s.bar b
      let s1 := s.dropPacket id
      if u.e == 0 then some (unitAnswer s1 p (.barAnswer b id none (some 2)))
      else
        let u1 := { u with a := u.a + 1, fa := u.fa ||| fl, d := if drop then u.d + 1 else u.d }
        let s2 := unitAnswer s1 p (.barAnswer b id (some u.phase) none)
        some (if u1.a == u1.e then releasePhase s2 b u1 else s2.setBar b u1)
    | _ => none

/-- BARRIER_UNIT_INIT: BINIT at the unit (R206). -/
def unitInit (s : State) (id : Nat) : Option State :=
  match atUnit s id with
  | none => none
  | some p =>
    match p.body with
    | .barInit b count =>
      let u := s.bar b
      let s1 := s.dropPacket id
      if u.a != 0 || u.d != 0 then some (unitAnswer s1 p (.barAnswer b id none (some 3)))
      else some (unitAnswer (s1.setBar b { e := count }) p (.barAnswer b id none none))
    | _ => none

/-- BARRIER_QUERY: a record is resolved at the unit (R253): its release, a place among the 64 remote waiters, no room, or
a phase that has left the history. -/
def unitQuery (s : State) (id : Nat) : Option State :=
  match atUnit s id with
  | none => none
  | some p =>
    match p.body with
    | .barQuery b low short =>
      let u := s.bar b
      let s1 := s.dropPacket id
      let phase := if short then wholePhase u.phase low else low
      match u.history.find? fun h => h.1 == phase with
      | some h => some (unitAnswer s1 p (.barRelease b phase h.2))
      | none =>
        if decide (0 ≤ (phase - u.phase).toInt) then
          if u.waiters.length < 64 then some (s1.setBar b { u with waiters := u.waiters ++ [(p.src, p.uid, phase)] })
          else some (unitAnswer s1 p (.barReply b low true))
        else some (unitAnswer s1 p (.barReply b low false))
    | _ => none

/-! ### Cores (R204, R205, R251, R253) -/

/-- The answer of a unit reaches the waiting thread: after an acceptance an arrival is recorded and the chain completes, a
BAW goes on as BWAIT; a refusal raises BOVER, or leaves a stopped thread to reissue (spec/16 R351). -/
def answerArrival (s : State) (p : Packet) (b : BarName) (ref : Nat) (phase : Option (BitVec 32))
    (refused : Option Nat) : State :=
  match awaiter s p.uid ref with
  | none => s
  | some (c, slot, t, r) =>
    match refused with
    | some d =>
      if t.stops.isEmpty then
        answerTrap s c slot { t with rs := false } { cause := cBOVER, detail := d, xaddr := barAddr b }
      else s.setThread c slot { t with status := .ready, rs := false }
    | none =>
      match phase with
      | none => completeChain s c slot r none
      | some n =>
        let s1 := s.setThread c slot { t with arrival := some { bar := b, phase := n, released := false, fa := 0 } }
        if !t.rs then completeChain s1 c slot r none
        else if t.stops.isEmpty then
          askUnit (s1.modThread c slot fun t => { t with status := .blocked (.barrierRelease r) (s.cyc c) }) c slot t.uid
            { bar := b, phase := n, released := false, fa := 0 }
        else s1.modThread c slot fun t => { t with status := .ready }

/-- The unit has no room for a query, or the phase has left its history (R253). -/
def answerQuery (s : State) (p : Packet) (b : BarName) (phase : BitVec 32) (full : Bool) : State :=
  match s.where? p.uid with
  | none => s
  | some (c, slot) =>
    let now := s.cyc c
    tryFinish (s.modThread c slot fun t =>
      match t.arrival with
      | none => t
      | some a =>
        if a.bar == b && a.isOf phase && !a.released then
          { t with arrival := some (if full then { a with retry := some now } else { a with lost := true }) }
        else t) c slot

/-- BARRIER_ANSWER: the answer to an arrival, a BINIT or a query (R204, R206, R253). -/
def barrierAnswer (s : State) (id : Nat) : Option State :=
  match arriving s id with
  | none => none
  | some p =>
    match p.body with
    | .barAnswer b ref phase refused => some (answerArrival (s.dropPacket id) p b ref phase refused)
    | .barReply b phase full => some (answerQuery (s.dropPacket id) p b phase full)
    | _ => none

/-- A release marks the record of a thread (R253). -/
def releaseRecord (b : BarName) (phase : BitVec 32) (fa : Flags) (t : Thread) : Thread :=
  match t.arrival with
  | none => t
  | some a =>
    if a.bar == b && a.isOf phase && !a.released then
      { t with arrival := some { a with released := true, fa := fa, phase := phase, short := false, retry := none } }
    else t

/-- BARRIER_RELEASE_DELIVER: a release reaches a core (R253): its table, the records of its threads, and the waits that these end.
The answer to a query, which names the thread, is not for the table. -/
def deliverRelease (s : State) (id : Nat) : Option State :=
  match arriving s id with
  | none => none
  | some p =>
    match p.body with
    | .barRelease b phase fa =>
      let c := epCore p.dst
      if 1028 ≤ c then none
      else
        let s1 := (s.dropPacket id).modCore c fun k =>
          { k with
            threads := k.threads.map fun t => (t.1, releaseRecord b phase fa t.2)
            rel := if inBarScope s c b && p.uid == 0 then k.rel.filter (fun x => x.bar != b) ++ [⟨b, phase, fa⟩] else k.rel }
        some ((s1.core c).threads.foldl (fun s t =>
          match t.2.status with
          | .blocked (.barrierRelease _) _ => tryFinish s c t.1
          | _ => s) s1)
    | _ => none

/-- BARRIER_QUERY_RETRY: a query that found no room is repeated after 1,024 cycles (R253). -/
def retryQuery (s : State) (c slot : Nat) : Option State :=
  match s.thread? c slot with
  | none => none
  | some t =>
    match t.arrival with
    | none => none
    | some a =>
      match a.retry with
      | none => none
      | some n =>
        if a.released || s.cyc c < n + 1024 then none
        else
          let s1 := s.setThread c slot { t with arrival := some { a with retry := none } }
          some (s1.send (toUnit s1 c slot t.uid a.bar (.barQuery a.bar a.phase a.short)))

/-- BARRIER_UNIT_ARRIVAL: an arrival reaches its unit (R204). -/
def execBarrierUnitArrival (pkt : Nat) (s : State) : Host.Outcome State Fault Refusal :=
  happens "BARRIER_UNIT_ARRIVAL" (unitArrival s pkt)

/-- BARRIER_UNIT_INIT: a BINIT reaches its unit (R206). -/
def execBarrierUnitInit (pkt : Nat) (s : State) : Host.Outcome State Fault Refusal :=
  happens "BARRIER_UNIT_INIT" (unitInit s pkt)

/-- BARRIER_ANSWER: a unit's answer reaches the thread (R204). -/
def execBarrierAnswer (pkt : Nat) (s : State) : Host.Outcome State Fault Refusal :=
  happens "BARRIER_ANSWER" (barrierAnswer s pkt)

/-- BARRIER_RELEASE_DELIVER: a release reaches a core (R253). -/
def execBarrierReleaseDeliver (pkt : Nat) (s : State) : Host.Outcome State Fault Refusal :=
  happens "BARRIER_RELEASE_DELIVER" (deliverRelease s pkt)

/-- BARRIER_QUERY: a query reaches its unit (R253). -/
def execBarrierQuery (pkt : Nat) (s : State) : Host.Outcome State Fault Refusal :=
  happens "BARRIER_QUERY" (unitQuery s pkt)

/-- BARRIER_QUERY_RETRY: a query is repeated (R253). -/
def execBarrierQueryRetry (core slot : Nat) (s : State) : Host.Outcome State Fault Refusal :=
  happens "BARRIER_QUERY_RETRY" (retryQuery s core slot)

end Sys2Proof.Machine
end

