-- ==== Sys2Proof/Machine/EvFerry.lean ====
section
/-! DEFINITION. Ferries (spec/08 R238-R245). -/

namespace Sys2Proof.Machine

/-! ### The ferry's image (R240-R242) -/

/-- Header dword 0 (R241). -/
def ferryHdr0 (dst : Nat) (f : Ferry) : Word :=
  word (epCube dst * 2 ^ 50 + epCore dst * 2 ^ 39 + f.pc / 2 * 2 ^ 22 + f.dom * 2 ^ 10 + f.kind * 2 ^ 8 +
    f.bcause * 2 ^ 4 + f.bdetail * 2)

/-- Header dword 1 (R242). -/
def ferryHdr1 (f : Ferry) : Word :=
  let a := match f.arrival with
    | none => 0
    | some a => (a.bar.scope + 1) * 2 ^ 32 + a.bar.n * 2 ^ 24 + a.phase.toNat % 256 * 2 ^ 16 + flagBit a.released 15 +
        a.fa.toNat * 2 ^ 10
  word (f.group.cube * 2 ^ 50 + f.group.die * 2 ^ 48 + f.group.cl * 2 ^ 45 + f.group.slot * 2 ^ 34 + a)

/-- The sixteen dwords of a ferry (R240). -/
def ferryWords (dst : Nat) (f : Ferry) : List Word :=
  [ferryHdr0 dst f, ferryHdr1 f] ++ f.g.toList ++ [f.pw, f.wk, f.addr, 0]

/-- The group identity of hdr1 [63:34] (R242). -/
def groupOfHdr (h : Word) : GroupId := groupOf30 (bits h 63 34)

/-- The arrival record of hdr1 (R242). -/
def arrivalOfHdr (h : Word) : Option Arrival :=
  let g := groupOfHdr h
  let n := bits h 31 24
  let bar : Option BarName := match bits h 33 32 with
    | 0 => none
    | 1 => some ⟨0, g.cube * 32 + g.die * 8 + g.cl, n⟩
    | 2 => some ⟨1, g.cube, n⟩
    | _ => some ⟨2, 0, n⟩
  bar.map fun b => { bar := b, phase := BitVec.ofNat 32 (bits h 23 16), released := bit h 15, fa := BitVec.ofNat 5 (bits h 14 10) }

/-- The task of a group: from the group table of its cube (log 17). -/
def taskOfGroup (s : State) (g : GroupId) : Nat :=
  if g.cube == s.logical then ((tget s.groups (groupKey g)).map (·.task)).getD 0 else Config.foreignLaunch (groupPack g) 5

/-- The ferry of sixteen dwords (R240-R242). What the model carries beside them is free (log 49). -/
def ferryOfWords (s : State) (ws : List Word) : Ferry :=
  let w (i : Nat) : Word := ws.getD i 0
  let g := groupOfHdr (w 1)
  let free := Config.freeWord s.freeCtr
  { pc := 2 * bits (w 0) 38 22, dom := bits (w 0) 21 10, kind := bits (w 0) 9 8, bcause := bits (w 0) 7 4,
    bdetail := bits (w 0) 3 1, g := Vector.ofFn fun i : Fin 10 => w (2 + i.val), pw := w 12, wk := w 13, addr := w 14,
    group := g, arrival := arrivalOfHdr (w 1), uid := s.nextId, task := taskOfGroup s g, frec := 0, fraddr := free,
    aseq := BitVec.ofNat 16 (bits free 15 0), mseq := BitVec.ofNat 16 (bits free 31 16),
    cseq := BitVec.ofNat 16 (bits free 47 32) }

/-- The register that a dword of a ferry carries, which is broken where the dword is (R240, spec/20 R411). -/
def carriedRes (i : Nat) : Option Res :=
  if 2 ≤ i && i < 12 then some (.g (i - 2)) else if i == 12 then some .flags else none

/-- The dword of a ferry that carries a register. -/
def carriedBy (r : Res) : Option Nat :=
  match r with
  | .g n => some (n + 2)
  | .flags => some 12
  | _ => none

/-! ### Departure (R238, R239) -/

/-- The waits of R238 are over. -/
def mayDepart (t : Thread) : Bool :=
  t.stops.isEmpty && t.pend.isEmpty && t.out0 == t.q0.length && t.out1 == t.q1.length &&
  t.q3.all (fun e => e.2.isSome) && t.sends.isEmpty && t.beats.isEmpty

/-- The ferry of a thread. -/
def ferryOf (t : Thread) (kind : Nat) (addr : Word) (write : Bool) : Ferry :=
  { pc := t.pc, dom := t.dom, kind := kind, g := t.g, pw := t.pw, wk := t.wk, addr := addr, group := t.group,
    arrival := t.arrival, uid := t.uid, task := t.task, frec := t.frec, fraddr := t.fraddr, aseq := t.aseq,
    mseq := t.mseq, cseq := t.cseq, write := write }

/-- FERRY_DEPART: the recorded failure is raised, or the ferry is sent and the context freed (R238, R243). -/
def departFerry (s : State) (c slot : Nat) : Option State :=
  match s.thread? c slot with
  | none => none
  | some t =>
    match t.status with
    | .departing kind addr urg write =>
      if !mayDepart t then none
      else if bit t.frec 63 then
        some (takeTrap (s.setThread c slot { t with status := .ready }) c slot (recordTrap t t.pc))
      else
        let priv := (s.domEntry c t).priv
        let p := addressed s c slot t.uid urg true addr t.dom priv (.ferry (ferryOf t kind addr write))
        some ((s.delThread c slot).post { p with bad := t.parity.filterMap carriedBy })
    | _ => none

/-! ### Arrival (R245, spec/16 R364) -/

/-- Write the image of a ferry to a slot of the ring, under key slot 0 and without cache lines (R245). -/
def writeSpill (s : State) (pa : Nat) (ws : List Word) (bad : List Nat) : State :=
  (List.range 4).foldl (fun s i =>
    s.setDramLine (pa / 32 + i) 0 (BitVec.ofNat 256 (wordsNum ((ws.drop (4 * i)).take 4)))
      (BitVec.ofNat 4 (((List.range 4).map fun j => flagBit (bad.contains (4 * i + j)) j).foldl (· + ·) 0))) s

/-- The words of a slot of the ring, and those of them that are poisoned. -/
def readSpill (s : State) (pa : Nat) : List Word × List Nat :=
  let line (i : Nat) := s.dramLine (pa / 32 + i) 0
  ((List.range 16).map fun i => word ((line (i / 4)).1.toNat / 2 ^ (64 * (i % 4))),
   (List.range 16).filter fun i => bit (line (i / 4)).2 (i % 4))

/-- A ferry reaches a core: the inbox, the spill ring, or it stays in the mesh (R245). -/
def arriveFerry (s : State) (id : Nat) : Option State :=
  match arriving s id with
  | none => none
  | some p =>
    match p.body with
    | .ferry f =>
      let c := epCore p.dst
      let k := s.core c
      if 1028 ≤ c || !(k.sealed || (claimedBy s c p).isNone) then none
      else
        let taken := s.modPacket id fun p => { p with stage := .queued }
        if k.inbox.length < 8 && k.spill.isEmpty then
          some (taken.modCore c fun k => { k with inbox := k.inbox ++ [id] })
        else
          let ring := spillRing s c
          if k.spill.length < ring.2 then
            let at' := k.spillAt % ring.2
            some ((writeSpill taken (ring.1 + 128 * at') (ferryWords p.dst f) p.bad).modCore c fun k =>
              { k with spill := k.spill ++ [(id, at')], spillAt := at' + 1 })
          else none
    | _ => none

/-! ### Admission (R242-R245) -/

/-- The phase of a released record that the core's release table does not hold: its bits 31:8 are free (log 83). -/
def freePhase (s : State) (low : BitVec 32) : BitVec 32 := low + BitVec.ofNat 32 (256 * (Config.freeWord s.freeCtr).toNat)

/-- The arrival record of a ferry, whose header holds bits 7:0 of the phase (R242): a released one takes the phase of the core's
release table, an unreleased one the phase that the unit's current one gives, where the unit is in this cube; of another cube's
unit those bits are what the record knows (log 83). -/
def rebuildArrival (s : State) (c : Nat) (a : Arrival) : Arrival :=
  let low := BitVec.ofNat 32 (a.phase.toNat % 256)
  if a.released then
    { a with phase := match (s.core c).rel.find? fun r => r.bar == a.bar with
      | some r => r.phase
      | none => freePhase s low }
  else if barCube s a.bar == s.logical then { a with phase := wholePhase (s.bar a.bar).phase low, short := false }
  else { a with phase := low, short := true }

/-- The access of a ferry is homed at the core that admits it: translated at the slice, or a store whose core a buoy or a
redirect has replaced (R243, spec/16 R365, R366). -/
def homedHere (s : State) (c : Nat) (p : Packet) : Option (Word × Xl) :=
  match p.xl, regionOf (eaOff p.addr) with
  | some x, _ => some (p.addr, x)
  | none, .lstore h _ | none, .bstore h _ =>
    if eaCube p.addr == s.logical && h == c then none else some (p.addr, ⟨0, 0, none, false, true⟩)
  | none, _ => none

/-- The thread of a ferry (R239, R240, R245). -/
def ferryThread (s : State) (c : Nat) (p : Packet) (f : Ferry) : Thread :=
  { uid := f.uid, pc := f.pc, g := f.g, wk := f.wk, pw := f.pw, dom := f.dom, group := f.group, task := f.task,
    arrival := f.arrival.map (rebuildArrival s c), frec := f.frec, fraddr := f.fraddr, aseq := f.aseq, mseq := f.mseq,
    cseq := f.cseq, parity := p.bad.filterMap carriedRes, atHome := if f.kind == 2 then none else homedHere s c p }

/-- A bounced ferry's trap (R243). -/
def bounceTrap (f : Ferry) : TrapRec :=
  { cause := f.bcause, detail := f.bdetail, remote := true, xaddr := f.addr, xpc := f.pc }

/-- The packet that a core admits next: the oldest of its inbox, else of its spill area. -/
def nextFerry (k : CoreSt) : Option Nat :=
  match k.inbox with
  | id :: _ => some id
  | [] => k.spill.head?.map (·.1)

/-- What a core admits of a ferry and the broken words of it: the words of its slot of the ring, where it was spilled, with what the
model carries beside them (log 49). -/
def spilledFerry (s : State) (c : Nat) (p : Packet) (f : Ferry) : Ferry × List Nat :=
  match (s.core c).spill.find? fun e => e.1 == p.id with
  | none => (f, p.bad)
  | some e =>
    let x := readSpill s ((spillRing s c).1 + 128 * e.2)
    ({ ferryOfWords s x.1 with
        uid := f.uid, task := f.task, frec := f.frec, fraddr := f.fraddr, aseq := f.aseq, mseq := f.mseq, cseq := f.cseq,
        write := f.write }, x.2)

/-- A waiting packet leaves its core. -/
def leaveInbox (s : State) (c id : Nat) : State :=
  (s.modCore c fun k =>
    { k with inbox := k.inbox.filter (· != id), spill := k.spill.filter fun e => e.1 != id })

/-- FERRY_ADMIT: the oldest waiting ferry takes the lowest free context (R245). -/
def admitFerry (s : State) (c : Nat) : Option State :=
  let k := s.core c
  match nextFerry k, freeSlot k with
  | some id, some slot =>
    match s.packet? id with
    | none => none
    | some p =>
      match p.body with
      | .ferry f =>
        if k.sealed || (claimedBy s c p).isSome || !mayAdmit s c then none
        else
          let y := spilledFerry s c p f
          let t := ferryThread s c { p with bad := y.2 } y.1
          let s0 := ((leaveInbox s c id).dropPacket id).tick
          let s1 := seat (if f.kind == 2 then s0 else s0.countPacket p c) c slot t
          let runs := (s1.thread? c slot).any fun t => t.status != .stopped
          some (if f.kind == 2 && runs then takeTrap s1 c slot (bounceTrap f) else s1)
      | _ => none
  | _, _ => none

/-- FERRY_DEPART: the waits of R238 end: the ferry is sent, or the recorded failure raised. -/
def execFerryDepart (core slot : Nat) (s : State) : Host.Outcome State Fault Refusal :=
  happens "FERRY_DEPART" (departFerry s core slot)

/-- FERRY_ARRIVE: a ferry reaches a core (R245). -/
def execFerryArrive (pkt : Nat) (s : State) : Host.Outcome State Fault Refusal :=
  happens "FERRY_ARRIVE" (arriveFerry s pkt)

/-- FERRY_ADMIT: a waiting ferry is admitted (R245). -/
def execFerryAdmit (core : Nat) (s : State) : Host.Outcome State Fault Refusal :=
  happens "FERRY_ADMIT" (admitFerry s core)

end Sys2Proof.Machine
end

