-- ==== Sys2Proof/Machine/LinkOps.lean ====
section
/-! DEFINITION. Nerven ports and gateways (spec/19 R379-R403; spec/20 R417-R421): link packets, routes, losses. What the
spec does not lay out of a packet on the wire is a free value (log 39). -/

namespace Sys2Proof.Config

/-- The payload of a packet whose layout the spec does not give (spec/19 R394; log 39). -/
opaque wirePayload : Machine.Packet → List Word

/-- The packet that a header and a payload carry, where the spec does not give the layout (log 39). -/
opaque wirePacket : Word → Word → List Word → Option Machine.Packet

/-- The XTS tweak of a packet identifier and source port (spec/19 R395; log 40). -/
opaque linkTweak : Nat → Nat → Nat

/-- The encryption of a payload of 8 bytes, which is shorter than an XTS data unit may be (log 40). -/
opaque shortCipher : Bool → BitVec 256 → Nat → Word → Word

end Sys2Proof.Config

namespace Sys2Proof.Machine

/-! ### Link packets (R393, R394) -/

/-- The packet type of a body (R394) that does not travel along a tree. -/
def linkType (b : Body) : Nat :=
  match b with
  | .ferry _ => 0
  | .access _ | .request _ => 1
  | .ack _ _ | .reply _ _ _ | .engineAck _ _ _ _ _ | .engineData _ _ _ _ | .delivered _ _ _ => 2
  | .landed _ _ _ _ | .rowCmd _ _ _ _ _ _ => 3
  | .engineRead _ _ => 4
  | .message _ _ _ _ _ | .spawn _ _ _ | .tpost _ _ | .tbind _ _ | .istw _ _ | .start _ => 5
  | .bdot _ _ _ _ _ => 6
  | .tensor _ => 7
  | .barArrive _ _ _ | .barInit _ _ | .barAnswer _ _ _ _ | .barRelease _ _ _ | .barQuery _ _ _ | .barReply _ _ _ |
    .haltReq _ _ => 8
  | .receipt _ _ => 10
  | .abandon _ _ => 11
  | _ => 9

/-- The type of a link packet of an ordering class (R394): a multicast is a tensor packet. -/
def typeOn (b : Body) (ord : Nat) : Nat :=
  match b with
  | .landed _ _ _ _ => if ord == 2 then 7 else 3
  | _ => linkType b

/-- Header dword 0 (R393). -/
def linkHdr0 (dcube dcore scube score ord vc hops typ : Nat) : Word :=
  word (dcube * 2 ^ 50 + dcore * 2 ^ 39 + scube * 2 ^ 25 + score * 2 ^ 14 + ord * 2 ^ 12 + vc * 2 ^ 11 + hops * 2 ^ 6 + typ)

/-- Header dword 1 (R393). -/
def linkHdr1 (pid kslot len tree sport : Nat) : Word :=
  word (pid * 2 ^ 32 + kslot * 2 ^ 25 + len * 2 ^ 16 + tree * 2 ^ 10 + sport * 2 ^ 6)

def LinkPkt.dcube (p : LinkPkt) : Nat := bits p.h0 63 50
def LinkPkt.dcore (p : LinkPkt) : Nat := bits p.h0 49 39
def LinkPkt.scube (p : LinkPkt) : Nat := bits p.h0 38 25
def LinkPkt.score (p : LinkPkt) : Nat := bits p.h0 24 14
def LinkPkt.ord (p : LinkPkt) : Nat := bits p.h0 13 12
def LinkPkt.vc (p : LinkPkt) : Nat := bits p.h0 11 11
def LinkPkt.hops (p : LinkPkt) : Nat := bits p.h0 10 6
def LinkPkt.typ (p : LinkPkt) : Nat := bits p.h0 5 0
def LinkPkt.pid (p : LinkPkt) : Nat := bits p.h1 63 32
def LinkPkt.kslot (p : LinkPkt) : Nat := bits p.h1 31 25
def LinkPkt.len (p : LinkPkt) : Nat := bits p.h1 24 16
def LinkPkt.tree (p : LinkPkt) : Nat := bits p.h1 15 10
def LinkPkt.sport (p : LinkPkt) : Nat := bits p.h1 9 6

/-- The packet on another virtual channel, after some hops. -/
def LinkPkt.moved (p : LinkPkt) (vc hops : Nat) : LinkPkt :=
  { p with h0 := linkHdr0 p.dcube p.dcore p.scube p.score p.ord vc hops p.typ }

/-- A header that the first gateway discards (R394). -/
def LinkPkt.malformed (p : LinkPkt) : Bool :=
  decide (11 < p.typ) || p.ord == 3 || decide (1024 ≤ p.dcube) || bits p.h1 5 0 != 0 || (p.ord != 2 && p.tree != 0)

/-- The queue of a gateway that a packet stands in (R387): urgency class, ordering class, virtual channel. -/
def LinkPkt.queue (p : LinkPkt) : Nat × Nat × Nat := (p.ucls, p.ord, p.vc)

/-! ### Payloads (R344, R395) -/

/-- Pairs of words as blocks of 16 bytes. -/
def wordBlocks : List Word → List Nat
  | a :: b :: rest => (a.toNat + 2 ^ 64 * b.toNat) :: wordBlocks rest
  | _ => []

/-- Blocks as words. -/
def blockWords (bs : List Nat) : List Word := bs.flatMap fun b => [word b, word (b / 2 ^ 64)]

/-- XTS of a payload of whole blocks and half a block, by ciphertext stealing (IEEE 1619): `t` is the tweak of the last
whole block. -/
def xtsSteal (dec : Bool) (k1 t : Nat) (b : Nat) (half : Word) : List Word :=
  let e (t x : Nat) : Nat := t ^^^ (if dec then aesDec k1 (x ^^^ t) else aesEnc k1 (x ^^^ t))
  let t2 := xtsNext t
  let c := e (if dec then t2 else t) b
  let last := e (if dec then t else t2) (half.toNat + c / 2 ^ 64 * 2 ^ 64)
  [word last, word (last / 2 ^ 64), word c]

/-- The tweak after some blocks. -/
def xtsSkip (t : Nat) : Nat → Nat
  | 0 => t
  | n + 1 => xtsNext (xtsSkip t n)

/-- AES-128-XTS of a payload under a key and a tweak (R344, R395). -/
def wireCipher (dec : Bool) (key : BitVec 256) (tweak : Nat) (ws : List Word) : List Word :=
  match ws with
  | [] => []
  | [w] => [Config.shortCipher dec key tweak w]
  | _ =>
    if ws.length % 2 == 0 then blockWords (xts dec key tweak (wordBlocks ws))
    else
      let n := ws.length / 2
      let t0 := aesEnc (key.toNat / 2 ^ 128) tweak
      let whole := wordBlocks (ws.take (2 * n))
      blockWords (xts dec key tweak (whole.take (n - 1))) ++
        xtsSteal dec (key.toNat % 2 ^ 128) (xtsSkip t0 (n - 1)) (whole.getD (n - 1) 0) (ws.getD (2 * n) 0)

/-- Encrypt or decrypt a payload under a key slot; a slot without a key leaves it as it is (log 40). -/
def payloadCipher (s : State) (dec : Bool) (p : LinkPkt) (ws : List Word) : List Word :=
  match s.key? p.kslot with
  | none => ws
  | some k => wireCipher dec k.bits (Config.linkTweak p.pid p.sport) ws

/-! ### Ports -/

def State.setPort (s : State) (p : Nat) (x : Port) : State := { s with ports := tset s.ports p x }

def State.modPort (s : State) (p : Nat) (f : Port → Port) : State := s.setPort p (f (s.port p))

/-- A port changes state; a change to failed, to sealed or back to up is a link event (R381), the first change to up is none. -/
def portTo (s : State) (p st : Nat) : State :=
  let x := s.port p
  let s1 := s.setPort p { x with state := st, wasUp := x.wasUp || st == 3 }
  if st != x.state && (4 ≤ st || (st == 3 && x.wasUp)) then linkEvent s1 1 (word p) (word st) else s1

/-- Training begins (R381). -/
def startTraining (s : State) (p : Nat) : State :=
  s.modPort p fun x => { x with state := 1, tries := 0, began := s.time, bad := 0 }

/-- Eight bytes of a staged key. -/
def keyHalf (k : BitVec 128) (high : Bool) (w : Word) : BitVec 128 :=
  if high then BitVec.ofNat 128 (k.toNat % 2 ^ 64 + 2 ^ 64 * w.toNat) else BitVec.ofNat 128 (k.toNat / 2 ^ 64 * 2 ^ 64 + w.toNat)

/-- A store to a staged transmit key (R380, R391). -/
def stageTx (x : Port) (high : Bool) (w : Word) : Port :=
  { x with txnew := keyHalf x.txnew high w, txst := x.txst || high }

/-- A store to a staged receive key: the port then tells the sending end (R391). -/
def stageRx (x : Port) (high : Bool) (w : Word) : Port :=
  { x with rxnew := keyHalf x.rxnew high w, rxst := x.rxst || high,
           ctl := if high then x.ctl ++ [(word (3 * 2 ^ 56), 0)] else x.ctl }

/-! ### Routes (R387, R397, R398) -/

/-- Where a link packet leaves a cube (R398): by a port on a virtual channel, it has to wait, or it has no route. -/
inductive Leave where
  | by' (port vc : Nat)
  | wait
  | gone
  deriving DecidableEq, Repr

/-- The route entry of a physical cube. -/
def State.route (s : State) (d : Nat) : Word := tgetD s.routes d 0

/-- The ordered route (R398): the entry's port, on vc 1 behind a dateline; while the old route empties, packets wait. -/
def orderedRoute (s : State) (d vc : Nat) (fallback : Bool) : Leave :=
  let w := s.route d
  if !bit w 63 then .gone
  else if s.reroute.any fun r => r.dest == d then .wait
  else .by' (bits w 62 59) (if bit w 58 || fallback then 1 else vc)

/-- Credit of a port for a class. -/
def Port.creditOf (x : Port) (cls : Nat) : Nat := tgetD x.credit cls 0

/-- The retry store of a port can take a packet (R401). -/
def storeRoom (x : Port) : Bool := decide ((x.store.filter fun r => !r.query).length < 2048)

/-- The adaptive route (R398): of the permitted ports that are up, the one with the most credit for the class, the lowest
number on a tie; a packet that is new here needs room in the port's retry store as well (R401). -/
def adaptivePort (s : State) (d ucls : Nat) (new : Bool) : Option Nat :=
  let w := s.route d
  ((List.range 16).filter fun p =>
    bit w (42 + p) && (s.port p).state == 3 && 0 < (s.port p).creditOf ucls && (!new || storeRoom (s.port p))).foldl
    (fun best p => match best with
      | none => some p
      | some b => if (s.port b).creditOf ucls < (s.port p).creditOf ucls then some p else some b) none

/-- Where a packet of an ordering class leaves; `late` says that it has waited 256 cycles for the adaptive route (R398), `new` that
this cube is its source and has not sent it yet. -/
def leaveBy (s : State) (d ord ucls vc : Nat) (late new : Bool) : Leave :=
  if !bit (s.route d) 63 then .gone
  else if ord == 1 then
    match adaptivePort s d ucls new with
    | some p => .by' p vc
    | none => if late then orderedRoute s d vc true else .wait
  else orderedRoute s d vc false

/-- A halt-tree request goes ahead of everything (R410). -/
def LinkPkt.ahead (p : LinkPkt) : Bool := p.typ == 8 && p.ord == 2 && p.tree == 0

/-- A packet joins the queues of a port, halt-tree requests before the others (R385, R410). -/
def enqueue (s : State) (p : Nat) (l : LinkPkt) : State :=
  s.modPort p fun x => { x with
    outq := if l.ahead then x.outq.takeWhile LinkPkt.ahead ++ [l] ++ x.outq.dropWhile LinkPkt.ahead else x.outq ++ [l] }

/-- An ordered packet that is sent again goes ahead of the later ordered packets of this cube for its destination (R402). -/
def enqueueAgain (s : State) (p : Nat) (l : LinkPkt) : State :=
  let before (q : LinkPkt) : Bool :=
    q.ord != 0 || q.dcube != l.dcube || q.scube != l.scube || decide (q.since < l.since) ||
      (q.since == l.since && q.sport == l.sport && decide (q.pid < l.pid))
  s.modPort p fun x => { x with outq := x.outq.takeWhile before ++ [l] ++ x.outq.dropWhile before }

/-- Send a receipt or a notice that has been made out, if its route lets it leave. -/
def noticeOut (s : State) (l : LinkPkt) : Option State :=
  match leaveBy s l.dcube 0 2 0 false false with
  | .by' p vc => if (s.port p).state == 5 then none else some (enqueue s p (l.moved vc 0))
  | _ => none

/-- Send a receipt or a notice for a packet to its source gateway (R401, R402): in the system class, ordered, itself not
retried (log 44). Where it has no route yet it waits for one. -/
def sendNotice (s : State) (typ : Nat) (l : LinkPkt) : State :=
  let n : LinkPkt := ⟨linkHdr0 l.scube 0 s.physical 0 0 0 0 typ, linkHdr1 l.pid 0 0 0 l.sport, [], 2, s.time⟩
  (noticeOut s n).getD { s with notices := s.notices ++ [n] }

/-- The first receipt or notice that now has a route leaves. -/
def noticeRetry (s : State) : Option State :=
  s.notices.findSome? fun n => (noticeOut s n).map fun s1 => { s1 with notices := s1.notices.erase n }

/-- A gateway abandons a packet (R402): its source gateway is told; a receipt or notice is lost, which is a link event. -/
def abandonLink (s : State) (l : LinkPkt) : State :=
  if l.typ == 10 || l.typ == 11 then linkEvent s 3 (word l.pid) (word (l.scube * 2048 + l.score))
  else if l.scube == s.physical then
    s.modPort l.sport fun x => { x with store := x.store.map fun r => if r.pid == l.pid then { r with away := true } else r }
  else sendNotice s 11 l

/-- A port fails (R381, R402): what it queued, and what was not wholly acknowledged, is abandoned; reassembly and
resequencing are discarded. -/
def failPort (s : State) (p : Nat) : State :=
  let x := s.port p
  let s1 := portTo (s.setPort p { x with outq := [], flying := [], reasm := [], held := [], nakAt := none }) p 5
  (x.flying.map (·.1) ++ x.outq).foldl abandonLink s1

/-! ### Losses (R402, spec/20 R420) -/

/-- A packet has been lost, or caught in a lost member (R402, spec/20 R413, R420): what its sender is told. Outcomes: 0
performed, 1 not performed, 2 unknown. -/
def reportLoss (s : State) (p : Packet) (pid outcome : Nat) : State :=
  let c := epCore p.src
  let s1 := if c < 1028 then logError s (dieOf c) 7 true c pid else logError s 0 7 true c pid
  let f : Failure := ⟨cXLATE, 5 + 256 * outcome, p.addr⟩
  match p.body with
  | .message _ ws g urg (some n) => deadLetter s1 (messageOf p ws g urg n) false
  | .access _ | .message _ _ _ _ none | .istw _ _ | .start _ | .tbind _ _ | .slinv _ _ | .spawn _ _ _ | .tpost _ _ =>
    s1.send (directPacket s1 p.dst p.src p.urg p.uid p.slot (.ack p.id (some f)))
  | .request _ =>
    s1.send { directPacket s1 p.dst p.src p.urg p.uid p.slot (.reply p.id 0 (some (cXLATE + 256 * f.detail))) with addr := p.addr }
  | .ack ref _ => s1.send (directPacket s1 p.src p.dst p.urg p.uid p.slot (.ack ref (some f)))
  | .reply ref _ _ =>
    s1.send { directPacket s1 p.src p.dst p.urg p.uid p.slot (.reply ref 0 (some (cXLATE + 256 * f.detail))) with addr := p.addr }
  | .engineAck g q _ _ _ | .engineData g q _ _ =>
    s1.send (directPacket s1 p.src g.core p.urg p.uid p.slot (.engineAck g q 0 1 (some f)))
  | .bdot _ _ ticket _ _ => bdotReply s1 p ticket (word (2 * 2 ^ 56))
  | .ferry g =>
    let e := domOf (s1.core c) g.dom
    s1.faultMessage e p.src 8 f.cause f.detail g.dom 0 g.addr (ferryHdr0 p.dst g)
  | .rowCmd g _ src dst _ _ =>
    s1.send (directPacket s1 p.dst g.core p.urg p.uid p.slot (.engineAck g ⟨src, dst, 32, 0⟩ 0 1 (some f)))
  | .landed g q _ _ | .engineRead g q =>
    if treeUp ≤ epCube p.dst then linkEvent s1 3 (word pid) (word p.src)
    else s1.send (directPacket s1 p.dst g.core p.urg p.uid p.slot (.engineAck g q 0 1 (some f)))
  | .delivered _ _ _ => s1
  | _ => linkEvent s1 3 (word pid) (word p.src)

/-- A packet fails at a gateway before it is sent (spec/15 R340). -/
def failAtGateway (s : State) (p : Packet) (t : TrapRec) : State :=
  match p.body with
  | .ferry f =>
    { s with net := (s.dropPacket p.id).net ++ [{ p with
        stage := .home, dst := p.src, src := p.dst,
        body := .ferry { f with kind := 2, bcause := t.cause, bdetail := t.detail } }] }
  | .message _ ws g urg (some n) => deadLetter (s.dropPacket p.id) (messageOf p ws g urg n) false
  | .message _ _ _ _ none | .istw _ _ | .start _ | .slinv _ _ =>
    acknowledge (s.dropPacket p.id) p (some (failureOf { t with xaddr := p.addr }))
  | _ => failAtSlice s p t

/-- A packet for a lost member that was never sent (spec/20 R420). -/
def lostAtGateway (s : State) (p : Packet) : State := reportLoss (s.dropPacket p.id) p 0 1

/-- What a store entry for a lost member comes to (spec/20 R420). -/
def lostOutcome (r : Retry) : Nat := if r.query || !r.away then 2 else 1

/-- A logical cube is marked lost (spec/20 R420): every packet for it in the retry stores is resolved. -/
def resolveLost (s : State) (k : Nat) : State :=
  let one (s : State) (p : Nat) : State :=
    let x := s.port p
    let caught := x.store.filter fun r => epCube r.pkt.dst == k
    let s1 := s.setPort p { x with store := x.store.filter fun r => epCube r.pkt.dst != k }
    caught.foldl (fun s r => reportLoss s r.pkt r.pid (lostOutcome r)) s1
  (s.ports.map (·.1)).foldl one s

/-- Nothing for a logical cube is unreceipted at a gateway (spec/20 R417). -/
def drained (s : State) (k : Nat) : Bool :=
  s.ports.all fun p => p.2.store.all fun r => r.query || epCube r.pkt.dst != k

/-! ### Alias and route tables (spec/15 R340; R397, R399) -/

/-- The alias entry of a logical cube (spec/15 R340): V, state, physical cube. -/
def State.alias? (s : State) (k : Nat) : Bool × Nat × Nat :=
  let w := tgetD s.aliases k 0
  (bit w 63, bits w 62 61, bits w 13 0)

/-- Removing the staging entry of a cube that holds no thread any more opens the forwarding window of its replacement
(spec/20 R418, R419; log 47). -/
def openWindow (s : State) (old new : Word) : State :=
  if bit old 63 && !bit new 63 && bits old 13 0 != s.physical && s.cores.all (fun c => c.2.threads.isEmpty) then
    { s with forward := some (bits old 13 0, s.time) }
  else s

/-- A store to an alias entry (spec/15 R340, spec/20 R417-R420). -/
def writeAlias (s : State) (k : Nat) (w : Word) : State :=
  let s0 := openWindow s (tgetD s.aliases k 0) w
  let s1 := { s0 with aliases := tset s.aliases k (w &&& 0xE000000000003FFF) }
  if bits w 62 61 == 2 then resolveLost s1 k else s1

/-- A packet for a destination on its old ordered route is neither receipted nor abandoned (R399), or passes through. -/
def oldRouteBusy (s : State) (d oport : Nat) : Bool :=
  (s.port oport).store.any (fun r => !r.query && !r.away && r.link.dcube == d && r.link.ord == 0) ||
  (s.port oport).outq.any (fun l => l.dcube == d && l.ord == 0) ||
  (s.port oport).flying.any fun l => l.1.scube != s.physical && l.1.dcube == d && l.1.ord == 0

/-- A store to a route entry: a change of the ordered route waits for the old one to empty (R397, R399). -/
def writeRoute (s : State) (d : Nat) (w : Word) : State :=
  let w' := w &&& 0xFFFFFC0000000000
  let old := s.route d
  let s1 := { s with routes := tset s.routes d w' }
  if bit old 63 && bits old 62 59 != bits w' 62 59 && oldRouteBusy s d (bits old 62 59) then
    { s1 with reroute := s1.reroute.filter (fun r => r.dest != d) ++ [⟨d, old⟩] }
  else s1

/-- A store of eight path class entries (R403). -/
def writePaths (s : State) (i : Nat) (w : Word) : State :=
  { s with paths := (List.range 8).foldl (fun t j => tset t (8 * i + j) (BitVec.ofNat 3 (bits w (8 * j + 2) (8 * j)))) s.paths }

end Sys2Proof.Machine
end

