-- ==== Sys2Proof/Machine/ConfigStore.lean ====
section
/-! DEFINITION. Stores to the configuration region (spec/09 R258, spec/21 R429-R442): front-end blocks, pre-emption
blocks, link blocks, tables. -/

namespace Sys2Proof.Machine

/-- What becomes of a store to a configuration word: performed, failed with PERM detail 1, performed but not yet
acknowledged, or not yet accepted. -/
inductive StoreOut where
  | ok (s : State)
  | fail
  | later (s : State)
  | full
  deriving DecidableEq, Repr

/-- Who stores: its endpoint, and whether it is of a system domain. -/
structure Writer where
  ep  : Nat
  sys : Bool
  deriving DecidableEq, Repr

/-- The endpoint number that stands for the commander die (spec/21 R439). -/
def commanderEp : Nat := 2 ^ 32

/-- The commander: a thread of a system domain, not a steward (spec/21 R439). -/
def commander : Writer := ⟨commanderEp, true⟩

/-- The writer of a packet. -/
def writerOf (s : State) (p : Packet) : Writer :=
  let e := if epCube p.src == s.logical && epIsCore p.src then domOf (s.core (epCore p.src)) p.dom else feDom s p.dom
  ⟨p.src, e.system⟩

/-- A steward core stores. -/
def Writer.steward (w : Writer) : Bool := 1024 ≤ epCore w.ep && epCore w.ep < 1028 && w.ep < 2 ^ 25

/-! ### Front-end blocks (spec/14 R302, R303, R315) -/

/-- The eight dwords of a staging packet; those not written are zero (R303). -/
def stagedWords (t : Tab Word) : List Word := (List.range 8).map fun i => tgetD t i 0

/-- A store to a stream port (R303): the dword is staged; the one at offset 0x38 completes the packet, which enters the
queue, or is held while the queue is full. Stores of a writer whose packet is held wait behind it. -/
def portStore (s : State) (f writer off : Nat) (w : Word) : StoreOut :=
  let x := s.fe f
  if 56 ≤ f then .fail
  else if x.held.any fun h => h.1 == writer then .full
  else
    let staged := tset (tgetD x.staging writer []) (off / 8) w
    if off / 8 != 7 then .ok (s.setFe f { x with staging := tset x.staging writer staged })
    else
      let p : FePacket := { words := stagedWords staged }
      let x1 := { x with staging := tdel x.staging writer }
      if x.queue.length < 32 && x.held.isEmpty then .ok (s.setFe f { x1 with queue := x.queue ++ [p] })
      else .later (s.setFe f { x1 with held := x.held ++ [(writer, p)] })

/-- A held packet enters the stream queue (R303). -/
def enterHeld (s : State) (f : Nat) : Option State :=
  let x := s.fe f
  match x.held with
  | [] => none
  | h :: rest =>
    if x.queue.length < 32 then some (s.setFe f { x with queue := x.queue ++ [h.2], held := rest }) else none

/-- A stopped front end goes on (R302, R304). -/
def leaveStop (s : State) (f : Nat) : State :=
  let x := s.fe f
  if x.state == 3 then s.setFe f { x with state := 0 } else s

/-- A store to a task record's first dword (R315, R319): only a change between running and swapped out has an effect. -/
def recordStore (s : State) (f slot : Nat) (w : Word) : State :=
  match tget (s.fe f).records slot with
  | none => s
  | some r =>
    if bits w 31 0 != r.id then s
    else if r.state == 2 && bits w 63 62 == 3 then
      (s.cores.map (·.1)).foldl (fun s c =>
        match tget (s.core c).recvq r.id with
        | none => s
        | some _ => spillQueue s c r.id) (s.setTaskRec { r with state := 3 })
    else if r.state == 3 && bits w 63 62 == 2 then startReplay s r.id
    else s

/-- A store to a front-end block (R302). -/
def frontStore (s : State) (by' : Writer) (f q : Nat) (w : Word) : StoreOut :=
  if q < 0x40 then portStore s f by'.ep q w
  else if q == 0x40 then .fail
  else if q == 0x48 then
    let s1 := if by'.sys then s.modFe f fun x => { x with domain := bits w 11 0 } else s
    .ok (if bit w 63 then leaveStop s1 f else s1)
  else if 0x1000 ≤ q && q % 16 == 0 then .ok (recordStore s f ((q - 0x1000) / 16) w)
  else .ok s

/-! ### Pre-emption blocks (spec/16 R349, R350) -/

/-- The commander and the stewards release a halt stop of a core with its core stop. DEDUCED (log 109): R353 says that they can
release a halted partition, through the pre-emption blocks, and R350 names no other operation for it. -/
def releaseHalt (s : State) (by' : Writer) (c op : Nat) : State :=
  if op == 7 && (by'.ep == commanderEp || by'.steward) then releaseCore 4 s c else s

/-- A store to a pre-emption block. -/
def preemptStore (s : State) (by' : Writer) (c q : Nat) (w : Word) : StoreOut :=
  let steward := 1024 ≤ c
  if q == 0x00 then
    let g := groupOf30 (bits w 60 31)
    if steward then .fail
    else match stopOp s c (bits w 63 61) (bits w 5 0) g with
      | none => .fail
      | some s0 =>
        let s1 := releaseHalt s0 by' c (bits w 63 61)
        if stopDone s1 c (bits w 63 61) (bits w 5 0) g then .ok s1 else .later s1
  else if q == 0x38 then .ok (if steward then s else s.modCore c fun k => { k with part := bits w 15 0 })
  else .fail

/-! ### Link blocks (spec/19 R380, R397, R403, R404) -/

/-- A store to the control word of a port (spec/19 R380, R381). -/
def portControl (s : State) (p : Nat) (w : Word) : State :=
  let s1 := s.modPort p fun x => { x with four := bit w 2, en := bit w 0 }
  if bit w 1 || (bit w 0 && (s1.port p).state == 0) then startTraining s1 p else s1

/-- A store to a port block. -/
def portBlockStore (s : State) (p q : Nat) (w : Word) : StoreOut :=
  match q with
  | 0x00 | 0x08 | 0x10 | 0x18 => .fail
  | 0x20 => .ok (portControl s p w)
  | 0x28 => .ok (s.modPort p fun x => stageTx x false w)
  | 0x30 => .ok (s.modPort p fun x => stageTx x true w)
  | 0x38 => .ok (s.modPort p fun x => stageRx x false w)
  | 0x40 => .ok (s.modPort p fun x => stageRx x true w)
  | _ => .ok s

/-- The bits of a tree entry's dwords that hold a field (spec/19 R404). -/
def treeMask (i : Nat) : Word :=
  match i with
  | 0 => 0xFFFFFF0000000000
  | 1 => 0xFC0000000000FFFF
  | 2 => 0x00000000FFFFFFFF
  | 3 => 0x00000FFFFFFFFFFF
  | 4 => 0xFFFF07FF000007FF
  | 5 => 0x1F
  | 6 => 0xFFFFFFFE00000000
  | _ => 0

/-- A store to a tree entry's dword (spec/19 R404): zeros written to the flags clear them. -/
def treeStore (s : State) (i : Nat) (w : Word) : State :=
  let old := tgetD s.tree i 0
  { s with tree := tset s.tree i (if i % 8 == 5 then old &&& w else w &&& treeMask (i % 8)) }

/-- A store to the link block. -/
def linkStore (s : State) (q : Nat) (w : Word) : StoreOut :=
  if q < 0x1000 then portBlockStore s (q / 0x100) (q % 0x100) w
  else if q < 0x2000 then .ok (treeStore s ((q - 0x1000) / 8) w)
  else if 0x4000 ≤ q && q < 0x6000 then .ok (writeRoute s ((q - 0x4000) / 8) w)
  else if 0x8000 ≤ q && q < 0xBC00 then .ok (writePaths s ((q - 0x8000) / 8) w)
  else .ok s

/-! ### Tables of the cube -/

/-- The bits of a space entry's dwords that hold a field (spec/15 R333). -/
def spaceMask (i : Nat) : Word :=
  match i with
  | 0 => 0x80000000007FFFFF
  | 3 => 0
  | _ => 0xFFFFFFFFFFFFFFFF

/-- A store to an alias entry (spec/15 R340): draining is acknowledged once nothing is unreceipted (spec/20 R417). -/
def aliasStore (s : State) (k : Nat) (w : Word) : StoreOut :=
  let s1 := writeAlias s k w
  if bits w 62 61 == 1 && !drained s1 k then .later s1 else .ok s1

/-- Clear the overflow flag of a trigger entry (spec/14 R321). -/
def clearOvf (s : State) (e : Nat) : State :=
  { s with trig := tset s.trig e { tgetD s.trig e {} with ovf := false } }

/-- Write back and drop lines of a core's home cache (spec/20 R422). -/
def dropLines (s : State) (c : Nat) (p : CacheLine → Bool) : State :=
  let s1 := ((s.core c).cache.filter p).foldl (fun s l => writeBack s l) s
  s1.modCore c fun k => { k with cache := k.cache.filter fun l => !p l }

/-- The bits of a physical address below a frame of a size (spec/20 R422). -/
def frameBits (size : Nat) : Nat := match size with | 0 => 16 | 1 => 21 | _ => 30

/-- A store to a home-cache control word (spec/20 R422). -/
def cacheControl (s : State) (c : Nat) (w : Word) : StoreOut :=
  let size := bits w 61 60
  let frame := bits w 22 0 * 2 ^ 16
  if size == 3 || bits w 59 23 != 0 || frame % 2 ^ frameBits size != 0 then .fail
  else match bits w 63 62 with
    | 1 => .ok (dropLines s c fun l => 32 * l.line / 2 ^ frameBits size == frame / 2 ^ frameBits size)
    | 2 => .ok (dropLines s c fun _ => true)
    | _ => .ok s

/-- The bits of a subset entry's dwords that hold a field (spec/20 R423). -/
def subsetMask (i : Nat) : Word := if i == 0 then 0x7FF else if i ≤ 256 then 0x07FF07FF07FF07FF else 0

/-- A store to the subset table: stewards only (spec/20 R423). -/
def subsetStore (s : State) (by' : Writer) (q : Nat) (w : Word) : StoreOut :=
  if by'.steward then .ok { s with subsets := tset s.subsets (q / 8) (w &&& subsetMask (q / 8 % 512)) } else .fail

/-- A store to a column limiter word (spec/21 R442): stewards set a cap of 1 to 4. -/
def limiterStore (s : State) (by' : Writer) (i : Nat) (w : Word) : State :=
  let cap := bits w 2 0
  if by'.steward && 1 ≤ cap && cap ≤ 4 then { s with power := tset s.power i { tgetD s.power i {} with cap := cap } } else s

/-- An attestation is asked for (spec/21 R437). -/
def askAttest (s : State) : State :=
  if s.firm.busy then { s with firm := { s.firm with status := 2 } } else { s with firm := { s.firm with busy := true } }

/-- A store to the firmware block (spec/21 R437). -/
def firmStore (s : State) (q : Nat) (w : Word) : StoreOut :=
  if q == 0 then .ok (if w == 1 then askAttest s else s)
  else if 0x100 ≤ q && q < 0x130 then .ok { s with firm := { s.firm with nonce := tset s.firm.nonce ((q - 0x100) / 8) w } }
  else if q == 0x008 || q == 0x010 || (0x200 ≤ q && q < 0x340) then .fail
  else .ok s

/-- A store to the capability list: only a steward, only the logical number (spec/21 R431). -/
def capStore (s : State) (by' : Writer) (o : Nat) (w : Word) : StoreOut :=
  if o == 16 && by'.steward then .ok { s with logical := bits w 13 0 } else .fail

/-- A store of a dword at an offset of the configuration region by a writer. -/
def configStore (s : State) (by' : Writer) (o : Nat) (w : Word) : StoreOut :=
  let q := o % 0x100000
  match o / 0x100000 with
  | 0 => capStore s by' o w
  | 1 => if q < 0x80000 then frontStore s by' (q / 0x2000) (q % 0x2000) w else .ok s
  | 2 => if q < 1028 * 64 then preemptStore s by' (q / 64) (q % 64) w else .ok s
  | 3 => linkStore s q w
  | 4 => .ok (if q < 0x20000 then { s with space := tset s.space (q / 8) (w &&& spaceMask (q / 8 % 4)) } else s)
  | 5 => if q < 15360 * 8 then aliasStore s (q / 8) w else .ok s
  | 6 => .ok (if q < 2048 && bit w 61 then clearOvf s (q / 8) else s)
  | 7 => if q < 0x10000 then .fail else .ok s
  | 8 => if q < 1024 then .fail else .ok s
  | 9 => if q < 1028 * 8 then cacheControl s (q / 8) w else .ok s
  | 10 => if q < 0x10000 then subsetStore s by' q w else .ok s
  | 11 => .ok (if q < 1028 * 256 then writeResume s (q / 256) (q % 256 / 8) w else s)
  | 12 => .ok (if q < 1024 then limiterStore s by' (q / 8) w else s)
  | 13 => firmStore s q w
  | 14 => .ok (if q < 1028 * 8 then { s with spillDesc := tset s.spillDesc (q / 8) (w &&& 0xFF00000007FFFFFF) } else s)
  | _ => .ok s

/-- A store that was performed and not yet acknowledged can be acknowledged now. -/
def storeSettled (s : State) (by' : Writer) (o : Nat) (w : Word) : Bool :=
  let q := o % 0x100000
  match o / 0x100000 with
  | 1 => !(s.fe (q / 0x2000)).held.any fun h => h.1 == by'.ep
  | 2 => stopDone s (q / 64) (bits w 63 61) (bits w 5 0) (groupOf30 (bits w 60 31))
  | 5 => drained s (q / 8)
  | _ => true

end Sys2Proof.Machine
end

