-- ==== Sys2Proof/Machine/Sign.lean ====
section
/-! DEFINITION. SHA-384 (FIPS 180-4) and ECDSA over P-384 (FIPS 186-5), which firmware images and attestation reports use
(spec/21 R435-R437). -/

namespace Sys2Proof.Machine

/-! ### SHA-384 -/

/-- The greatest r below 2^b + r0 whose k-th power is at most n, found from its highest bit down. -/
def rootBits (k n : Nat) : Nat → Nat → Nat
  | 0, r => r
  | b + 1, r => rootBits k n b (if (r + 2 ^ b) ^ k ≤ n then r + 2 ^ b else r)

/-- The first n primes, of those below 512. -/
def firstPrimes (n : Nat) : List Nat :=
  (((List.range 512).drop 2).filter fun p => ((List.range p).drop 2).all fun d => p % d != 0).take n

/-- The first 64 fraction bits of the k-th root of p. -/
def rootFraction (k p : Nat) : Word := word (rootBits k (p * 2 ^ (64 * k)) 68 0)

/-- The round constants: cube roots of the first 80 primes. -/
def shaK : List Word := (firstPrimes 80).map (rootFraction 3)

/-- The initial hash: square roots of the ninth to sixteenth primes. -/
def shaInit : List Word := ((firstPrimes 16).drop 8).map (rootFraction 2)

def ror (x : Word) (n : Nat) : Word := x.rotateRight n

/-- The next word of the message schedule from the last sixteen, oldest first. -/
def shaNext (w : List Word) : Word :=
  let g (i : Nat) : Word := w.getD i 0
  let s0 := ror (g 1) 1 ^^^ ror (g 1) 8 ^^^ (g 1 >>> 7)
  let s1 := ror (g 14) 19 ^^^ ror (g 14) 61 ^^^ (g 14 >>> 6)
  s1 + g 9 + s0 + g 0

/-- One round on the working variables a to h. -/
def shaRound (v : List Word) (k w : Word) : List Word :=
  let g (i : Nat) : Word := v.getD i 0
  let s1 := ror (g 4) 14 ^^^ ror (g 4) 18 ^^^ ror (g 4) 41
  let ch := (g 4 &&& g 5) ^^^ (~~~(g 4) &&& g 6)
  let t1 := g 7 + s1 + ch + k + w
  let s0 := ror (g 0) 28 ^^^ ror (g 0) 34 ^^^ ror (g 0) 39
  let maj := (g 0 &&& g 1) ^^^ (g 0 &&& g 2) ^^^ (g 1 &&& g 2)
  [t1 + (s0 + maj), g 0, g 1, g 2, g 3 + t1, g 4, g 5, g 6]

/-- The rounds, each with its constant and the schedule word at the head of the window. -/
def shaRounds : List Word → List Word → List Word → List Word
  | [], _, v => v
  | k :: ks, w, v => shaRounds ks (w.drop 1 ++ [shaNext w]) (shaRound v k (w.getD 0 0))

/-- Bytes as big-endian words. -/
def beWords (bs : List Byte) : Nat → List Word
  | 0 => []
  | n + 1 => word ((bs.take 8).foldl (fun a b => a * 256 + b.toNat) 0) :: beWords (bs.drop 8) n

/-- The hash after some blocks of 128 bytes. -/
def shaBlocks : Nat → List Byte → List Word → List Word
  | 0, _, h => h
  | n + 1, bs, h =>
    shaBlocks n (bs.drop 128) (List.zipWith (· + ·) h (shaRounds shaK (beWords (bs.take 128) 16) h))

/-- A number as big-endian bytes. -/
def beBytes (n x : Nat) : List Byte := (List.range n).reverse.map fun i => BitVec.ofNat 8 (x / 256 ^ i)

/-- The message with its padding. -/
def shaPad (bs : List Byte) : List Byte :=
  bs ++ [0x80] ++ List.replicate ((111 + 128 - bs.length % 128) % 128) 0 ++ beBytes 16 (8 * bs.length)

/-- SHA-384 of bytes: 48 bytes. -/
def sha384 (bs : List Byte) : List Byte :=
  let m := shaPad bs
  ((shaBlocks (m.length / 128) m shaInit).take 6).flatMap fun w => beBytes 8 w.toNat

/-! ### P-384 -/

def ecP : Nat := 2 ^ 384 - 2 ^ 128 - 2 ^ 96 + 2 ^ 32 - 1
def ecN : Nat :=
  0xFFFFFFFFFFFFFFFFFFFFFFFFFFFFFFFFFFFFFFFFFFFFFFFFC7634D81F4372DDF581A0DB248B0A77AECEC196ACCC52973
def ecB : Nat :=
  0xB3312FA7E23EE7E4988E056BE3F82D19181D9C6EFE8141120314088F5013875AC656398D8A2ED19D2A85C8EDD3EC2AEF
/-- The base point. -/
def ecG : Nat × Nat :=
  (0xAA87CA22BE8B05378EB1C71EF320AD746E1D3B628BA79B9859F741E082542A385502F25DBF55296C3A545E3872760AB7,
   0x3617DE4A96262C6F5D9E98BF9292DC29F8F41DBD289A147CE9DA3113B5F0B8C00A60B1CE1D7E819D7A431D7C90EA0E5F)

/-- Powers modulo m, from the lowest bit of the exponent up. -/
def powMod (m : Nat) : Nat → Nat → Nat → Nat
  | 0, _, _ => 1
  | k + 1, b, e => (if e % 2 == 1 then b else 1) * powMod m k (b * b % m) (e / 2) % m

/-- The inverse modulo a prime of 384 bits. -/
def invMod (m x : Nat) : Nat := powMod m 384 (x % m) (m - 2)

/-- The third point of the line of a slope through a point, mirrored. -/
def ecThird (l x1 y1 x2 : Nat) : Option (Nat × Nat) :=
  let x := (l * l + 2 * ecP - x1 - x2) % ecP
  some (x, (l * (x1 + ecP - x) + ecP - y1) % ecP)

/-- Sum of points; none is the point at infinity. -/
def ecAdd : Option (Nat × Nat) → Option (Nat × Nat) → Option (Nat × Nat)
  | none, q => q
  | p, none => p
  | some (x1, y1), some (x2, y2) =>
    if x1 == x2 then
      if (y1 + y2) % ecP == 0 then none
      else ecThird ((3 * x1 * x1 + ecP - 3) * invMod ecP (2 * y1) % ecP) x1 y1 x2
    else ecThird ((y2 + ecP - y1) * invMod ecP (x2 + ecP - x1) % ecP) x1 y1 x2

/-- Multiple of a point, over the bits of k from the lowest up. -/
def ecMul : Nat → Nat → Option (Nat × Nat) → Option (Nat × Nat)
  | 0, _, _ => none
  | b + 1, k, p => ecAdd (if k % 2 == 1 then p else none) (ecMul b (k / 2) (ecAdd p p))

/-- A point of the curve. -/
def ecOn (p : Nat × Nat) : Bool :=
  decide (p.1 < ecP) && decide (p.2 < ecP) &&
  (p.2 * p.2) % ecP == (p.1 * p.1 * p.1 + ecP * ecP - 3 * p.1 + ecB) % ecP

/-- A hash as a number. -/
def hashNum (h : List Byte) : Nat := h.foldl (fun a b => a * 256 + b.toNat) 0

/-- The signature (r, s) of a hash verifies under a public key. -/
def ecVerify (pub : Nat × Nat) (h : List Byte) (r s : Nat) : Bool :=
  let w := invMod ecN s
  let u1 := hashNum h * w % ecN
  let u2 := r * w % ecN
  0 < r && decide (r < ecN) && 0 < s && decide (s < ecN) && ecOn pub &&
    (match ecAdd (ecMul 384 u1 (some ecG)) (ecMul 384 u2 (some pub)) with
      | none => false
      | some p => p.1 % ecN == r)

/-- The signature of a hash under a private key and a number used once. -/
def ecSign (d k : Nat) (h : List Byte) : Nat × Nat :=
  let r := ((ecMul 384 k (some ecG)).map (·.1)).getD 0 % ecN
  (r, invMod ecN k * (hashNum h + r * d) % ecN)

end Sys2Proof.Machine
end

