-- ==== Sys2Proof/Machine/EvBoot.lean ====
section
/-! DEFINITION. Boot, attestation, the UCIe port (spec/21 R434-R440). -/

namespace Sys2Proof.Machine

/-! ### Firmware images (R435, R436) -/

/-- Bytes of the configuration flash. -/
def flashBytes (o n : Nat) : List Byte := (List.range n).map fun i => Config.flash (o + i)

/-- A little-endian number of the flash (R435). -/
def flashNum (o n : Nat) : Nat := (flashBytes o n).foldr (fun b a => a * 256 + b.toNat) 0

def imageVer (slot : Nat) : Nat := flashNum (slot + 8) 4
def imageLen (slot : Nat) : Nat := flashNum (slot + 12) 4

/-- The checks of the ROM on a slot (R436): magic, fused key hash, signature, digest, version. -/
def imageOk (slot : Nat) : Bool :=
  flashNum slot 8 == 0x58455954484C5346 &&
  sha384 (flashBytes (slot + 0xA0) 96) == Config.keyHash &&
  ecVerify (flashNum (slot + 0xA0) 48, flashNum (slot + 0xD0) 48) (sha384 (flashBytes slot 64))
    (flashNum (slot + 0x40) 48) (flashNum (slot + 0x70) 48) &&
  decide (1 ≤ imageLen slot) && decide (imageLen slot ≤ 0x7FFF00) &&
  flashBytes (slot + 0x10) 48 == sha384 (flashBytes (slot + 0x100) (imageLen slot)) &&
  decide (Config.fusedMin ≤ imageVer slot)

/-- The slot that boot runs: A, else B (R436). -/
def bootSlot : Option Nat :=
  if imageOk 0 then some 0 else if imageOk 0x800000 then some 0x800000 else none

/-- The instruction store of a steward as the ROM writes it: image j of the body (R435, R436; log 53). -/
def stewardStore (slot j : Nat) : Memory :=
  ((List.range 0x40000).map fun a => (a, Config.flash (slot + 0x100 + 0x40000 * j + a))).filter fun e => e.2 != 0

/-- The stewards' instruction stores. -/
def stewardCores (slot : Nat) : Tab CoreSt :=
  (List.range 4).map fun j => (1024 + j, { freshCore (1024 + j) with istore := stewardStore slot j })

/-- What bring-up finds of the via columns: the connections that had failed (R414, R415; log 13). -/
def broughtUp (v : Tab Vert) : Tab Vert := v.map fun e => (e.1, { e.2 with nchg := 0 })

/-- COLD_RESET: boot runs (R436): steps 1 to 7 with a slot that passes the ROM's checks, else recovery. The model's own
numbers go on. -/
def coldReset (s : State) : State :=
  let s0 := { State.reset with agenda := s.agenda, freeCtr := s.freeCtr, nextId := s.nextId }
  match bootSlot with
  | some slot => { s0 with cores := stewardCores slot, vert := broughtUp s.vert }
  | none => { s0 with ready := false, recovery := true, keys := [] }

/-- POWER_LOSS: the session ends (spec/00 R4). -/
def powerLoss (s : State) : Option State := if s.on then some { s with on := false } else none

/-! ### Attestation (R437) -/

/-- A number as little-endian bytes. -/
def leBytes (n x : Nat) : List Byte := (List.range n).map fun i => BitVec.ofNat 8 (x / 256 ^ i)

/-- Bytes as little-endian words. -/
def leWords : Nat → List Byte → List Word
  | 0, _ => []
  | n + 1, bs => word ((bs.take 8).foldr (fun b a => a * 256 + b.toNat) 0) :: leWords n (bs.drop 8)

/-- What a report signs: nonce, digest of the running image, versions, identity dwords, splitc (R437). -/
def reportBody (s : State) (slot : Nat) : List Byte :=
  ((List.range 6).flatMap fun i => leBytes 8 (tgetD s.firm.nonce i 0).toNat) ++
  sha384 (flashBytes slot (0x100 + imageLen slot)) ++ leBytes 4 (imageVer slot) ++ leBytes 4 Config.fusedMin ++
  leBytes 8 s.physical ++ leBytes 8 (flagBit s.ready 63 + s.revision * 2 ^ 8) ++ leBytes 8 s.splitc.toNat

/-- The report (R437): 40 dwords. -/
def attestation (s : State) (slot : Nat) : List Word :=
  let b := reportBody s slot
  let g := ecSign Config.identityKey (Config.signNonce s.freeCtr) (sha384 b)
  let q := (ecMul 384 Config.identityKey (some ecG)).getD (0, 0)
  leWords 40 (b ++ leBytes 48 g.1 ++ leBytes 48 g.2 ++ leBytes 48 q.1 ++ leBytes 48 q.2)

/-- ATTEST_REPORT: steward 1,024 writes the report and then the status (R437). -/
def attestReport (s : State) : Option State :=
  if s.firm.busy then
    some { s.tick with firm := { s.firm with
      report := attestation s (bootSlot.getD 0), status := 1, busy := false } }
  else none

/-! ### The UCIe port (R434, R438-R440) -/

/-- A transaction's offset in the configuration region (R438). -/
def ucieOff (d : Word) : Option Nat :=
  let o := bits d 41 0
  if 0x3FC00000000 ≤ o && o % 8 == 0 then some (o - 0x3FC00000000) else none

/-- A reserved op or a nonzero zero field (R439). -/
def ucieBad (d : Word) (op : Nat) : Bool := bits d 63 60 != op || bits d 47 42 != 0

/-- An error of the port is logged (R439, R434; log 54). -/
def ucieLog (s : State) (src addr : Nat) : State := logError s 0 src false 1024 addr

/-- Send a transaction to the commander. -/
def ucieSend (s : State) (d0 : Word) (rest : List Word) : State := { s with ucieOut := s.ucieOut ++ [(d0, rest)] }

/-- Read data for a read (R438). -/
def readData (s : State) (d : Word) (v : Word) : State :=
  ucieSend s (word (3 * 2 ^ 60 + bits d 59 48 * 2 ^ 48 + bits d 41 0)) [v]

/-- UCIE_READ: the commander reads a word (R439); reading a log's head index frees its oldest record (spec/20 R413). -/
def ucieRead (s : State) (d : Word) : Option State :=
  if !s.ucieUp || bits d 63 60 == 2 then none
  else if ucieBad d 1 then some (ucieLog s 5 (bits d 41 0))
  else match ucieOff d with
    | none => some (readData s d 0xFFFFFFFFFFFFFFFF)
    | some o =>
      match configLoad s true o with
      | none => some (readData s d 0xFFFFFFFFFFFFFFFF)
      | some v =>
        let die := o % 0x100000 / 0x4000
        let head := o / 0x100000 == 7 && die < 4 && o % 0x4000 == 0x2000 && !(s.log die).recs.isEmpty
        some (readData (if head then freeRecord s die else s) d v)

/-- UCIE_WRITE: the commander writes a word, as a privileged thread of a system domain and no steward (R439). -/
def ucieWrite (s : State) (d x : Word) : Option State :=
  if !s.ucieUp || bits d 63 60 != 2 then none
  else if ucieBad d 2 then some (ucieLog s 5 (bits d 41 0))
  else match ucieOff d with
    | none => some (ucieLog s 5 (bits d 41 0))
    | some o =>
      match configStore s commander o x with
      | .ok s1 => some s1
      | .later s1 => some s1
      | .fail => some (ucieLog s 5 (bits d 41 0))
      | .full => none

/-- UCIE_LINK_DOWN: every function returns to its hardware mode (R434). -/
def ucieDown (s : State) : Option State :=
  if !s.ucieUp then none
  else
    let s1 := { s with ucieUp := false, splitc := 0x7F }
    some (if bits s.splitc 6 0 == 0x7F then s1 else ucieLog s1 4 0)

/-- ATTEST_REQUEST: an attestation is asked for (R437). -/
def execAttestRequest (s : State) : Host.Outcome State Fault Refusal :=
  happens "ATTEST_REQUEST" (some (askAttest s))

/-- ATTEST_REPORT: the report is written (R437). -/
def execAttestReport (s : State) : Host.Outcome State Fault Refusal :=
  happens "ATTEST_REPORT" (attestReport s)

/-- UCIE_READ: the commander reads (R439). -/
def execUcieRead (dword0 : Word) (s : State) : Host.Outcome State Fault Refusal :=
  happens "UCIE_READ" (ucieRead s dword0)

/-- UCIE_WRITE: the commander writes (R439). -/
def execUcieWrite (dword0 dword1 : Word) (s : State) : Host.Outcome State Fault Refusal :=
  happens "UCIE_WRITE" (ucieWrite s dword0 dword1)

/-- UCIE_LINK_DOWN: the link to the commander goes down (R434). -/
def execUcieLinkDown (s : State) : Host.Outcome State Fault Refusal :=
  happens "UCIE_LINK_DOWN" (ucieDown s)

/-- UCIE_LINK_UP: the link to the commander trains (R436, R438). -/
def execUcieLinkUp (s : State) : Host.Outcome State Fault Refusal :=
  happens "UCIE_LINK_UP" (if s.on && !s.ucieUp then some { s with ucieUp := true } else none)

/-- COLD_RESET: boot runs (R436). -/
def execColdReset (s : State) : Host.Outcome State Fault Refusal :=
  happens "COLD_RESET" (some (coldReset s))

/-- POWER_LOSS: the session ends (spec/00 R4). -/
def execPowerLoss (s : State) : Host.Outcome State Fault Refusal :=
  happens "POWER_LOSS" (powerLoss s)

end Sys2Proof.Machine
end

