-- ==== Sys2Proof/Machine/EvConfig.lean ====
section
/-! DEFINITION. Stores to the configuration region and to control registers, as steps of their own (spec/09 R258; spec/15
R325, R340; spec/19 R397-R403; spec/20 R417-R422; spec/21 R431, R432). -/

namespace Sys2Proof.Machine

/-! ### Stores of privileged parties that the environment stands for (log 43) -/

/-- The state after a store that is performed. -/
def stored (r : StoreOut) : Option State :=
  match r with
  | .ok s => some s
  | .later s => some s
  | _ => none

/-- CONFIG_WORD_WRITE: a privileged writer stores a word of the region (R258, spec/21 R439). -/
def configWrite (s : State) (writer off : Nat) (w : Word) : Option State :=
  if 2 ^ 34 ≤ off || off % 8 != 0 then none else stored (configStore s ⟨writer, writer == commanderEp⟩ off w)

/-- DTAB_WRITE: a core's dtab takes a value of its layout (spec/15 R325, R329). -/
def dtabWrite (s : State) (core : Nat) (w : Word) : Option State :=
  if core < 1028 && dtabOk w then some (writeDtab s core w) else none

/-- FREC_CLEAR: a thread clears its fault record (spec/07 R220, R221). -/
def frecClear (s : State) (core slot : Nat) : Option State :=
  match s.thread? core slot with
  | none => none
  | some t => some (s.setThread core slot { t with frec := 0 })

/-- ALIAS_DRAIN: a store that set an entry to draining is acknowledged (spec/20 R417). -/
def aliasDrain (s : State) (k : Nat) : Option State :=
  let mine (p : Packet) : Bool := p.stage == .queued && eaOff p.addr == 0x3FC00500000 + 8 * k && drained s k
  match s.net.find? mine with
  | none => none
  | some p =>
    match p.body with
    | .access _ => some (acknowledge (s.dropPacket p.id) p none)
    | _ => none

/-- ALIAS_MARK_LOST: software marks a logical cube lost (spec/20 R420). -/
def aliasLost (s : State) (k : Nat) : Option State :=
  if k < 15360 && (s.alias? k).2.1 != 2 then
    some (writeAlias s k ((tgetD s.aliases k 0 &&& 0x8000000000003FFF) ||| 0x4000000000000000))
  else none

/-- ROUTE_SWITCH: the old ordered route to a cube is empty, and the new one takes effect (spec/19 R399). -/
def routeSwitch (s : State) (d : Nat) : Option State :=
  match s.reroute.find? fun r => r.dest == d with
  | none => none
  | some r =>
    if oldRouteBusy s d (bits r.old 62 59) then none
    else some { s with reroute := s.reroute.filter fun x => x.dest != d }

/-- HC_DROP_FRAME: the lines of a frame are written back and dropped (spec/20 R422). -/
def hcDropFrame (s : State) (core : Nat) (w : Word) : Option State :=
  if core < 1028 && bits w 63 62 == 1 then stored (cacheControl s core w) else none

/-- DTAB_WRITE: dtab is written (spec/15 R325). -/
def execDtabWrite (core : Nat) (w : Word) (s : State) : Host.Outcome State Fault Refusal :=
  happens "DTAB_WRITE" (dtabWrite s core w)

/-- FREC_CLEAR: a fault record is cleared (spec/07 R221). -/
def execFrecClear (core slot : Nat) (s : State) : Host.Outcome State Fault Refusal :=
  happens "FREC_CLEAR" (frecClear s core slot)

/-- MBERR_CLEAR: dead-letter bits are cleared (spec/07 R220). -/
def execMberrClear (core : Nat) (group : BitVec 30) (w : Word) (s : State) : Host.Outcome State Fault Refusal :=
  happens "MBERR_CLEAR" (if core < 1028 then some (clearMberr s core (groupOf30 group.toNat) w) else none)

/-- SPLITC_WRITE: splitc is written (spec/21 R432). -/
def execSplitcWrite (w : Word) (s : State) : Host.Outcome State Fault Refusal :=
  happens "SPLITC_WRITE" (some (writeSplitc s w))

/-- ALIAS_ENTRY_WRITE: an alias entry is written (spec/15 R340). -/
def execAliasEntryWrite (k : Nat) (w : Word) (s : State) : Host.Outcome State Fault Refusal :=
  happens "ALIAS_ENTRY_WRITE" (if k < 15360 then stored (aliasStore s k w) else none)

/-- ALIAS_DRAIN: a drain is acknowledged (spec/20 R417). -/
def execAliasDrain (k : Nat) (s : State) : Host.Outcome State Fault Refusal :=
  happens "ALIAS_DRAIN" (aliasDrain s k)

/-- ALIAS_MARK_LOST: a logical cube is marked lost (spec/20 R420). -/
def execAliasMarkLost (k : Nat) (s : State) : Host.Outcome State Fault Refusal :=
  happens "ALIAS_MARK_LOST" (aliasLost s k)

/-- ROUTE_ENTRY_WRITE: a route entry is written (spec/19 R397). -/
def execRouteEntryWrite (dest : Nat) (w : Word) (s : State) : Host.Outcome State Fault Refusal :=
  happens "ROUTE_ENTRY_WRITE" (if dest < 1024 then some (writeRoute s dest w) else none)

/-- ROUTE_SWITCH: a new ordered route takes effect (spec/19 R399). -/
def execRouteSwitch (dest : Nat) (s : State) : Host.Outcome State Fault Refusal :=
  happens "ROUTE_SWITCH" (routeSwitch s dest)

/-- PATH_CLASS_WRITE: path class entries are written (spec/19 R403). -/
def execPathClassWrite (idx : Nat) (w : Word) (s : State) : Host.Outcome State Fault Refusal :=
  happens "PATH_CLASS_WRITE" (if idx < 1920 then some (writePaths s idx w) else none)

/-- HC_DROP_FRAME: the lines of a frame are dropped (spec/20 R422). -/
def execHcDropFrame (core : Nat) (w : Word) (s : State) : Host.Outcome State Fault Refusal :=
  happens "HC_DROP_FRAME" (hcDropFrame s core w)

/-- HC_DROP_ALL: every line of a home cache is dropped (spec/20 R422). -/
def execHcDropAll (core : Nat) (s : State) : Host.Outcome State Fault Refusal :=
  happens "HC_DROP_ALL" (if core < 1028 then some (dropLines s core fun _ => true) else none)

/-- LOGICAL_NUMBER_WRITE: the cube's logical number is set (spec/21 R431). -/
def execLogicalNumberWrite (w : Word) (s : State) : Host.Outcome State Fault Refusal :=
  happens "LOGICAL_NUMBER_WRITE" (some { s with logical := bits w 13 0 })

/-- CONFIG_WORD_WRITE: a word of the configuration region is stored (R258). -/
def execConfigWordWrite (writer off : Nat) (w : Word) (s : State) : Host.Outcome State Fault Refusal :=
  happens "CONFIG_WORD_WRITE" (configWrite s writer off w)

end Sys2Proof.Machine
end

