-- ==== Sys2Proof/Machine/EvCopy.lean ====
section
/-! DEFINITION. The copy engine at work (spec/06 R147, R169, R170, R175-R177, R183-R185; spec/15 R332, R345). -/

namespace Sys2Proof.Machine

/-! ### Engine reads and landed packets (R175, R279, R345) -/

/-- The owner whose range locks do not stand against an engine packet: none of this cube for one of another cube. -/
def freeOwner (s : State) (g : EngineTag) : LockOwner := if epCube g.core == s.logical then g.owner else .folio 64 0

/-- A piece of this cube's operation has been read, or has landed, at a home. -/
def settlePiece (s : State) (c : Nat) (g : EngineTag) (write : Bool) (q : Piece) : State :=
  if epCube g.core == s.logical then s.modCore c fun k => pieceDone k g.owner write q else s

/-- Answer an engine packet to its engine, in the ordered class (R269). -/
def engineAnswer (s : State) (p : Packet) (g : EngineTag) (body : Body) : State :=
  s.send { directPacket s p.dst g.core p.urg p.uid p.slot body with key := g.key }

/-- The bytes of a number, least first. -/
def byteList (n x : Nat) : List Byte := (List.range n).map fun i => BitVec.ofNat 8 (x / 256 ^ i)

/-- The source bytes of a piece at their home and their poison (R90, R279): none where a range lock holds the read back.
-/
def readPiece (s : State) (c : Nat) (p : Packet) (g : EngineTag) (n : Nat) :
    Option (Except TrapRec ((List Byte × List Bool) × State)) :=
  let k := s.core c
  let words (f : Nat → Bool) : List Bool := (List.range (n / 8)).map f
  match regionOf (eaOff p.addr), p.xl with
  | .lstore _ o, _ =>
    if !ownerOk s c p.dom then some (.error { cause := cOWNER, remote := true, xaddr := p.addr })
    else if engineConflict k (freeOwner s g) false [⟨0, o, n⟩] then none
    else some (.ok ((byteList n (k.lstore.read o n), words fun i => k.poison.contains (0, o / 8 + i)), s))
  | .dram, some x =>
    match x.elided with
    | some d => some (.ok ((byteList n (((List.range n).map fun i =>
        d.toNat / 2 ^ (8 * ((x.pa + i) % 8)) % 256 * 256 ^ i).foldl (· + ·) 0), words fun _ => false), s))
    | none =>
      if engineConflict k (freeOwner s g) false [⟨2, x.pa, n⟩] then none
      else
        let r := homeReadLine s c (x.pa / 32) x.key g.nt
        some (.ok ((byteList n (lineBytes r.1.1 (x.pa % 32) n), words fun i => bit r.1.2 (x.pa % 32 / 8 + i)), r.2))
  | _, _ => some (.error { cause := cPERM, detail := 1, remote := true, xaddr := p.addr })

/-- ENGINE_READ: a copy engine's read at the source home (R279). -/
def engineReadHere (s : State) (id : Nat) : Option State :=
  match arriving s id with
  | none => none
  | some p =>
    match p.body with
    | .engineRead g q =>
      let c := epCore p.dst
      if 1028 ≤ c || !handledAt s c p then none
      else
        match readPiece (s.useSpace c p.dom) c p g q.len with
        | none => none
        | some (.error t) =>
          some (engineAnswer ((s.dropPacket id).countPacket p c) p g (.engineAck g q 0 1 (some (failureOf { t with xaddr := p.addr }))))
        | some (.ok (r, s1)) =>
          some (engineAnswer (settlePiece ((s1.dropPacket id).countPacket p c) c g false q) p g (.engineData g q r.1 r.2))
    | _ => none

/-- Write bytes that land in a local store or B-store, with their poison (R90). -/
def landStore (k : CoreSt) (store o : Nat) (data : List Byte) (bad : List Bool) : CoreSt :=
  let k1 := cleanPoison k store o data.length
  let x := byteListNum data
  let ws := ((List.range bad.length).filter fun i => (bad[i]?).getD false).map fun i => (store, o / 8 + i)
  let k2 := { k1 with poison := k1.poison.filter (fun w => !ws.contains w) ++ ws }
  if store == 0 then { k2 with lstore := k.lstore.write o data.length x }
  else { k2 with bstore := k.bstore.write o data.length x }

/-- Write bytes that land in a DRAM line at its home. -/
def landDram (s : State) (c : Nat) (x : Xl) (nt : Bool) (data : List Byte) (bad : List Bool) : State :=
  let s1 := homeWriteLine s c (x.pa / 32) x.key nt (x.pa % 32) data.length (byteListNum data)
  homePoison s1 c (x.pa / 32) x.key (BitVec.ofNat 4 (bitsNum bad * 2 ^ (x.pa % 32 / 8)))

/-- Land a piece in a store of a core: dropped where its key is not the owner tag (R345), else written and counted in the
group's mailbox set there (R175); none where a lock or the lack of a set holds it back. -/
def landLocal (s : State) (c : Nat) (p : Packet) (g : EngineTag) (q : Piece) (store o : Nat) (data : List Byte)
    (bad : List Bool) : Option State :=
  let k := s.core c
  if p.key != k.owner then
    some (engineAnswer (settlePiece ((s.dropPacket p.id).countPacket p c) c g true q) p g (.engineAck g q 0 2 none))
  else if engineConflict k (freeOwner s g) true [⟨store, o, q.len⟩] || (g.count && !mailRoom k g.group) then none
  else
    let k1 := landStore k store o data bad
    let k2 := if g.count then addMail k1 g.group g.tag (q.len / 8) else k1
    some (engineAnswer (settlePiece (((s.setCore c k2).dropPacket p.id).countPacket p c) c g true q) p g
      (.engineAck g q (q.len / 8) 0 none))

/-- A landed packet of a sink stream, which no B-store accepts (R258). -/
def sinkPacket (g : EngineTag) : Bool := match g.ref with | .sink _ => true | _ => false

/-- LANDED_PACKET: a landed packet at its home (R175, R267, R345). -/
def landPacket (s : State) (id : Nat) : Option State :=
  match arriving s id with
  | none => none
  | some p =>
    match p.body with
    | .landed g q data bad =>
      let c := epCore p.dst
      if 1028 ≤ c || !handledAt s c p then none
      else
        match regionOf (eaOff p.addr), p.xl with
        | .lstore _ o, _ => landLocal s c p g q 0 o data bad
        | .bstore _ o, _ =>
          if sinkPacket g then
            some (engineAnswer ((s.dropPacket id).countPacket p c) p g (.engineAck g q 0 1 (some ⟨cPERM, 1, p.addr⟩)))
          else landLocal s c p g q 1 o data bad
        | .dram, some x =>
          if engineConflict (s.core c) (freeOwner s g) true [⟨2, x.pa, q.len⟩] then none
          else some (engineAnswer (settlePiece (((landDram s c x g.nt data bad).dropPacket id).countPacket p c) c g true q) p g
            (.engineAck g q (q.len / 8) 0 none))
        | _, _ => some (engineAnswer (s.dropPacket id) p g (.engineAck g q 0 1 (some ⟨cPERM, 1, p.addr⟩)))
    | _ => none

/-! ### Copies (R147, R176, R177, R332) -/

/-- An operation registers its chunk at its next home, and begins it once it holds them all (R147); a translation that fails
stops it (R177). -/
def registerCopy (s : State) (core id : Nat) : Option State :=
  match s.copyOp? core id with
  | none => none
  | some op =>
    if op.phase != .register then none
    else
      let r := chunkLocks s core id op
      match r.1 with
      | .error t => some (r.2.setCopyOp core id (op.stop (failureOf t)))
      | .ok ls =>
        match registerStep r.2 ls op.homes with
        | .all => some (beginChunk r.2 core id op)
        | .waits => none
        | .more h last s1 =>
          let op1 := { op with homes := op.homes ++ [h] }
          some (if last then beginChunk s1 core id op1 else s1.setCopyOp core id op1)

/-- The completion entry of an operation (R176). -/
def CopyOp.entryWord (op : CopyOp) (code : Nat) : Word :=
  word (op.kind * 2 ^ 60 + code * 2 ^ 56 + flagBit op.path 55 + op.tag * 2 ^ 48 + op.words % 2 ^ 32 * 2 ^ 16 + op.seq.toNat)

/-- Post an operation's entry to its thread (R176), unless the thread was saved (spec/16 R360) or has exited, and free
the operation. -/
def postCopy (s : State) (core id : Nat) (op : CopyOp) (code : Nat) : State :=
  let s1 := (releaseEverywhere s (.copy core id)).modCore core fun k => { k with copies := tdel k.copies id }
  s1.modThread core op.slot fun t =>
    if t.uid == op.uid && !op.detached then { t with q1 := t.q1 ++ [op.entryWord code] } else t

/-- COPY_COMPLETE: the completion entry is posted (R176). -/
def completeCopy (s : State) (core id : Nat) : Option State :=
  match s.copyOp? core id with
  | none => none
  | some op =>
    match op.phase with
    | .done code =>
      if op.flying.all (fun p => op.stuck.contains p) && (op.kind ≤ 3 || code != 0) then
        some (postCopy s core id op code) else none
    | _ => none

/-- COPY_FAULT: a stopped operation's fault message is sent (R177, R331). -/
def faultCopy (s : State) (core id : Nat) : Option State :=
  match s.copyOp? core id with
  | none => none
  | some op =>
    match op.phase with
    | .faulted cause detail addr entry false =>
      some (engineFault (s.setCopyOp core id { op with phase := .faulted cause detail addr entry true }) core 1 op.dom
        op.task ⟨cause, detail, addr⟩ (resumeAddr s core entry))
    | _ => none

/-! ### Row commands (R183-R185) -/

/-- The lines of a row that an engine address names: translation and home of each, with the first touch of its page (R263), or the
fault. -/
def rowLines (core dom : Nat) (priv : Bool) (a : Nat) (write : Bool) :
    List Nat → State → Except TrapRec (List (Xl × Nat)) × State
  | [], s => (.ok [], s)
  | i :: rest, s =>
    let x := translateUse s (word (a + 32 * i)) dom priv (!write) write core
    match x.1 with
    | .error t => (.error t, x.2)
    | .ok l =>
      let y := rowLines core dom priv a write rest x.2
      (match y.1 with | .error t => .error t | .ok ls => .ok (l :: ls), y.2)

/-- The rows have equal stack, layer, bank and subarray fields (R149). -/
def sameArray (a b : Nat) : Bool := a / 2 ^ 31 == b / 2 ^ 31 && a % 2 ^ 22 / 2 ^ 11 == b % 2 ^ 22 / 2 ^ 11

/-- Clone a line in place: its stored bits, the record it was written under and its poison (R184). -/
def cloneLine (s : State) (a b : Nat) : State :=
  { s with
    dram := s.dram.write (32 * b) 32 (s.dram.read (32 * a) 32)
    dramKey := match tget s.dramKey a with
      | some k => tset s.dramKey b k
      | none => tdel s.dramKey b
    dramBad := s.dramBad.filter (fun w => w / 4 != b) ++
      (s.dramBad.filter (fun w => w / 4 == a)).map fun w => 4 * b + w % 4 }

/-- Copy a line through the buffer of the memory port: read under the source key, written under the destination's, or the
pattern of an elided source (R183, R184). -/
def bufferLine (s : State) (x y : Xl) : State :=
  match x.elided with
  | some d => s.setDramLine (y.pa / 32) y.key (BitVec.ofNat 256 (d.toNat * (1 + 2 ^ 64 + 2 ^ 128 + 2 ^ 192))) 0
  | none =>
    let d := s.dramLine (x.pa / 32) x.key
    s.setDramLine (y.pa / 32) y.key d.1 d.2

/-- Write back the source lines and drop the destination lines at their homes (R185). -/
def prepareRow (s : State) (src dst : List (Xl × Nat)) : State :=
  let s1 := src.foldl (fun s x => if x.1.elided.isSome then s else cleanLine s x.2 (x.1.pa / 32)) s
  dst.foldl (fun s y => dropLine s y.2 (y.1.pa / 32) false) s1

/-- A row is copied (kind 4) or zeroed (R184, R185): the state after it, and whether the in-array path was taken; or the fault. -/
def writeRow (s : State) (core dom : Nat) (priv : Bool) (kind src dst : Nat) : Except TrapRec Bool × State :=
  let x := if kind == 4 then rowLines core dom priv src false (List.range 64) s else (.ok [], s)
  match x.1 with
  | .error t => (.error t, x.2)
  | .ok from' =>
    let y := rowLines core dom priv dst true (List.range 64) x.2
    match y.1 with
    | .error t => (.error t, y.2)
    | .ok to' =>
      let s1 := prepareRow y.2 from' to'
      let array := match from'.head?, to'.head? with
        | some a, some b => sameArray a.1.pa b.1.pa && a.1.elided.isNone && a.1.key == b.1.key
        | _, _ => false
      (.ok array,
        if kind == 5 then to'.foldl (fun s b => s.setDramLine (b.1.pa / 32) b.1.key 0 0) s1
        else (from'.zip to').foldl (fun s z =>
          if array then cloneLine s (z.1.1.pa / 32) (z.2.1.pa / 32) else bufferLine s z.1.1 z.2.1) s1)

/-- A row command of a core of this cube whose rows lie here and whose locks are held writes its row. -/
def performCopyRow (s : State) (core id : Nat) : Option State :=
  match s.copyOp? core id with
  | none => none
  | some op =>
    if op.kind ≤ 3 || op.phase != .moving || !op.flying.isEmpty then none
    else
      let r := writeRow s core op.dom op.priv op.kind op.src op.dst
      some (match r.1 with
        | .error t => r.2.setCopyOp core id (op.stop (failureOf t))
        | .ok array => r.2.setCopyOp core id { op with path := !array, words := 256, phase := .done 0 })

/-! Row commands of other cubes whose rows lie here (R183, spec/19 R394): the packet stands for the command. -/

/-- The core that stands for the source of such a command (R263). -/
def rowSource (g : EngineTag) : Nat := epCore g.core

/-- The entries that a row command of another cube needs here (R185). -/
def rowLocks (s : State) (p : Packet) (g : EngineTag) (kind src dst : Nat) : Except TrapRec (List (Nat × RangeLock)) × State :=
  pieceLocks (.packet p.id) p.dom p.priv (rowSource g) (kind != 5) true
    ((List.range 64).map fun i => ⟨src + 32 * i, dst + 32 * i, 32, i⟩) [] s

/-- Answer such a command: its locks are released, and it is acknowledged or fails. -/
def rowAnswer (s : State) (p : Packet) (g : EngineTag) (src dst code : Nat) (fail : Option Failure) : State :=
  engineAnswer ((releaseEverywhere s (.packet p.id)).dropPacket p.id) p g
    (.engineAck g ⟨src, dst, 32, 0⟩ (if fail.isNone then 256 else 0) code fail)

/-- Such a command registers at its next home. -/
def registerPacket (s : State) (id : Nat) : Option State :=
  match s.packet? id with
  | none => none
  | some p =>
    match p.body with
    | .rowCmd g kind src dst homes false =>
      if p.stage != .slice then none
      else
        let r := rowLocks s p g kind src dst
        match r.1 with
        | .error t => some (rowAnswer r.2 p g src dst 1 (some (failureOf t)))
        | .ok ls =>
          match registerStep r.2 ls homes with
          | .all => some (r.2.modPacket id fun p => { p with body := .rowCmd g kind src dst homes true })
          | .waits => none
          | .more h last s1 => some (s1.modPacket id fun p => { p with body := .rowCmd g kind src dst (homes ++ [h]) last })
    | _ => none

/-- Such a command writes its row. -/
def performPacketRow (s : State) (id : Nat) : Option State :=
  match s.packet? id with
  | none => none
  | some p =>
    match p.body with
    | .rowCmd g kind src dst _ true =>
      let r := writeRow s (rowSource g) p.dom p.priv kind src dst
      some (match r.1 with
        | .error t => rowAnswer r.2 p g src dst 1 (some (failureOf t))
        | .ok array => rowAnswer r.2 p g src dst (if array then 16 else 0) none)
    | _ => none

/-- RANGE_LOCK_REGISTER: a chunk registers at its next home (R147); of `slicePort`, a row command of another cube. -/
def registerNext (s : State) (core id : Nat) : Option State :=
  if core == slicePort then registerPacket s id else registerCopy s core id

/-- ROW_COMMAND_PERFORM: a row is copied or zeroed (R185); of `slicePort`, by a command of another cube. -/
def performRow (s : State) (core id : Nat) : Option State :=
  if core == slicePort then performPacketRow s id else performCopyRow s core id

/-- ROW_COMMAND_COMPLETE: the locks are released, 256 is counted at the issuing core, and the entry is posted (R185). -/
def completeRow (s : State) (core id : Nat) : Option State :=
  match s.copyOp? core id with
  | none => none
  | some op =>
    if op.kind ≤ 3 || op.phase != .done 0 || !mailRoom (s.core core) op.group then none
    else some (postCopy (s.modCore core fun k => addMail k op.group op.tag 256) core id op 0)

/-! ### Streams (R169, R170) -/

/-- The strip of a source stream that is being fetched: the one begun, or the next, at most four ahead (R169). -/
def nextStrip (st : Stream) : Option (List Piece) :=
  if st.pat.sink || st.faulted.isSome || st.asked then none
  else if !st.coming.isEmpty then some (st.coming.map (·.1))
  else if 4 ≤ st.strips.length || st.pat.count ≤ st.fetched then none
  else some (stripPieces (st.pat.strip st.fetched).toNat)

/-- STREAM_STRIP_FETCH: a strip registers at its next home, and is asked for once it holds them all (R147, R169). -/
def fetchStrip (s : State) (core slot v : Nat) : Option State :=
  match s.thread? core slot with
  | none => none
  | some t =>
    match t.stream? v with
    | none => none
    | some st =>
      match nextStrip st with
      | none => none
      | some ps =>
        let r := pieceLocks (.stream st.op) st.dom st.priv core true false ps [] s
        let begun (s : State) (homes : List Nat) (asked : Bool) : State :=
          modStream s core slot v st.op fun st =>
            { st with coming := ps.map fun p => (p, none), homes := homes, asked := asked }
        match r.1 with
        | .error x => some (stopStrip (begun r.2 st.homes false) core slot v st.op none (failureOf x))
        | .ok ls =>
          match registerStep r.2 ls st.homes with
          | .waits => none
          | .all => some (askStrip (begun r.2 st.homes true) core slot v t st ps)
          | .more h last s1 =>
            let s2 := begun s1 (st.homes ++ [h]) last
            some (if last then askStrip s2 core slot v t st ps else s2)

/-- The homes of pieces that are to land, as far as they can be told: of another cube's DRAM, the cube's slices. -/
def pieceHomes (s : State) (dom : Nat) (priv : Bool) (core : Nat) (ps : List Piece) : List Nat :=
  ps.filterMap fun p =>
    let ea := word p.dst
    match regionOf (eaOff ea) with
    | .lstore h _ | .bstore h _ => some (eaCube ea * 2048 + h)
    | .dram =>
      if eaCube ea != s.logical then some (eaCube ea * 2048 + slicePort)
      else match translateNow s ea dom priv false true core with
        | .ok (_, h) => some (s.ep h)
        | .error _ => none
    | _ => none

/-- A strip can register and be sent: no earlier strip of its stream waits or is stopped, and none has a piece under way to a home
to which this one goes, so that each home performs them in strip order (R170). -/
def sinkClear (s : State) (core : Nat) (before : List SinkStrip) (q : SinkStrip) : Bool :=
  let homes := pieceHomes s q.dom q.priv core (stripPieces q.addr)
  (before.filter fun r => r.op == q.op).all fun r =>
    r.faulted.isNone &&
      (match r.flying with
        | none => false
        | some ps => (pieceHomes s r.dom r.priv core ps).all fun h => !homes.contains h)

/-- The first strip of a core that is not sent and can go on. -/
def nextSink (s : State) (core : Nat) : List SinkStrip → List SinkStrip → Option SinkStrip
  | _, [] => none
  | before, q :: rest =>
    if q.flying.isNone && q.faulted.isNone && sinkClear s core before q then some q else nextSink s core (before ++ [q]) rest

/-- Replace the first strip that is equal to one. -/
def sinkSent (q q' : SinkStrip) : List SinkStrip → List SinkStrip
  | [] => []
  | r :: rest => if r == q then q' :: rest else r :: sinkSent q q' rest

/-- A strip handed over takes its number as it begins to register. -/
def beginSink (s : State) (core : Nat) (q : SinkStrip) : SinkStrip × State :=
  if q.id != 0 then (q, s)
  else
    let q' := { q with id := s.nextId }
    (q', s.bump.modCore core fun k => { k with sinkq := sinkSent q q' k.sinkq })

/-- STREAM_STRIP_WRITE: a strip handed over registers at its next home, and is sent as landed packets once it holds them all
(R147, R170). -/
def writeStrip (s : State) (core : Nat) : Option State :=
  match nextSink s core [] (s.core core).sinkq with
  | none => none
  | some q0 =>
    let b := beginSink s core q0
    let q := b.1
    let ps := stripPieces q.addr
    let r := pieceLocks (.stream q.id) q.dom q.priv core false true ps [] b.2
    let sent (s : State) : State := sendSink (modSink s core q.id fun q => { q with flying := some ps }) core q q.id ps
    match r.1 with
    | .error t => some (stopSink r.2 core q.id none (failureOf t))
    | .ok ls =>
      match registerStep r.2 ls q.homes with
      | .waits => none
      | .all => some (sent r.2)
      | .more h last s1 =>
        let s2 := modSink s1 core q.id fun q => { q with homes := q.homes ++ [h] }
        some (if last then sent s2 else s2)

/-- LANDED_PACKET: a landed packet is written, counted or dropped (R175). -/
def execLandedPacket (pkt : Nat) (s : State) : Host.Outcome State Fault Refusal :=
  happens "LANDED_PACKET" (landPacket s pkt)

/-- RANGE_LOCK_REGISTER: a chunk registers at its next home (R147). -/
def execRangeLockRegister (core op : Nat) (s : State) : Host.Outcome State Fault Refusal :=
  happens "RANGE_LOCK_REGISTER" (registerNext s core op)

/-- COPY_COMPLETE: an operation posts its entry (R176). -/
def execCopyComplete (core op : Nat) (s : State) : Host.Outcome State Fault Refusal :=
  happens "COPY_COMPLETE" (completeCopy s core op)

/-- COPY_FAULT: a stopped operation sends its fault message (R177). -/
def execCopyFault (core op : Nat) (s : State) : Host.Outcome State Fault Refusal :=
  happens "COPY_FAULT" (faultCopy s core op)

/-- COPY_RESUME: a stopped operation goes on (R332). -/
def execCopyResume (core op : Nat) (s : State) : Host.Outcome State Fault Refusal :=
  happens "COPY_RESUME" (resumeCopy s core op)

/-- COPY_ABANDON: a stopped operation is abandoned (R332). -/
def execCopyAbandon (core op : Nat) (s : State) : Host.Outcome State Fault Refusal :=
  happens "COPY_ABANDON" (abandonCopy s core op)

/-- STREAM_STRIP_FETCH: a source stream asks for its next strip (R169). -/
def execStreamStripFetch (core slot v : Nat) (s : State) : Host.Outcome State Fault Refusal :=
  happens "STREAM_STRIP_FETCH" (fetchStrip s core slot v)

/-- STREAM_STRIP_WRITE: a sink strip is sent (R170). -/
def execStreamStripWrite (core : Nat) (s : State) : Host.Outcome State Fault Refusal :=
  happens "STREAM_STRIP_WRITE" (writeStrip s core)

/-- ROW_COMMAND_PERFORM: a row is copied or zeroed (R185). -/
def execRowCommandPerform (core op : Nat) (s : State) : Host.Outcome State Fault Refusal :=
  happens "ROW_COMMAND_PERFORM" (performRow s core op)

/-- ROW_COMMAND_COMPLETE: a row command is counted and posted (R185). -/
def execRowCommandComplete (core op : Nat) (s : State) : Host.Outcome State Fault Refusal :=
  happens "ROW_COMMAND_COMPLETE" (completeRow s core op)

/-- ENGINE_READ: a copy engine reads a piece at its source home (R279). -/
def execEngineRead (pkt : Nat) (s : State) : Host.Outcome State Fault Refusal :=
  happens "ENGINE_READ" (engineReadHere s pkt)

end Sys2Proof.Machine
end

