-- ==== Sys2Proof/Machine/EvFabric.lean ====
section
/-! DEFINITION. Gateways: routing, retry, losses, reduce and multicast trees (spec/19 R393-R410; spec/20 R417-R421). -/

namespace Sys2Proof.Machine

/-- The endpoint number that stands for the gateways of a cube (log 108). -/
def gatewayPort : Nat := 2003

/-! ### Sending from this cube (spec/19 R395, R398, R401, R403; spec/15 R340) -/

/-- Words of the payload of a packet (R383, R394): a ferry is its sixteen dwords, which hold the departing core's endpoint while it
has a slice to pass (spec/08 R243). -/
def payloadOf (p : Packet) : List Word :=
  match p.body with
  | .ferry f => ferryWords (if epCore p.dst == slicePort then p.src else p.dst) f
  | _ => (Config.wirePayload p).take 64

/-- The link packet of a packet that leaves by a port (R395). -/
def linkOf (s : State) (q : Nat) (p : Packet) (dcube ord vc tree : Nat) : LinkPkt :=
  let ws := payloadOf p
  let h1 := linkHdr1 (s.port q).pid (p.key % 128) ws.length tree q
  let l : LinkPkt :=
    ⟨linkHdr0 dcube (epCore p.dst) s.physical (epCore p.src) ord vc 0 (typeOn p.body ord), h1, [], p.urg, s.time⟩
  { l with payload := payloadCipher s false l ws }

/-- Send a packet by a port as its source gateway: kept in the retry store, queued, or abandoned at once where the port has
failed or the packet has no route (R395, R397, R401, R402). -/
def sendBy (s : State) (q : Nat) (p : Packet) (dcube ord vc tree : Nat) (routed : Bool) : Option State :=
  let x := s.port q
  if !storeRoom x then none
  else
    let l := linkOf s q p dcube ord vc tree
    let failed := !routed || x.state == 5
    let r : Retry := { pid := x.pid, pkt := p, link := l, sent := s.time, away := failed }
    let s1 := s.setPort q { x with pid := (x.pid + 1) % 2 ^ 32, store := x.store ++ [r] }
    some (if failed then s1 else enqueue s1 q l)

/-- The peer of a port does not accept a message atomic's class (R403). -/
def classBarred (s : State) (q : Nat) (p : Packet) : Bool :=
  match p.body with
  | .access a => match atomicClass a.op with
    | some c => !bit (s.port q).pcls c
    | none => false
  | _ => false

/-- An abandoned ordered packet for a cube waits to be sent again: later ordered ones wait behind it (R399, R402). -/
def behindAbandoned (s : State) (d : Nat) : Bool :=
  s.ports.any fun x => x.2.store.any fun r => r.away && !r.query && r.link.ord == 0 && r.link.dcube == d

/-- Send to a physical cube by the route tables. -/
def sendTo (s : State) (p : Packet) (d : Nat) (late : Bool) : Option State :=
  let ord := if p.ordered then 0 else 1
  if p.ordered && behindAbandoned s d then none
  else match leaveBy s d ord p.urg 0 late true with
    | .gone => sendBy (s.dropPacket p.id) (bits (s.route d) 62 59) p d ord 0 0 false
    | .wait => none
    | .by' q vc =>
      if classBarred s q p then some (failAtGateway s p { cause := cPERM, detail := 6 })
      else sendBy (s.dropPacket p.id) q p d ord vc 0 true

/-- The ports of a tree's children. -/
def downPorts (s : State) (t : Nat) : List Nat := (List.range 16).filter fun i => bit (s.treeWord t 0) (40 + i)

/-- The port of a tree's parent. -/
def upPort (s : State) (t : Nat) : List Nat :=
  let u := bits (s.treeWord t 0) 60 56
  if u < 16 then [u] else []

/-- The tree that a packet follows and the ports by which it leaves this cube (R404, R408-R410). -/
def treePorts (s : State) (p : Packet) : Nat × List Nat :=
  match p.body with
  | .haltReq _ _ => (0, (upPort s 0 ++ downPorts s 0).filter fun q => q + 1 != p.seq.toNat)
  | .barRelease _ _ _ => (1, downPorts s 1)
  | .tensor t => (t.tree, upPort s t.tree)
  | .landed _ _ _ _ => (p.tree, downPorts s p.tree)
  | _ => (1, upPort s 1)

/-- What the entry of a tree must be for a body (R404): reduce, multicast, barrier, halt. -/
def treeUse (b : Body) : Nat :=
  match b with
  | .tensor _ => 0
  | .landed _ _ _ _ => 1
  | .haltReq _ _ => 3
  | _ => 2

/-- The entry of a tree is valid, with a parent port or the root's mark, and of the use that a body needs (R404). -/
def treeOk (s : State) (t : Nat) (b : Body) : Bool :=
  let w := s.treeWord t 0
  bit w 63 && bits w 62 61 == treeUse b && (decide (bits w 60 56 < 16) || bits w 60 56 == 31)

/-- Send a packet along its tree by each of its ports, all or none. -/
def sendAll (p : Packet) (t : Nat) : List Nat → State → Option State
  | [], s => some s
  | q :: rest, s =>
    match sendBy s q p 0 2 0 t true with
    | none => none
    | some s1 => sendAll p t rest s1

/-- A packet leaves along a tree; where the entry is invalid or of another use it is discarded (R404). -/
def sendTree (s : State) (p : Packet) : Option State :=
  let r := treePorts s p
  let s1 := s.dropPacket p.id
  if !treeOk s r.1 p.body then some (if treeUse p.body < 2 then linkEvent s1 5 (word r.1) 0 else s1)
  else sendAll p r.1 r.2 s1

/-- A packet that stays in this cube though another logical number names it (spec/15 R340). -/
def comeHome (s : State) (p : Packet) : State :=
  s.modPacket p.id fun p => { p with
    dst := s.logical * 2048 + epCore p.dst, stage := if epCore p.dst == slicePort then .slice else .home }

/-- A packet at the edge gateways is sent, or fails (spec/15 R340, spec/20 R417, R420); none where it is held. -/
def gatewaySend (s : State) (p : Packet) (late : Bool) : Option State :=
  let k := epCube p.dst
  if k == treeUp || k == treeDown then sendTree s p
  else
    let a := s.alias? k
    if !a.1 then some (failAtGateway s p { cause := cXLATE, detail := 3 })
    else if a.2.1 == 2 then some (lostAtGateway s p)
    else if a.2.1 == 1 then none
    else if a.2.2 == s.physical then some (comeHome s p)
    else sendTo s p a.2.2 late

/-- An earlier ordered packet of the same class for the same cube still stands at the gateways (R272, spec/20 R417). -/
def behindGateway (net : List Packet) (p : Packet) : Bool :=
  p.ordered && (earlier net p).any fun q =>
    q.stage == .gateway && q.ordered && q.urg == p.urg && epCube q.dst == epCube p.dst

/-- The first packet of a list that can leave. -/
def firstOut (s : State) : List Packet → Option State
  | [] => none
  | p :: rest =>
    if p.stage == .gateway && !behindGateway s.net p then
      match gatewaySend s p false with
      | some s1 => some s1
      | none => firstOut s rest
    else firstOut s rest

/-- ADAPTIVE_FALLBACK: an adaptive packet that no port could take for 256 cycles takes the ordered route (R398). -/
def adaptiveFallback (s : State) (id : Nat) : Option State :=
  match s.packet? id with
  | none => none
  | some p =>
    if p.stage != .gateway || p.ordered || s.time < p.since + 256 then none else gatewaySend s p true

/-! ### Arrival (R393, R394, R396, R401; spec/20 R419) -/

/-- The logical number of a physical cube, as far as the alias table tells (log 48). -/
def logicalOf (s : State) (phys : Nat) : Nat :=
  ((s.aliases.find? fun e => bit e.2 63 && bits e.2 13 0 == phys).map (·.1)).getD phys

/-- The packet that a link packet carries to this cube (R396). -/
def packetOf (s : State) (l : LinkPkt) : Option Packet :=
  let ws := payloadCipher s true l l.payload
  let src := logicalOf s l.scube * 2048 + l.score
  let base (p : Packet) : Packet :=
    { p with src := src, dst := s.logical * 2048 + l.dcore, ordered := l.ord == 0, urg := l.ucls, key := l.kslot, xl := none,
             via := none, stage := if l.dcore == slicePort then .slice else .home }
  if l.typ == 0 then
    if ws.length != 16 then none
    else
      let f := ferryOfWords s ws
      some (base { directPacket s src (s.logical * 2048 + l.dcore) l.ucls s.nextId 0 (.ferry f) with
        addr := f.addr, dom := f.dom, priv := (feDom s f.dom).priv })
  else
    match Config.wirePacket l.h0 l.h1 ws with
    | some p => if typeOn p.body l.ord == l.typ then some (base p) else none
    | none => none

/-- An answer ends the query that waits for it (spec/20 R421). -/
def answeredStore (s : State) (b : Body) : State :=
  match b with
  | .ack ref _ =>
    { s with ports := s.ports.map fun e =>
        (e.1, { e.2 with store := e.2.store.filter fun r => !(r.query && r.pkt.id == ref) }) }
  | _ => s

/-- A packet for this cube is delivered to the mesh (R396); a payload that is no packet of its type is dropped (log 39). -/
def deliverLink (s : State) (l : LinkPkt) : State :=
  match packetOf s l with
  | none => s.tick
  | some p => (answeredStore s.tick p.body).bump.send p

/-- The cores of this cube that a multicast tree names (R408). -/
def treeMembers (s : State) (t : Nat) : List Nat :=
  (List.range (bits (s.treeWord t 4) 10 0)).map fun i => bits (s.treeWord t 4) 42 32 + i

/-- Send a packet to the port of a tree's units in this cube, or on along the tree. -/
def toTree (s : State) (p : Packet) (cube port : Nat) (from' : Nat) : State :=
  s.send { p with dst := cube * 2048 + port, seq := BitVec.ofNat 16 (from' + 1), since := s.time,
                  stage := if cube == s.logical then .home else .gateway }

/-- A tree packet reaches this cube (R404, R408-R410). -/
def arriveTree (s : State) (port : Nat) (l : LinkPkt) : State :=
  match packetOf s l with
  | none => s.tick
  | some p =>
    let s1 := s.tick.bump
    if !treeOk s1 l.tree p.body then (if treeUse p.body < 2 then linkEvent s1 5 (word l.tree) 0 else s1)
    else match p.body with
      | .haltReq _ _ => toTree (toTree s1 p s1.logical barrierPort port) p treeUp barrierPort port
      | .barRelease b phase fa => spreadRelease s1 b phase fa
      | .tensor _ => toTree s1 p s1.logical treePort port
      | .landed g q data poison =>
        let off := q.dst % 0x400000
        let s2 := (treeMembers s1 l.tree).foldl (fun s c =>
          let a := localGlobal s.logical c off
          s.send { p with dst := s.ep c, addr := a, stage := .home, body := .landed g { q with dst := a.toNat } data poison }) s1
        if (downPorts s2 l.tree).isEmpty then s2 else toTree s2 { p with tree := l.tree } treeDown (epCore p.dst) port
      | _ =>
        if podRoot s1 then toTree s1 p s1.logical barrierPort port else toTree s1 p treeUp barrierPort port

/-- A packet for this cube's own number after its replacement (spec/20 R419): sent on while the window lasts, then abandoned.
-/
def sendOn (s : State) (l : LinkPkt) (q : Nat) : Option State :=
  let m := { l with h0 := linkHdr0 q l.dcore l.scube l.score l.ord l.vc l.hops l.typ }
  if 1024 ≤ q then some (abandonLink s l)
  else match leaveBy s q l.ord l.ucls l.vc (l.since + 256 ≤ s.time) false with
    | .by' p vc => some (enqueue s p (m.moved vc (l.hops + 1)))
    | .wait => none
    | .gone => some (abandonLink s l)

/-- Pairs of accepted packets (R401). -/
def isDuplicate (s : State) (l : LinkPkt) : Bool :=
  s.pids.any fun e => e.1 == l.scube && e.2.1 == l.sport && e.2.2.1 == l.pid

/-- A packet that ends here: duplicates are receipted again, others accepted, receipted and delivered (R396, R401). -/
def acceptLink (s : State) (port : Nat) (l : LinkPkt) : State :=
  if isDuplicate s l then sendNotice s 10 l
  else
    let s1 := sendNotice { s with pids := s.pids ++ [(l.scube, l.sport, l.pid, s.time)] } 10 l
    if l.ord == 2 then arriveTree s1 port l else deliverLink s1 l

/-- A packet in transit (R396, R398): one hop more, decrypted by no one; the 32nd hop is not taken. -/
def transitLink (s : State) (l : LinkPkt) : Option State :=
  if 30 ≤ l.hops then some (abandonLink s l)
  else match leaveBy s l.dcube l.ord l.ucls l.vc (l.since + 256 ≤ s.time) false with
    | .gone => some (abandonLink s l)
    | .wait => none
    | .by' q vc => some (if (s.port q).state == 5 then abandonLink s l else enqueue s q (l.moved vc (l.hops + 1)))

/-- What a gateway does with a packet that its port has received (R394, R396). -/
def processLink (s : State) (port : Nat) (l : LinkPkt) : Option State :=
  if l.malformed then some (abandonLink s l)
  else if l.ord == 2 then some (acceptLink s port l)
  else if l.dcube == s.physical then
    match s.forward with
    | some (q, _) => sendOn s l q
    | none =>
      if 10 ≤ l.typ then
        some (s.send (directPacket s (s.ep gatewayPort) (s.ep gatewayPort) 2 0 0
          (if l.typ == 10 then .receipt l.sport l.pid else .abandon l.sport l.pid)))
      else some (acceptLink s port l)
  else transitLink s l

/-- The first packet of a port's queues that can go on (R387: one queue does not hold back another). -/
def firstIn (s : State) (port : Nat) : List LinkPkt → List LinkPkt → Option State
  | _, [] => none
  | before, l :: rest =>
    let blocked := before.any fun b => b.queue == l.queue
    match (if blocked then none else processLink (s.modPort port fun x => { x with inq := before ++ rest }) port l) with
    | some s1 => some s1
    | none => firstIn s port (before ++ [l]) rest

/-- An adaptive packet that waits at a sealed port is routed by another (R392, R398). -/
def leaveSealed (s : State) (port : Nat) : Option State :=
  let x := s.port port
  if x.state != 4 then none
  else x.outq.findSome? fun l =>
    if l.ord != 1 then none
    else match leaveBy s l.dcube 1 l.ucls l.vc (l.since + 256 ≤ s.time) false with
      | .by' q vc =>
        if q == port then none
        else some (enqueue (s.setPort port { x with outq := x.outq.erase l }) q (l.moved vc l.hops))
      | _ => none

/-- LINK_PACKET_ARRIVE: a packet at a gateway goes on: of a port's queues, or, as port 16, a notice that has found its route or one
of those from the mesh (R393-R398). -/
def packetArrive (s : State) (port : Nat) : Option State :=
  if port < 16 then
    match firstIn s port [] (s.port port).inq with
    | some s1 => some s1
    | none => leaveSealed s port
  else if port == 16 then
    match noticeRetry s with
    | some s1 => some s1
    | none => firstOut s s.net
  else none

/-! ### Retry (R401, R402; spec/20 R419, R421) -/

/-- A packet that has come to this cube's gateways. -/
def atGateway (s : State) (id : Nat) : Option Packet :=
  match s.packet? id with
  | none => none
  | some p => if p.stage == .home && p.dst == s.ep gatewayPort then some p else none

/-- Change an entry of a retry store. -/
def modRetry (s : State) (port pid : Nat) (f : Retry → Retry) : State :=
  s.modPort port fun x => { x with store := x.store.map fun r => if r.pid == pid then f r else r }

/-- An entry leaves its store. -/
def dropRetry (s : State) (port pid : Nat) : State :=
  s.modPort port fun x => { x with store := x.store.filter fun r => r.pid != pid }

def findRetry (s : State) (port pid : Nat) : Option Retry := (s.port port).store.find? fun r => r.pid == pid

/-- The loss of a packet's reply is to be found out at its home (spec/20 R421): stores and message atomics. -/
def expectsReply (p : Packet) : Bool := match p.body with | .access _ => true | _ => false

/-- RECEIPT_RECEIVE: a receipt frees the store entry (R401); a request stays until its reply comes (spec/20 R421). -/
def receiptReceive (s : State) (id : Nat) : Option State :=
  match atGateway s id with
  | none => none
  | some p =>
    match p.body with
    | .receipt port pid =>
      let s1 := s.dropPacket id
      match findRetry s1 port pid with
      | none => some s1
      | some r =>
        some (if expectsReply r.pkt && !r.query then
          modRetry s1 port pid fun r => { r with query := true, away := false, sends := 0, sent := s.time }
        else if r.query then s1 else dropRetry s1 port pid)
    | _ => none

/-- ABANDON_NOTICE: a gateway has abandoned a send (R402). -/
def abandonNotice (s : State) (id : Nat) : Option State :=
  match atGateway s id with
  | none => none
  | some p =>
    match p.body with
    | .abandon port pid => some (modRetry (s.dropPacket id) port pid fun r => if r.query then r else { r with away := true })
    | _ => none

/-- Send a packet of the store again with its pid (R402): an ordered one ahead of later ones, an adaptive one by the ordered route
only when it has waited 256 cycles for another (R398). A port whose peer does not accept its class fails it (R403). -/
def resend (s : State) (port : Nat) (r : Retry) : Option State :=
  let sentAs (away : Bool) : State :=
    modRetry s port r.pid fun r => { r with sends := r.sends + 1, sent := s.time, away := away, due := none }
  let go (q : Nat) (l : LinkPkt) : State :=
    if (s.port q).state == 5 then sentAs true
    else if l.ord == 0 then enqueueAgain (sentAs false) q l
    else enqueue (sentAs false) q l
  if r.link.ord == 2 then some (go port r.link)
  else match leaveBy s r.link.dcube r.link.ord r.link.ucls 0 ((r.due.map (· + 256)).any (· ≤ s.time)) false with
    | .by' q vc =>
      if classBarred s q r.pkt then some (failAtGateway (dropRetry s port r.pid) r.pkt { cause := cPERM, detail := 6 })
      else some (go q (r.link.moved vc 0))
    | .wait =>
      if r.link.ord == 1 && r.due.isNone then some (modRetry s port r.pid fun r => { r with due := some s.time }) else none
    | .gone => some (sentAs true)

/-- Ask the home whether it has performed a request (spec/20 R421): by the adaptive class. -/
def askHome (s : State) (port : Nat) (r : Retry) : State :=
  let p := { directPacket s (s.ep gatewayPort) r.pkt.dst 2 0 0 (.homeQuery r.pkt.src r.pkt.slot r.pkt.uid r.pkt.seq port r.pid) with
    ordered := false }
  (modRetry s port r.pid fun r => { r with sends := 1, sent := s.time }).send p

/-- An earlier abandoned ordered packet for the same cube is sent again first (R402). -/
def retryFirst (x : Port) (r : Retry) : Bool :=
  (x.store.takeWhile fun q => q.pid != r.pid).all fun q =>
    !(q.away && q.link.ord == 0 && r.link.ord == 0 && q.link.dcube == r.link.dcube)

/-- RETRY_TIMEOUT: a packet that was abandoned, or has waited 2^20 cycles for its receipt, is sent again, and after four sends
is lost (R402); the home of a request whose reply is lost is asked, and an unanswered query gives unknown (spec/20 R421).
-/
def retryTimeout (s : State) (port pid : Nat) : Option State :=
  match findRetry s port pid with
  | none => none
  | some r =>
    if r.query then
      if s.time < r.sent + 2 ^ 22 then none
      else if r.sends == 0 && (s.alias? (epCube r.pkt.dst)).2.1 != 2 then some (askHome s port r)
      else some (reportLoss (dropRetry s port pid) r.pkt pid 2)
    else if !r.away && s.time < r.sent + 2 ^ 20 then none
    else if !retryFirst (s.port port) r then none
    else if 4 ≤ r.sends then some (reportLoss (dropRetry s port pid) r.pkt pid 2)
    else resend s port r

/-- PID_RECORD_EXPIRE: a record of an accepted packet has been kept for 2^22 cycles (R401). -/
def pidExpire (s : State) (idx : Nat) : Option State :=
  match s.pids[idx]? with
  | none => none
  | some e => if s.time < e.2.2.2 + 2 ^ 22 then none else some { s with pids := s.pids.eraseIdx idx }

/-- FORWARD_WINDOW_EXPIRE: the window in which packets are sent on to a replacement ends (spec/20 R419). -/
def windowExpire (s : State) (k : Nat) : Option State :=
  match s.forward with
  | none => none
  | some (q, t) => if q == k && k < 1024 && t + 2 ^ 22 ≤ s.time then some { s with forward := some (1024, t) } else none

/-- HOME_QUERY: a query reaches the home, which answers and refuses a late copy (spec/20 R421); or its answer reaches the
gateway that asked. -/
def homeQuery (s : State) (id : Nat) : Option State :=
  match s.packet? id with
  | none => none
  | some p =>
    match p.body with
    | .homeQuery src slot uid seq port pid =>
      let c := epCore p.dst
      if p.stage != .home || epCube p.dst != s.logical then none
      else
        let me (d : DoneId) : Bool := d.src == src && d.slot == slot && d.uid == uid && d.seq == seq
        let hit := s.cores.any fun k => k.2.done.any fun d => me d && d.performed
        let s1 := s.dropPacket id
        let s2 := if hit || 1028 ≤ c then s1
          else s1.modCore c fun k => { k with done := (⟨src, slot, uid, seq, false⟩ :: k.done.filter fun d => !me d).take 512 }
        some (s2.send { directPacket s2 p.dst p.src 2 0 0 (.homeReply port pid hit) with ordered := false })
    | .homeReply port pid performed =>
      if p.stage != .home || epCube p.dst != s.logical then none
      else
        let s1 := s.dropPacket id
        match findRetry s1 port pid with
        | none => some s1
        | some r => some (reportLoss (dropRetry s1 port pid) r.pkt pid (if performed then 0 else 1))
    | _ => none

/-! ### Reduce trees (R404-R407; spec/03 R86) -/

/-- A block that is combined in this cube. -/
def State.combine (s : State) (t b : Nat) : Combine :=
  (s.combines.find? fun c => c.tree == t && c.block == b).getD ⟨t, b, [], none, []⟩

/-- Keep a block; one without anything is not listed. -/
def State.setCombine (s : State) (c : Combine) : State :=
  let rest := s.combines.filter fun x => !(x.tree == c.tree && x.block == c.block)
  { s with combines := if c.parts.isEmpty && c.seen.isEmpty && c.key.isNone then rest else rest ++ [c] }

/-- The highest contribution index. -/
def treeLast (s : State) (t : Nat) : Nat := bits (s.treeWord t 1) 15 0

/-- The node of a partial widens while its sibling is absent (R406). -/
def widen (n1 : Nat) : Nat → Tensor → Tensor
  | 0, x => x
  | fuel + 1, x =>
    let w := x.hi - x.lo
    if w < 64 && x.lo % (2 * w) == 0 && n1 < x.hi then widen n1 fuel { x with hi := x.lo + 2 * w } else x

/-- Two partials are the children of one node (R406): siblings within a leaf, or the fold so far and the next leaf. -/
def siblings (a b : Tensor) : Bool :=
  let wa := a.hi - a.lo
  let wb := b.hi - b.lo
  a.hi == b.lo && ((wa == wb && wa < 64 && a.lo % (2 * wa) == 0) || (a.lo == 0 && wa % 64 == 0 && wb == 64))

/-- One element of a combination (R406): float sums are rounded to nearest even with subnormals kept, integers wrap. -/
def combineElem (s : State) (t x y : Nat) : Nat × Flags :=
  let w := s.treeWord t 1
  let et := bits w 60 58
  let op := bits w 63 62
  if bit w 61 then
    let a := intOf et x
    let b := intOf et y
    (wrapTo (etWidth et) (match op with | 0 => a + b | 1 => min a b | _ => max a b), 0)
  else
    let f := fmtOf et
    let a := fread FCtl.plain f x
    let b := fread FCtl.plain f y
    let r := match op with
      | 0 => faddX .rne a b
      | 1 => fminmaxX false a b
      | _ => fminmaxX true a b
    let c := fwrite FCtl.plain f r.1
    (c.1, r.2 ||| c.2)

/-- One element of a sole contribution, read at the final write (R86): a NaN becomes canonical, a signalling one raises NV. -/
def loneElem (s : State) (t x : Nat) : Nat × Flags :=
  let w := s.treeWord t 1
  if bit w 61 then (x, 0)
  else
    let f := fmtOf (bits w 60 58)
    let v := fread FCtl.plain f x
    ((fwrite FCtl.plain f v).1, sigFlag v)

/-- The combination of two partials: its first child carries the tag. -/
def combineTwo (s : State) (a b : Tensor) : Tensor :=
  let es := List.zipWith (combineElem s a.tree) a.elems b.elems
  { a with hi := b.hi, elems := es.map (·.1), poison := List.zipWith (· || ·) a.poison b.poison,
           fl := es.foldl (fun f e => f ||| e.2) (a.fl ||| b.fl) }

/-- A pair of partials that can be combined. -/
def nextPair (ps : List Tensor) : Option (Tensor × Tensor) :=
  ps.findSome? fun a => (ps.find? fun b => siblings a b).map fun b => (a, b)

/-- A contribution that has come to the combining point is acknowledged to the engine that sent it (R407). -/
def ackContribution (s : State) (p : Packet) (x : Tensor) : State :=
  if epCube x.tag.core != s.logical || epCube p.src != s.logical then s
  else match x.tag.ref with
    | .copy id =>
      match s.copyOp? (epCore x.tag.core) id with
      | none => s
      | some op =>
        (op.flying.filter fun q => q.dst / 256 == p.addr.toNat / 256).foldl (fun s q =>
          (engineAcked s (epCore x.tag.core) { x.tag with count := false } q (q.len / 8) 0 none).getD s) s
    | _ => s

/-- A contribution is taken in (R405-R407): one with another key is dropped and reported, by the issuing core where it is of this
cube, else by steward core 1,024 (spec/15 R331, log 116); a second one of a core waits. -/
def takePartial (s : State) (c : Combine) (p : Packet) (x : Tensor) : Option State :=
  let own := epCube p.src == s.logical
  let s1 := s.dropPacket p.id
  if (c.key.getD x.tag.key) != x.tag.key then
    some (faultFrom s1 (if own then epCore x.tag.core else 1024) x.tag.core 2 x.dom x.tag.task ⟨cOWNER, 0, p.addr⟩ p.addr)
  else if own && c.seen.contains x.lo then none
  else if 256 ≤ c.parts.length then none
  else
    let y := widen (treeLast s x.tree) 7 x
    some (ackContribution (s1.setCombine { c with
      parts := c.parts ++ [y], key := some (c.key.getD x.tag.key), seen := if own then x.lo :: c.seen else c.seen }) p x)

/-- The mailbox set that counts a result (R407). -/
def resultGroup (s : State) (t : Nat) (g : GroupId) : GroupId :=
  let w := s.treeWord t 6
  if bit w 63 then groupOf30 (bits w 62 33) else g

/-- The root writes a complete block once, counts it and keeps its exceptions (R407); the landed packet is dropped where its
key is not the owner tag (spec/15 R345). -/
def landResult (s : State) (c : Combine) (x : Tensor) : Option State :=
  let root := bits (s.treeWord c.tree 2) 10 0
  let o := bits (s.treeWord c.tree 3) 43 22 + 256 * c.block
  let w := max 1 (treeBytes s c.tree)
  let g := resultGroup s c.tree x.tag.group
  let k := s.core root
  let s0 := s.setCombine { c with parts := [], key := none, seen := [] }
  if k.owner != x.tag.key then
    let ga := localGlobal s.logical root o
    some (faultFrom s0 root x.tag.core 2 x.dom x.tag.task ⟨cOWNER, 0, ga⟩ ga)
  else if !mailRoom k g || engineConflict k (.folio 64 0) true [⟨0, o, 256⟩] then none
  else
    let r := if treeLast s c.tree == 0 then x.elems.map (loneElem s c.tree) else x.elems.map fun e => (e, 0)
    let bytes := (r.map (·.1)).flatMap fun e => (List.range w).map fun i => BitVec.ofNat 8 (e / 256 ^ i)
    let bad := (List.range 32).map fun i => (List.range (max 1 (8 / w))).any fun j => (x.poison.getD (8 * i / w + j) false)
    let s1 := s0.modCore root fun k => addMail (landStore k 0 o bytes bad) g x.tag.tag 32
    some { s1 with tree := tset s1.tree (8 * c.tree + 5) (s1.treeWord c.tree 5 ||| word (r.foldl (fun f e => f ||| e.2) x.fl).toNat) }

/-- A partial goes on towards the root (R406). -/
def forwardPartial (s : State) (c : Combine) (x : Tensor) : State :=
  let rest := c.parts.erase x
  let s1 := s.setCombine { c with parts := rest, seen := if rest.isEmpty then [] else c.seen, key := if rest.isEmpty then none else c.key }
  s1.send { directPacket s1 (s.ep treePort) (treeUp * 2048 + treePort) 0 0 0 (.tensor x) with
    ordered := false, key := x.tag.key, since := s.time, stage := .gateway }

/-- TENSOR_COMBINE: at a combining point two partials are combined, a contribution is taken in, a result lands at the root, or
a partial goes on (R406, R407). -/
def tensorCombine (s : State) (t b : Nat) : Option State :=
  let c := s.combine t b
  if 64 ≤ t || !bit (s.treeWord t 0) 63 || bits (s.treeWord t 0) 62 61 != 0 then none
  else match nextPair c.parts with
    | some (x, y) =>
      some (s.setCombine { c with parts := (c.parts.erase x).erase y ++ [widen (treeLast s t) 7 (combineTwo s x y)] })
    | none =>
      let mine (p : Packet) : Bool :=
        p.stage == .home && p.dst == s.ep treePort && (match p.body with | .tensor x => x.tree == t && x.block == b | _ => false)
      let taken : Option State := match s.net.find? mine with
        | some p => match p.body with
          | .tensor x => takePartial s c p x
          | _ => none
        | none => none
      match taken with
      | some s1 => some s1
      | none =>
        if bits (s.treeWord t 0) 60 56 == 31 then
          match c.parts.find? fun x => x.lo == 0 && treeLast s t < x.hi with
          | some x => landResult s c x
          | none => none
        else c.parts.head?.map (forwardPartial s c)

/-- LINK_PACKET_ARRIVE: a packet at a gateway goes on (R396). -/
def execLinkPacketArrive (port : Nat) (s : State) : Host.Outcome State Fault Refusal :=
  happens "LINK_PACKET_ARRIVE" (packetArrive s port)

/-- ADAPTIVE_FALLBACK: an adaptive packet takes the ordered route (R398). -/
def execAdaptiveFallback (pkt : Nat) (s : State) : Host.Outcome State Fault Refusal :=
  happens "ADAPTIVE_FALLBACK" (adaptiveFallback s pkt)

/-- RECEIPT_RECEIVE: a receipt returns (R401). -/
def execReceiptReceive (pkt : Nat) (s : State) : Host.Outcome State Fault Refusal :=
  happens "RECEIPT_RECEIVE" (receiptReceive s pkt)

/-- ABANDON_NOTICE: a send was abandoned (R402). -/
def execAbandonNotice (pkt : Nat) (s : State) : Host.Outcome State Fault Refusal :=
  happens "ABANDON_NOTICE" (abandonNotice s pkt)

/-- RETRY_TIMEOUT: a packet is sent again, or lost (R402). -/
def execRetryTimeout (port pid : Nat) (s : State) : Host.Outcome State Fault Refusal :=
  happens "RETRY_TIMEOUT" (retryTimeout s port pid)

/-- PID_RECORD_EXPIRE: a record of an accepted packet expires (R401). -/
def execPidRecordExpire (idx : Nat) (s : State) : Host.Outcome State Fault Refusal :=
  happens "PID_RECORD_EXPIRE" (pidExpire s idx)

/-- FORWARD_WINDOW_EXPIRE: the forwarding window ends (spec/20 R419). -/
def execForwardWindowExpire (k : Nat) (s : State) : Host.Outcome State Fault Refusal :=
  happens "FORWARD_WINDOW_EXPIRE" (windowExpire s k)

/-- HOME_QUERY: a home is asked for a lost reply (spec/20 R421). -/
def execHomeQuery (pkt : Nat) (s : State) : Host.Outcome State Fault Refusal :=
  happens "HOME_QUERY" (homeQuery s pkt)

/-- TENSOR_COMBINE: partials of a reduce tree are combined (R406). -/
def execTensorCombine (tree block : Nat) (s : State) : Host.Outcome State Fault Refusal :=
  happens "TENSOR_COMBINE" (tensorCombine s tree block)

end Sys2Proof.Machine
end

