-- ==== Sys2Proof/Machine/EvFront.lean ====
section
/-! DEFINITION. Front ends, tasks, spawns and messages to tasks (spec/08 R228-R236; spec/14 R302-R320, R445). -/

namespace Sys2Proof.Machine

/-! ### Headers (spec/14 R305, R306) -/

/-- The spill area of a header lies wholly in DRAM of this cube (R305, R306). -/
def spillOk (s : State) (w : Word) : Bool :=
  let lo := bits w 55 12 * 4096
  let hi := lo + bits w 63 56 * 4096 - 1
  bits w 63 56 != 0 && lo / 2 ^ 42 == s.logical && hi / 2 ^ 42 == s.logical && regionOf (lo % 2 ^ 42) == .dram &&
  regionOf (hi % 2 ^ 42) == .dram

/-- The first check of R306 that a packet fails, at a stream port or at a spawn front end. -/
def refusalCode (s : State) (ws : List Word) (spawned system : Bool) : Option Nat :=
  let w0 := ws.getD 0 0
  let w4 := ws.getD 4 0
  let sum := sumTo ws 5
  if bits w0 63 60 != (if spawned then 2 else 1) || bits w0 22 18 != 0 || bits (ws.getD 2 0) 63 42 != 0 ||
      bits (ws.getD 3 0) 63 32 != 0 || bits (ws.getD 5 0) 11 0 != 0 || bit w0 0 then some 1
  else if bits w0 59 56 == 15 && !system then some 2
  else if bits w0 55 40 == 0 then some 3
  else if (List.range 6).any (fun k => decide (64 < widthOf ws k)) || decide (64 < sum) ||
      decide (2 ^ sum ≤ (ws.getD 1 0).toNat) then some 4
  else if 5 < hdrPlace ws || 5 < hdrGang ws || 5 < hdrBarrier ws then some 5
  else if 2048 < groupSize ws (hdrPlace ws) || 65536 < groupSize ws (hdrGang ws) then some 6
  else if (bits (ws.getD 3 0) 31 0 == 0) != spawned then some 7
  else if !spillOk s (ws.getD 5 0) then some 8
  else if w4.toNat % 8 != 0 || bits w4 63 56 != 0 then some 9
  else none

/-! ### Taking a packet (R304, R306, R314) -/

/-- The front end can begin its next packet. -/
def nextPacket (s : State) (f : Nat) : Option FePacket :=
  let x := s.fe f
  if 64 ≤ f || x.state == 3 || x.cur.isSome then none else x.queue.head?

/-- The domain of a packet (R307, R445). -/
def packetDomain (s : State) (f : Nat) (p : FePacket) : Nat := if f < 56 then (s.fe f).domain else p.dom

/-- The packet is taken from the queue. -/
def takePacket (s : State) (f : Nat) : State := s.modFe f fun x => { x with queue := x.queue.drop 1 }

/-- A packet is refused (R306, R313): the code, the completion word, the fault message. -/
def refusePacket (s : State) (f code : Nat) (p : FePacket) : State :=
  let dom := packetDomain s f p
  let s1 := (takePacket s f).modFe f fun x => { x with code := code }
  if f < 56 then
    let s2 := feFault s1 f 4 code 0 dom 0 0 (p.words.headD 0)
    if code == 9 then s2 else refusalAdd s2 f dom p.words
  else unplaceable s1 f p.words dom code p.operand (code != 9)

/-- A packet is accepted (R306, R314, R315): an identifier and a record; none while the record's task has not exited. -/
def acceptPacket (s : State) (f : Nat) (p : FePacket) : Option State :=
  let x := s.fe f
  let id := f * 2 ^ 26 + x.serial
  let busy := match tget x.records (x.serial % 256) with | none => false | some r => r.state != 0
  if busy then none
  else
    let w5 := p.words.getD 5 0
    let r : TaskRec :=
      { state := 1, id := id, dom := packetDomain s f p, cplt := p.words.getD 4 0, spsize := bits w5 63 56,
        spbase := bits w5 55 12 }
    some ((takePacket s f).modFe f fun x =>
      { x with state := 1, lastid := id, serial := (x.serial + 1) % 2 ^ 26, cur := some p, work := .placing id 0 [],
               records := tset x.records (x.serial % 256) r })

/-- LAUNCH_HEADER and TASK_PACKET: the next packet of a front end is refused or accepted (R306). -/
def takeHeader (s : State) (f : Nat) (spawned : Bool) : Option State :=
  if (56 ≤ f) != spawned then none
  else match nextPacket s f with
    | none => none
    | some p =>
      let kind := bits (p.words.headD 0) 63 60
      if !spawned && (kind == 3 || kind == 4) then none
      else
        let s1 := feUse s (packetDomain s f p)
        match refusalCode s1 p.words spawned (feDom s1 (packetDomain s f p)).system with
        | some c => some (refusePacket s1 f c p)
        | none => acceptPacket s1 f p

/-! ### Placement (spec/08 R231-R236) -/

/-- The clusters in cyclic order from a pointer. -/
def clustersFrom (p : Nat) : List Nat := (List.range 32).map fun i => (p + i) % 32

/-- The clusters that a packet permits, in the order in which they are tried (R232, R235). -/
def permitted (x : FrontEnd) (p : FePacket) : List Nat :=
  match p.home with
  | some h => [clusterOf h]
  | none => (clustersFrom x.ptr).filter fun c => bit (p.words.getD 3 0) c

/-- Contexts for a whole gang are held by cluster (R234): each of its groups in the first cluster that has room beside those
chosen before, the pointer moving after each. -/
def planGang (s : State) (p : FePacket) : Nat → Nat → Nat → List Nat → Option (List Nat)
  | 0, _, _, chosen => some chosen
  | n + 1, i, ptr, chosen =>
    let size := sizeOf p.words i
    let full := groupSize p.words (hdrPlace p.words)
    let fits (c : Nat) : Bool :=
      let before := (chosen.filter (· == c)).length
      decide (size + before * full + reservedIn s c ≤ clusterFree s c) && decide (before < groupSlots s c (before + 1))
    match (permitted { ptr := ptr } p).find? fits with
    | none => none
    | some c => planGang s p n (i + 1) ((c + 1) % 32) (chosen ++ [c])

/-- Deal threads over the cores of a cluster (R233, R235): the core of each. `k` is the place in the cyclic order at which
the next thread looks for a core. -/
def dealCores (free : List (Nat × Nat)) : Nat → Nat → List Nat
  | 0, _ => []
  | n + 1, k =>
    match (List.range 32).find? fun j => 0 < (free.getD ((k + j) % 32) (0, 0)).2 with
    | none => []
    | some j =>
      let at' := (k + j) % 32
      let c := (free.getD at' (0, 0)).1
      c :: dealCores (free.set at' (c, (free.getD at' (0, 0)).2 - 1)) n (at' + 1)

/-- Deal a group over the free contexts of a cluster's cores (R233): thread 0 goes to the home where that has one (R235). -/
def dealFrom (free : List (Nat × Nat)) (size : Nat) (home : Option Nat) : List Nat :=
  let start := match home with
    | some h => if 0 < (free.getD (h % 32) (0, 0)).2 then h % 32 else 0
    | none => 0
  dealCores free size start

/-- The cores on which a group is placed in a cluster, thread 0 first, beside the contexts that waiting ferries take. A group whose
contexts were held before those ferries came has them all the same (R234). -/
def dealGroup (s : State) (c size : Nat) (home : Option Nat) (held : Bool) : List Nat :=
  let cores := dealFrom ((clusterCores c).map fun k => (k, freeFor s k)) size home
  if !held || cores.length == size then cores
  else dealFrom ((clusterCores c).map fun k =>
    (k, if (s.core k).stops.isEmpty && !(s.core k).sealed then freeSlots (s.core k) else 0)) size home

/-- The thread of a work identifier as a task places it (R307). -/
def newThread (s : State) (p : FePacket) (dom task : Nat) (g : GroupId) (wk : Nat) (gang : Bool) : Thread :=
  let ws := p.words
  { uid := s.nextId, pc := bits (ws.getD 0 0) 17 0,
    g := #v[ws.getD 6 0, ws.getD 7 0, p.operand, word task, 0, 0, 0, 0, 0, 0], wk := word wk, pw := 1,
    status := if gang then .gangHold else .ready, dom := dom, group := g, task := task }

/-- Place the threads of a group on their cores. -/
def placeThreads (p : FePacket) (dom task : Nat) (g : GroupId) (gang : Bool) : List Nat → Nat → State → State
  | [], _, s => s
  | c :: rest, wk, s =>
    let s1 := match freeSlot (s.core c) with
      | none => s
      | some slot => (seat s.bump c slot (newThread s p dom task g wk gang))
    placeThreads p dom task g gang rest (wk + 1) s1

/-- The release of a gang (R234): every held member of the task becomes ready. -/
def releaseGang (s : State) (task : Nat) : State :=
  { s with
    groups := s.groups.map fun g => if g.2.task == task then (g.1, { g.2 with opened := true }) else g
    cores := s.cores.map fun c => (c.1, { c.2 with threads := c.2.threads.map fun t =>
      if t.2.task == task && t.2.status == .gangHold then (t.1, { t.2 with status := .ready }) else t }) }

/-- The first thread of a task is placed (R315, R317): the record runs, and held and spilled messages are delivered in
order. -/
def startRecord (s : State) (task placed : Nat) : State :=
  match s.taskRec task with
  | none => s
  | some r =>
    let s1 := s.setTaskRec { r with live := r.live + placed }
    if r.state == 1 then startReplay s1 task else s1

/-- A task has completed (R311, R320): its record is exited, its messages are discarded, its completion word is
incremented. -/
def completeTask (s : State) (r : TaskRec) : State :=
  let queued := s.cores.flatMap fun c => (tgetD c.2.recvq r.id {}).msgs
  let s1 := s.setTaskRec { r with state := 0, held := [], spill := [], spilling := [], replaying := false }
  let s2 := { s1 with cores := s1.cores.map fun c => (c.1, { c.2 with recvq := tdel c.2.recvq r.id }) }
  let s3 := (r.held ++ r.spill.map (·.2) ++ queued).foldl (fun s m => notify s m.ep m false true) s2
  replayAll (addCompletion s3 (taskFront r.id) (some r.id) r.dom r.cplt 1)

/-- Complete a task all of whose threads have been placed and have been reported (R311). -/
def checkDone (s : State) (task : Nat) : State :=
  match s.taskRec task with
  | none => s
  | some r => if r.placed && r.live == 0 && r.state != 0 then completeTask s r else s

/-- The last group has been placed: the packet is finished (R304). -/
def allPlaced (s : State) (f task : Nat) : State :=
  let s1 := s.modFe f FrontEnd.finish
  match s1.taskRec task with
  | none => s1
  | some r => checkDone (s1.setTaskRec { r with placed := true }) task

/-- Place group i of a front end's task in a cluster (R232-R235). -/
def placeIn (s : State) (f task i c : Nat) (plan : List Nat) (p : FePacket) : Option State :=
  let ws := p.words
  let size := sizeOf ws i
  let gang := decide (hdrPlace ws < hdrGang ws)
  let cores := dealGroup s c size p.home gang
  match freeGroup s c with
  | none => none
  | some slot =>
    if cores.length < size || cores.any (ferryFirst s) then none
    else
      let g := slotGroup s c slot
      let e : Group :=
        { level := bits (ws.getD 0 0) 59 56, tickets := bits (ws.getD 0 0) 55 40, place := hdrPlace ws, gangLv := hdrGang ws,
          barrier := hdrBarrier ws, base := bits (ws.getD 0 0) 30 23, task := task, live := size, opened := !gang }
      let dom := packetDomain s f p
      let s1 := { s with groups := tset s.groups (groupKey g) e }
      let s2 := placeThreads p dom task g gang cores (i * 2 ^ sumTo ws (hdrPlace ws)) s1
      let s3 := (startRecord s2 task size).modFe f fun x =>
        { x with ptr := if p.home.isNone then (c + 1) % 32 else x.ptr, work := .placing task (i + 1) plan }
      let s4 := if gang && plan.isEmpty then releaseGang s3 task else s3
      some (if groupCount ws ≤ i + 1 then allPlaced s4 f task else s4)

/-- GROUP_PLACE: the next group of a front end's task (R231-R235). A gang's contexts are held before its first group is
placed (R234). -/
def groupPlace (s : State) (f : Nat) : Option State :=
  let x := s.fe f
  match x.work, x.cur with
  | .placing task i plan, some p =>
    let ws := p.words
    match plan with
    | c :: rest => placeIn s f task i c rest p
    | [] =>
      if hdrPlace ws < hdrGang ws then
        let n := min (perGang ws) (groupCount ws - i)
        match planGang s p n i x.ptr [] with
        | none => none
        | some chosen => some (s.setFe f { x with work := .placing task i chosen })
      else
        let size := sizeOf ws i
        let fits (c : Nat) : Bool := decide (size + reservedIn s c ≤ clusterFree s c) && (freeGroup s c).isSome
        match (permitted x p).find? fits with
        | none => none
        | some c => placeIn s f task i c [] p
  | _, _ => none

/-- EXIT_REPORT: a thread's exit reaches its front end (R311), and its group loses a thread (R236). -/
def exitReported (s : State) (id : Nat) : Option State :=
  match arriving s id with
  | none => none
  | some p =>
    match p.body with
    | .exitReport task g =>
      let s1 := s.dropPacket id
      let s2 := match tget s1.groups (groupKey g) with
        | none => s1
        | some e => { s1 with groups := tset s1.groups (groupKey g) { e with live := e.live - 1 } }
      match s2.taskRec task with
      | none => some s2
      | some r => some (checkDone (s2.setTaskRec { r with live := r.live - 1 }) task)
    | _ => none

/-! ### Semaphores (R308-R310) -/

/-- A semaphore packet with a reserved field (R308; log 41). -/
def semaphoreBad (ws : List Word) : Bool :=
  let w0 := ws.getD 0 0
  bits w0 59 58 == 3 || (bits w0 63 60 == 4 && bits w0 59 58 == 2) || bits w0 56 36 != 0 || bits w0 15 0 != 0 ||
  (ws.drop 3).any (· != 0)

/-- The next packet of a stream is a semaphore packet of a kind. -/
def nextSemaphore (s : State) (f kind : Nat) : Option FePacket :=
  match nextPacket s f with
  | none => none
  | some p => if f < 56 && bits (p.words.headD 0) 63 60 == kind then some p else none

/-- Read the semaphore word of the packet in progress (R309). -/
def readSemaphore (s : State) (f start : Nat) (p : FePacket) : State :=
  let dom := (s.fe f).domain
  let a := p.words.getD 1 0
  match feAddrErr a with
  | some t => stopStream s f 0x11 t.xaddr
  | none =>
    let id := s.nextId
    let s1 := feUse s dom
    (s1.send { addressed s1 1024 0 0 0 true a dom (feDom s1 dom).priv (.request (feAccess .ld 0)) with
      src := frontEp s.logical f }).modFe f fun x => { x with work := .semaphore start s.time (some id) }

/-- SEMAPHORE_WAIT: a stream takes a semaphore wait and reads its word at once (R309). -/
def semaphoreWait (s : State) (f : Nat) : Option State :=
  match nextSemaphore s f 3 with
  | none => none
  | some p =>
    let s1 := takePacket s f
    if semaphoreBad p.words then some (stopStream s1 f 1 0)
    else
      let s2 := s1.modFe f fun x => { x with state := 2, cur := some p, work := .semaphore s.time s.time none }
      some (readSemaphore s2 f s.time p)

/-- SEMAPHORE_POLL: the word is read again, 256 cycles after the last read (R309). -/
def semaphorePoll (s : State) (f : Nat) : Option State :=
  let x := s.fe f
  match x.work, x.cur with
  | .semaphore start last none, some p => if last + 256 ≤ s.time then some (readSemaphore s f start p) else none
  | _, _ => none

/-- SEMAPHORE_TIMEOUT: the limit of a semaphore wait has passed (R309). -/
def semaphoreTimeout (s : State) (f : Nat) : Option State :=
  let x := s.fe f
  match x.work, x.cur with
  | .semaphore start _ _, some p =>
    let limit := bits (p.words.headD 0) 35 16
    if limit != 0 && start + 1024 * limit ≤ s.time then some (stopStream s f 0x10 (p.words.getD 1 0)) else none
  | _, _ => none

/-- Every task of a stream has completed, and its completion words have been acknowledged (R310). -/
def streamQuiet (x : FrontEnd) : Bool := x.records.all (fun r => r.2.state == 0) && x.adds.all fun a => a.2.1.isNone

/-- Send the access of a signal (R310). -/
def sendSignal (s : State) (f : Nat) (p : FePacket) : State :=
  let dom := (s.fe f).domain
  let w0 := p.words.headD 0
  let a := p.words.getD 1 0
  match feAddrErr a with
  | some t => stopStream s f 0x11 t.xaddr
  | none =>
    let id := s.nextId
    (feSend s f dom a (feAccess (if bits w0 59 58 == 0 then .st else .aadd) (p.words.getD 2 0))).modFe f fun x =>
      { x with work := .signal (some id) }

/-- SEMAPHORE_SIGNAL: a stream takes a semaphore signal; the access is sent once nothing holds it back (R310). -/
def semaphoreSignal (s : State) (f : Nat) : Option State :=
  let x := s.fe f
  match x.work, x.cur with
  | .signal none, some p => if streamQuiet x then some (sendSignal s f p) else none
  | _, _ =>
    match nextSemaphore s f 4 with
    | none => none
    | some p =>
      let s1 := takePacket s f
      if semaphoreBad p.words then some (stopStream s1 f 1 0)
      else
        let s2 := s1.modFe f fun x => { x with cur := some p, work := .signal none }
        some (if bit (p.words.headD 0) 57 && !streamQuiet x then s2 else sendSignal s2 f p)

/-! ### Ports, records, spawns, messages (R302, R303, R313, R315, R317) -/

/-- STREAM_PORT_WRITE: a store of a writer to a stream port (R303). -/
def streamWrite (s : State) (writer front off : Nat) (w : Word) : Option State :=
  if 0x40 ≤ off || off % 8 != 0 || 64 ≤ front then none
  else match portStore s front writer off w with
    | .ok s1 => some s1
    | .later s1 => some s1
    | _ => none

/-- SPAWN_ARRIVE: a spawn's packet has found its home (R313): it joins the queue of a spawn front end, or is unplaceable. -/
def spawnArrive (s : State) (id : Nat) : Option State :=
  match arriving s id with
  | none => none
  | some p =>
    match p.body with
    | .spawn ws operand home =>
      let c := epCore p.dst
      let atCore := decide (c < 1028)
      if atCore && !handledAt s c p then none
      else
        let h := home.getD c
        let s1 := (s.dropPacket id)
        let stored := match regionOf (eaOff p.addr) with | .lstore _ _ => true | _ => false
        let bad := decide (1024 ≤ h) || (home.isNone && !stored)
        if bad then some (unplaceable (s1.tick) 56 ws p.dom (bits (Config.freeWord s.freeCtr) 7 0) operand true)
        else
          let f := 56 + clusterOf h % 8
          let x := s1.fe f
          if 32 ≤ x.queue.length then none
          else
            let q : FePacket := { words := ws, dom := p.dom, src := p.src, operand := operand, home := some h }
            let s2 := s1.setFe f { x with queue := x.queue ++ [q] }
            some (if atCore then s2.countPacket p c else s2)
    | _ => none

/-- MESSAGE_DELIVER: a message of SEND, or a fault message, meets the fate its task's record gives it (R317, spec/15 R331).
-/
def messageDeliver (s : State) (id : Nat) : Option State :=
  match arriving s id with
  | none => none
  | some p =>
    let c := epCore p.dst
    match p.body with
    | .message task ws g urg again =>
      if 1028 ≤ c || !handledAt s c p then none
      else
        let s1 := s.dropPacket id
        let m := messageOf p ws g urg (again.getD 0)
        some (if again.isSome then deliver s1 task m false else acknowledge (deliver (s1.countPacket p c) task m true) p none)
    | .faultMsg ws ep task =>
      let s1 := s.dropPacket id
      if task == firmwareTask then some { s1 with faultLog := s1.faultLog ++ [(epCore ep, ws)] }
      else
        let m := messageOf p ws none false 0
        some (if c < 1028 then deliver s1 task m true else deadLetter s1 m true)
    | _ => none

/-- STREAM_PORT_WRITE: a store to a stream port (R303). -/
def execStreamPortWrite (writer front off : Nat) (w : Word) (s : State) : Host.Outcome State Fault Refusal :=
  happens "STREAM_PORT_WRITE" (streamWrite s writer front off w)

/-- STREAM_PACKET_ENTER: a held packet enters the stream queue (R303). -/
def execStreamPacketEnter (front : Nat) (s : State) : Host.Outcome State Fault Refusal :=
  happens "STREAM_PACKET_ENTER" (enterHeld s front)

/-- FE_GO: a stopped front end goes on (R302). -/
def execFeGo (front : Nat) (s : State) : Host.Outcome State Fault Refusal :=
  happens "FE_GO" (if (s.fe front).state == 3 then some (leaveStop s front) else none)

/-- LAUNCH_HEADER: a launch header is refused or accepted (R306). -/
def execLaunchHeader (front : Nat) (s : State) : Host.Outcome State Fault Refusal :=
  happens "LAUNCH_HEADER" (takeHeader s front false)

/-- TASK_PACKET: a task packet is refused or accepted (R306). -/
def execTaskPacket (front : Nat) (s : State) : Host.Outcome State Fault Refusal :=
  happens "TASK_PACKET" (takeHeader s front true)

/-- SEMAPHORE_WAIT: a semaphore wait begins (R309). -/
def execSemaphoreWait (front : Nat) (s : State) : Host.Outcome State Fault Refusal :=
  happens "SEMAPHORE_WAIT" (semaphoreWait s front)

/-- SEMAPHORE_POLL: the semaphore word is read again (R309). -/
def execSemaphorePoll (front : Nat) (s : State) : Host.Outcome State Fault Refusal :=
  happens "SEMAPHORE_POLL" (semaphorePoll s front)

/-- SEMAPHORE_TIMEOUT: a semaphore wait exceeds its limit (R309). -/
def execSemaphoreTimeout (front : Nat) (s : State) : Host.Outcome State Fault Refusal :=
  happens "SEMAPHORE_TIMEOUT" (semaphoreTimeout s front)

/-- SEMAPHORE_SIGNAL: a semaphore signal is taken or sent (R310). -/
def execSemaphoreSignal (front : Nat) (s : State) : Host.Outcome State Fault Refusal :=
  happens "SEMAPHORE_SIGNAL" (semaphoreSignal s front)

/-- GROUP_PLACE: a group is placed in a cluster (R232). -/
def execGroupPlace (front : Nat) (s : State) : Host.Outcome State Fault Refusal :=
  happens "GROUP_PLACE" (groupPlace s front)

/-- EXIT_REPORT: an exit report reaches the front end (R311). -/
def execExitReport (pkt : Nat) (s : State) : Host.Outcome State Fault Refusal :=
  happens "EXIT_REPORT" (exitReported s pkt)

/-- TASK_RECORD_STATE: a store to a task record (R315). -/
def execTaskRecordState (front slot : Nat) (w : Word) (s : State) : Host.Outcome State Fault Refusal :=
  happens "TASK_RECORD_STATE" (if front < 64 && slot < 256 then some (recordStore s front slot w) else none)

/-- SPAWN_ARRIVE: a spawn reaches a spawn front end (R313). -/
def execSpawnArrive (pkt : Nat) (s : State) : Host.Outcome State Fault Refusal :=
  happens "SPAWN_ARRIVE" (spawnArrive s pkt)

/-- MESSAGE_DELIVER: a message to a task is delivered (R317). -/
def execMessageDeliver (pkt : Nat) (s : State) : Host.Outcome State Fault Refusal :=
  happens "MESSAGE_DELIVER" (messageDeliver s pkt)

end Sys2Proof.Machine
end

