-- ==== Sys2Proof/Machine/EvLink.lean ====
section
/-! DEFINITION. Nerven ports (spec/19 R379-R392). -/

namespace Sys2Proof.Machine

/-! ### Flits (R382-R384) -/

/-- A flit header (R382). -/
def flitHdr (ftype ucls seq ackb ackm : Nat) (kph : Bool) (lead : Nat) : BitVec 64 :=
  word (ftype * 2 ^ 62 + ucls * 2 ^ 60 + seq * 2 ^ 48 + ackb * 2 ^ 36 + ackm * 2 ^ 20 + flagBit kph 19 + lead * 2 ^ 14)

/-- Which of the sixteen flits after the one expected are held (R389). -/
def ackMask (x : Port) : Nat :=
  ((List.range 16).map fun i => flagBit (x.held.any fun h => h.seq == (x.expect + 1 + i) % 4096) i).foldl (· + ·) 0

/-- Bytes of words, each little-endian (log 45). -/
def wordsBytes (ws : List Word) : List Byte := ws.flatMap fun w => (List.range 8).map fun i => BitVec.ofNat 8 (w.toNat / 256 ^ i)

/-- A word of bytes. -/
def bytesWord (bs : List Byte) : Word := word (byteListNum (bs.take 8))

/-- The words of bytes. -/
def bytesWords (bs : List Byte) : List Word := (List.range (bs.length / 8)).map fun i => bytesWord (bs.drop (8 * i))

/-- The bytes of a link packet on the wire (R383). -/
def linkBytes (l : LinkPkt) : List Byte := wordsBytes (l.h0 :: l.h1 :: l.payload)

/-- A body of 240 bytes. -/
def padBody (bs : List Byte) : List Byte := (bs ++ List.replicate 240 0).take 240

/-- Blocks of 16 bytes, read most significant byte first, as GCM reads them. -/
def gcmBlocks (bs : List Byte) : List Nat :=
  (List.range (bs.length / 16)).map fun i => ((bs.drop (16 * i)).take 16).foldl (fun n b => 256 * n + b.toNat) 0

/-- The bytes of such blocks. -/
def gcmBytes (ns : List Nat) : List Byte :=
  ns.flatMap fun n => (List.range 16).map fun i => BitVec.ofNat 8 (n / 256 ^ (15 - i))

/-- The nonce of a slot (R390). -/
def flitNonce (cube port ctr : Nat) : Nat := cube * 2 ^ 82 + port * 2 ^ 78 + ctr

/-- Protect or open a body under a key (R390): the other text and the tag of 64 bits (log 45). -/
def flitGcm (dec : Bool) (key : BitVec 128) (nonce : Nat) (hdr : BitVec 64) (body : List Byte) : List Byte × BitVec 64 :=
  let aad := (wordsBytes [hdr]).foldl (fun n b => 256 * n + b.toNat) 0 * 2 ^ 64
  let r := gcm dec key.toNat nonce [aad] (gcmBlocks body) 64 1920
  (gcmBytes r.1, BitVec.ofNat 64 (r.2 / 2 ^ 64))

/-! ### Sending (R385-R388, R390-R392) -/

/-- Take packets of a class off a queue to fill the rest of a body: the bytes, the bytes of the last packet that do not
fit, and the packets begun (R383). -/
def fillBody (cls : Nat) : Nat → Nat → List LinkPkt → List Byte × List Byte × List LinkPkt
  | 0, _, _ => ([], [], [])
  | fuel + 1, room, q =>
    if room < 16 then ([], [], [])
    else match q.find? fun l => l.ucls == cls with
      | none => ([], [], [])
      | some l =>
        let bs := linkBytes l
        if bs.length ≤ room then
          let r := fillBody cls fuel (room - bs.length) (q.erase l)
          (bs ++ r.1, r.2.1, l :: r.2.2)
        else (bs.take room, bs.drop room, [l])

/-- Data of a class is ready. -/
def classReady (x : Port) (cls : Nat) : Bool := !(tgetD x.rest cls []).isEmpty || x.outq.any fun l => l.ucls == cls

/-- New data of a class can be sent (R387, R388). -/
def canSend (x : Port) (cls : Nat) : Bool := classReady x cls && 0 < x.creditOf cls && x.replay.length < 512

/-- The runs of R386 after a data flit of a class. -/
def countRuns (x : Port) (cls : Nat) : Port :=
  { x with runBulk := if cls != 0 && classReady x 0 then x.runBulk + 1 else 0,
           runSys := if cls == 2 && classReady x 1 then x.runSys + 1 else 0 }

/-- A new data flit of a class: its number, lead and body, and the port after it (R383, R385, R387, R388). -/
def newFlit (x : Port) (cls now : Nat) : SentFlit × Port :=
  let open' := tgetD x.rest cls []
  let lead := open'.take 240
  let r := if open'.length ≤ 240 then fillBody cls 16 (240 - lead.length) x.outq else ([], [], [])
  let f : SentFlit := ⟨x.seq, cls, lead.length / 8, padBody (lead ++ r.1), now⟩
  let left := if open'.length ≤ 240 then r.2.1 else open'.drop 240
  let old := (x.flying.reverse.find? fun l => l.1.ucls == cls).map (·.1)
  let going := x.flying.map fun l => if !open'.isEmpty && some l.1 == old then (l.1, l.2 ++ [x.seq]) else l
  (f, { x with
    rest := tset x.rest cls left, outq := r.2.2.foldl List.erase x.outq,
    flying := going ++ r.2.2.map fun l => (l, [x.seq]),
    seq := (x.seq + 1) % 4096, replay := x.replay ++ [f], credit := tset x.credit cls (x.creditOf cls - 1) })

/-- The class that sends next (R386, R410). -/
def nextClass (x : Port) : Option Nat :=
  if canSend x 2 && (tgetD x.rest 2 []).isEmpty && ((x.outq.find? fun l => l.ucls == 2).map LinkPkt.ahead) == some true then some 2
  else if 32 ≤ x.runBulk && canSend x 0 then some 0
  else if 32 ≤ x.runSys && canSend x 1 then some 1
  else [2, 1, 0].find? (canSend x)

/-- The credit entry for flits freed (R384, R387). -/
def creditEntry (x : Port) : List (Word × Word) :=
  let n (c : Nat) : Nat := min 255 (tgetD x.freed c 0)
  if n 0 + n 1 + n 2 == 0 then [] else [(word (2 * 2 ^ 56 + n 0 * 2 ^ 40 + n 1 * 2 ^ 32 + n 2 * 2 ^ 24), 0)]

/-- What a slot carries: type, data flit, body; and the port after it (R386). -/
def chooseSlot (x : Port) (now : Nat) : Nat × Option SentFlit × List Byte × Port :=
  let halt := (nextClass x == some 2) && ((x.outq.find? fun l => l.ucls == 2).map LinkPkt.ahead) == some true
  let send (cls : Nat) : Nat × Option SentFlit × List Byte × Port :=
    let r := newFlit x cls now
    (0, some r.1, r.1.body, countRuns r.2 cls)
  let control : Nat × Option SentFlit × List Byte × Port :=
    let es := x.ctl ++ creditEntry x
    if es.isEmpty then (2, none, padBody [], x)
    else
      let now' := es.take 15
      (1, none, padBody (wordsBytes (now'.flatMap fun e => [e.1, e.2])),
        { x with ctl := es.drop 15, freed := x.freed.map fun e => (e.1, e.2 - min 255 e.2) })
  if x.state != 3 then control
  else
    match (if halt then none else (x.resend.findSome? fun q => x.replay.find? fun f => f.seq == q)) with
    | some f =>
      (0, some f, f.body, countRuns { x with
        resend := x.resend.filter (· != f.seq), nres := min (x.nres + 1) (2 ^ 32 - 1),
        replay := x.replay.map fun g => if g.seq == f.seq then { g with sent := now } else g } f.ucls)
    | none =>
      match nextClass x with
      | some cls => send cls
      | none => control

/-- The sender switches to its staged key (R391). -/
def switchTx (s : State) (p : Nat) : State :=
  let x := s.port p
  let s1 := s.setPort p { x with
    txkey := x.txnew, txkph := !x.txkph, txctr := 0, txst := false, prst := false, warn := false, txfirst := true,
    spent := false }
  if x.state == 4 || (x.state == 2 && x.rxfirst) then portTo s1 p 3 else s1

/-- Put a flit on the line and count the slot (R390, R392). -/
def emit (s : State) (p : Nat) (ftype : Nat) (f : Option SentFlit) (body : List Byte) : State :=
  let x := s.port p
  let h := flitHdr ftype ((f.map (·.ucls)).getD 0) ((f.map (·.seq)).getD 0) x.expect (ackMask x) x.txkph ((f.map (·.lead)).getD 0)
  let r := if x.txfirst then flitGcm false x.txkey (flitNonce s.physical p x.txctr) h body else (body, Config.freeWord s.freeCtr)
  let last := x.txctr == 2 ^ 48 - 1
  let s1 := s.tick.setPort p { x with
    out := some ⟨h, r.1, r.2, true⟩, txctr := if last then x.txctr else x.txctr + 1, spent := x.spent || last,
    warn := x.warn || x.txctr + 1 == 2 ^ 48 - 2 ^ 16 }
  if x.txctr + 1 == 2 ^ 48 - 2 ^ 16 then linkEvent s1 2 (word p) 0 else s1

/-- FLIT_SLOT_TRANSMIT: a port sends a slot (R386, R390-R392). -/
def transmitSlot (s : State) (p : Nat) : Option State :=
  let x := s.port p
  let go := x.txst && x.prst
  if 16 ≤ p || (x.spent && !go) || (x.state != 2 && x.state != 3 && !(x.state == 4 && go)) then none
  else
    let s1 := if go then switchTx s p else s
    let y := s1.port p
    if y.txctr == 2 ^ 48 - 1 then
      some (portTo (emit s1 p 1 none (padBody (wordsBytes [word (4 * 2 ^ 56), 0]))) p 4)
    else
      let r := chooseSlot y s1.time
      some (emit (s1.setPort p r.2.2.2) p r.1 r.2.1 r.2.2.1)

/-! ### Receiving (R384, R385, R387-R391) -/

/-- Modular distance of sequence numbers. -/
def seqAfter (a b : Nat) : Nat := (a + 4096 - b) % 4096

/-- Flits that a header acknowledges leave the replay buffer (R388). -/
def acknowledged (x : Port) (ackb ackm : Nat) : Port :=
  let acked (q : Nat) : Bool :=
    let d := seqAfter ackb q
    (1 ≤ d && d < 2048) || (let e := seqAfter q ackb; 1 ≤ e && e ≤ 16 && ackm / 2 ^ (e - 1) % 2 == 1)
  let done := (x.replay.filter fun f => acked f.seq).map (·.seq)
  let fl := x.flying.map fun l => (l.1, l.2.filter fun q => !done.contains q)
  let lastOpen (l : LinkPkt) : Bool :=
    !(tgetD x.rest l.ucls []).isEmpty && ((x.flying.reverse.find? fun e => e.1.ucls == l.ucls).map (·.1)) == some l
  { x with replay := x.replay.filter (fun f => !acked f.seq), resend := x.resend.filter (fun q => !done.contains q),
           flying := fl.filter fun l => !l.2.isEmpty || lastOpen l.1 }

/-- Whole packets at the start of bytes, and what is left of an open one (R383, R385). -/
def cutPackets (cls now : Nat) : Nat → List Byte → List LinkPkt × List Byte
  | 0, _ => ([], [])
  | fuel + 1, bs =>
    let h0 := bytesWord bs
    let h1 := bytesWord (bs.drop 8)
    let total := 16 + 8 * bits h1 24 16
    if bs.length < 16 || h0 == 0 then ([], [])
    else if total ≤ bs.length then
      let r := cutPackets cls now fuel (bs.drop total)
      (⟨h0, h1, bytesWords ((bs.take total).drop 16), cls, now⟩ :: r.1, r.2)
    else ([], bs)

/-- A data flit goes to reassembly (R385, R389). -/
def reassemble (x : Port) (f : SentFlit) (now : Nat) : Port :=
  let begun := tgetD x.reasm f.ucls [] ++ f.body.take (8 * f.lead)
  let first : List LinkPkt × List Byte := if begun.isEmpty then ([], []) else cutPackets f.ucls now 1 begun
  let rest := f.body.drop (8 * f.lead)
  let more : List LinkPkt × List Byte := if first.2.isEmpty then cutPackets f.ucls now 16 rest else ([], first.2)
  { x with inq := x.inq ++ first.1 ++ more.1, reasm := tset x.reasm f.ucls more.2,
           freed := tset x.freed f.ucls (tgetD x.freed f.ucls 0 + 1), expect := (x.expect + 1) % 4096 }

/-- Deliver flits that are now in sequence (R389). -/
def deliverHeld : Nat → Nat → Port → Port
  | 0, _, x => x
  | fuel + 1, now, x =>
    match x.held.find? fun h => h.seq == x.expect with
    | none => x
    | some h => deliverHeld fuel now (reassemble { x with held := x.held.erase h } h now)

/-- The NAK entries for the gaps before the highest flit held (R384, R389). -/
def nakEntries (x : Port) : List (Word × Word) :=
  let span := (x.held.map fun h => seqAfter h.seq x.expect).foldl max 0
  (List.range ((span + 63) / 64)).map fun j =>
    let base := (x.expect + 64 * j) % 4096
    let miss (i : Nat) : Bool := 64 * j + i < span && !(x.held.any fun h => h.seq == (base + i) % 4096)
    (word (2 ^ 56 + base * 2 ^ 44), word (((List.range 64).map fun i => flagBit (miss i) i).foldl (· + ·) 0))

/-- A verified data flit (R389). -/
def takeData (x : Port) (f : SentFlit) (now : Nat) : Port :=
  if f.seq == x.expect then
    let y := deliverHeld 512 now (reassemble x f now)
    if y.held.isEmpty then { y with nakAt := none } else y
  else
    let d := seqAfter f.seq x.expect
    if d ≤ 512 && !(x.held.any fun h => h.seq == f.seq) then
      let y := { x with held := x.held ++ [f] }
      { y with ctl := y.ctl ++ nakEntries y, nakAt := some now }
    else x

/-- One entry of a control flit (R384). -/
def takeEntry (x : Port) (e : Word × Word) : Port :=
  match bits e.1 63 56 with
  | 1 =>
    let named := ((List.range 64).filter fun i => bit e.2 i).map fun i => (bits e.1 55 44 + i) % 4096
    { x with resend := x.resend ++ named.filter fun q => (x.replay.any fun f => f.seq == q) && !x.resend.contains q }
  | 2 =>
    let add (c n : Nat) (t : Tab Nat) : Tab Nat := tset t c (tgetD t c 0 + n)
    { x with credit := add 0 (bits e.1 47 40) (add 1 (bits e.1 39 32) (add 2 (bits e.1 31 24) x.credit)) }
  | 3 => { x with prst := true }
  | 4 => { x with needs := true }
  | _ => x

/-- The entries of a control body, up to one of type 0 (R384). -/
def controlEntries (body : List Byte) : List (Word × Word) :=
  ((List.range 15).map fun i => (bytesWord (body.drop (16 * i)), bytesWord (body.drop (16 * i + 8)))).takeWhile
    fun e => bits e.1 63 56 != 0

/-- A flit is discarded and counted (R382); sixteen in a row retrain the port (R381). -/
def discardFlit (s : State) (p : Nat) : State :=
  let x := s.port p
  let s1 := s.setPort p { x with nbad := min (x.nbad + 1) (2 ^ 32 - 1), bad := x.bad + 1 }
  if 16 ≤ x.bad + 1 then startTraining s1 p else s1

/-- A header that makes a verified flit bad (R382). -/
def badHeader (h : BitVec 64) : Bool :=
  bits h 63 62 == 3 || bits h 61 60 == 3 || 30 < bits h 18 14 || bits h 13 0 != 0 ||
  (bits h 63 62 != 0 && (bits h 61 60 != 0 || bits h 59 48 != 0 || bits h 18 14 != 0))

/-- The body of a flit that verifies, with the port after a switch of the receive key (R390, R391): counters that the first
flit under a staged key may have are those of the slots that failed before it, or the one announced in training. -/
def openFlit (x : Port) (f : Flit) (ctr : Nat) : Option (List Byte × Port) :=
  let kph := bit f.hdr 19
  let check (key : BitVec 128) (c : Nat) : Option (List Byte) :=
    let h := flitGcm true key (flitNonce x.peer x.pport c) f.hdr f.body
    if h.2 == f.tag then some h.1 else none
  if kph == x.rxkph then
    if x.rxfirst then (check x.rxkey ctr).map fun b => (b, x) else some (f.body, x)
  else if x.rxst then
    (List.range (x.bad + 1) ++ [ctr]).findSome? fun c => (check x.rxnew c).map fun b =>
      (b, { x with rxkey := x.rxnew, rxkph := kph, rxst := false, rxfirst := true, rxctr := c + 1 })
  else none

/-- FLIT_RECEIVE: a slot is received (R382-R391). -/
def receiveFlit (s : State) (p : Nat) (f : Flit) : Option State :=
  let x := s.port p
  if 16 ≤ p || x.state < 2 || x.state == 5 || f.body.length != 240 then none
  else
    let ctr := x.rxctr
    let s0 := s.setPort p { x with rxctr := (x.rxctr + 1) % 2 ^ 48 }
    if !f.fec then some (discardFlit s0 p)
    else match openFlit (s0.port p) f ctr with
      | none => some (discardFlit s0 p)
      | some (body, y) =>
        if badHeader f.hdr then some (discardFlit (s0.setPort p y) p)
        else
          let z := acknowledged { y with bad := 0, needs := false } (bits f.hdr 47 36) (bits f.hdr 35 20)
          let z1 := match bits f.hdr 63 62 with
            | 0 =>
              if z.rxfirst then takeData z ⟨bits f.hdr 59 48, bits f.hdr 61 60, bits f.hdr 18 14, body, 0⟩ s.time else z
            | 1 => (controlEntries body).foldl takeEntry z
            | _ => z
          let s1 := s0.setPort p z1
          some (if z1.state == 2 && z1.rxfirst && z1.txfirst then portTo s1 p 3 else s1)

/-! ### Training, failure, timers (R379, R381, R388, R389) -/

/-- TRAINING_COMPLETE: the ends have exchanged their numbers (R381): keyless, or up again where both directions have keys, or
sealed again where the transmit counter is spent (R392);
unacknowledged flits are sent again. -/
def trainingComplete (s : State) (p : Nat) (peer : TrainInfo) : Option State :=
  let x := s.port p
  if 16 ≤ p || x.state != 1 || (peer.lanes != 4 && peer.lanes != 8) then none
  else
    let y := { x with
      state := 2, lanes := if x.four then 4 else peer.lanes, peer := peer.cube, pport := peer.port, pcls := peer.pcls,
      rxctr := peer.counter.toNat, resend := x.replay.map (·.seq), bad := 0 }
    let s1 := s.setPort p y
    some (if y.rxfirst && y.txfirst then portTo s1 p (if y.spent then 4 else 3) else s1)

/-- PORT_FAIL: training has not completed after three attempts or within 1 ms (R381). -/
def trainingFails (s : State) (p : Nat) : Option State :=
  let x := s.port p
  if x.state == 1 && (3 ≤ x.tries || x.began + 3000000 ≤ s.time) then some (failPort s p) else none

/-- LINK_LOSS: a port loses lane lock and retrains, or an attempt at training fails (R381). -/
def linkLoss (s : State) (p : Nat) : Option State :=
  let x := s.port p
  if 16 ≤ p || x.state == 0 || x.state == 5 then none
  else if x.state == 1 then some (s.setPort p { x with tries := x.tries + 1 })
  else some (startTraining s p)

/-- PORT_ENABLE: en is written on a down port (R381). -/
def portEnable (s : State) (p : Nat) : Option State :=
  let x := s.port p
  if p < 16 && x.state == 0 then some (startTraining (s.setPort p { x with en := true }) p) else none

/-- NAK_TIMER: a gap has lasted 1,024 cycles since the last NAK (R389). -/
def nakTimer (s : State) (p : Nat) : Option State :=
  let x := s.port p
  match x.nakAt with
  | none => none
  | some t =>
    if x.held.isEmpty || s.time < t + 1024 then none
    else some (s.setPort p { x with ctl := x.ctl ++ nakEntries x, nakAt := some s.time })

/-- REPLAY_TIMEOUT: a flit has gone unacknowledged for 2,048 cycles (R388). -/
def replayTimeout (s : State) (p seq : Nat) : Option State :=
  let x := s.port p
  match x.replay.find? fun f => f.seq == seq with
  | none => none
  | some f =>
    if x.needs || x.resend.contains seq || s.time < f.sent + 2048 then none
    else some (s.setPort p { x with resend := x.resend ++ [seq] })

/-- PORT_ENABLE: a port is enabled (R381). -/
def execPortEnable (port : Nat) (s : State) : Host.Outcome State Fault Refusal :=
  happens "PORT_ENABLE" (portEnable s port)

/-- PORT_RETRAIN: retrain is written (R381). -/
def execPortRetrain (port : Nat) (s : State) : Host.Outcome State Fault Refusal :=
  happens "PORT_RETRAIN" (if port < 16 then some (startTraining s port) else none)

/-- TXKEY_STAGE: a transmit key is staged (R391). -/
def execTxkeyStage (port : Nat) (high : Bool) (w : Word) (s : State) : Host.Outcome State Fault Refusal :=
  happens "TXKEY_STAGE" (if port < 16 then some (s.modPort port fun x => stageTx x high w) else none)

/-- RXKEY_STAGE: a receive key is staged (R391). -/
def execRxkeyStage (port : Nat) (high : Bool) (w : Word) (s : State) : Host.Outcome State Fault Refusal :=
  happens "RXKEY_STAGE" (if port < 16 then some (s.modPort port fun x => stageRx x high w) else none)

/-- TRAINING_COMPLETE: training completes (R381). -/
def execTrainingComplete (port : Nat) (peer : TrainInfo) (s : State) : Host.Outcome State Fault Refusal :=
  happens "TRAINING_COMPLETE" (trainingComplete s port peer)

/-- PORT_FAIL: a port fails (R381). -/
def execPortFail (port : Nat) (s : State) : Host.Outcome State Fault Refusal :=
  happens "PORT_FAIL" (trainingFails s port)

/-- LINK_LOSS: lane lock is lost (R381). -/
def execLinkLoss (port : Nat) (s : State) : Host.Outcome State Fault Refusal :=
  happens "LINK_LOSS" (linkLoss s port)

/-- FLIT_SLOT_TRANSMIT: a port sends a slot (R386). -/
def execFlitSlotTransmit (port : Nat) (s : State) : Host.Outcome State Fault Refusal :=
  happens "FLIT_SLOT_TRANSMIT" (transmitSlot s port)

/-- FLIT_RECEIVE: a port receives a slot (R389). -/
def execFlitReceive (port : Nat) (flit : Flit) (s : State) : Host.Outcome State Fault Refusal :=
  happens "FLIT_RECEIVE" (receiveFlit s port flit)

/-- NAK_TIMER: a NAK is repeated (R389). -/
def execNakTimer (port : Nat) (s : State) : Host.Outcome State Fault Refusal :=
  happens "NAK_TIMER" (nakTimer s port)

/-- REPLAY_TIMEOUT: a flit is sent again (R388). -/
def execReplayTimeout (port seq : Nat) (s : State) : Host.Outcome State Fault Refusal :=
  happens "REPLAY_TIMEOUT" (replayTimeout s port seq)

end Sys2Proof.Machine
end

