-- ==== Sys2Proof/Machine/EvMatrix.lean ====
section
/-! DEFINITION. The matrix slices and the folio distributors at work (spec/06 R150-R167). -/

namespace Sys2Proof.Machine

/-! ### Command words (R151, R154) -/

def cmdM (w0 : Word) : Nat := bits w0 47 40 + 1
def cmdRow (w0 : Word) : Nat := bits w0 39 32
def cmdAoff (w0 : Word) : Nat := bits w0 31 10
def cmdNkb (w0 : Word) : Nat := bits w0 9 0 + 1
def cmdBoff (w1 : Word) : Nat := bits w1 63 43
def cmdBsoff (w1 : Word) : Nat := bits w1 42 22
def cmdAsoff (w1 : Word) : Nat := bits w1 21 0
def cmdGanged (w0 : Word) : Bool := bit w0 59
def cmdPacked (w0 : Word) : Bool := bit w0 58
def cmdFolio (w0 : Word) : Bool := bit w0 57
def cmdAF (w0 : Word) : Nat := bits w0 55 53
def cmdBF (w0 : Word) : Nat := bits w0 52 50
def cmdAS (w0 : Word) : Bool := bit w0 49
def cmdBS (w0 : Word) : Bool := bit w0 48

/-- Element size of a matrix format (R152). -/
def elemBytes (code : Nat) : Nat := (fmtOf code).width / 8

/-- The operand ranges of a COMPUTE: local store, then B-store (R152). -/
def computeSpans (w0 w1 : Word) : List Span × List Span :=
  let n := cmdNkb w0
  let a : List Span := if cmdFolio w0 then [] else
    ⟨0, cmdAoff w0, n * cmdM w0 * 64 * elemBytes (cmdAF w0)⟩ ::
      (if cmdAS w0 then [⟨0, cmdAsoff w1, 2 * n * cmdM w0⟩] else [])
  (a, ⟨1, cmdBoff w1, n * 4096 * elemBytes (cmdBF w0)⟩ ::
    (if cmdBS w0 then [⟨1, cmdBsoff w1, 2 * n * 64⟩] else []))

/-- Bytes in a local store or a B-store. -/
def storeBytes (store : Nat) : Nat := if store == 0 then 0x400000 else 0x200000

/-- A range lies beyond its store. -/
def spanBeyond (x : Span) : Bool := decide (storeBytes x.store < x.lo + x.len)

/-- A field of a COMPUTE that R151 refuses. -/
def computeFieldBad (w0 w1 : Word) : Bool :=
  bit w0 56 || cmdAoff w0 % 64 != 0 || (cmdFolio w0 && cmdAoff w0 != 0) || cmdBoff w1 % 64 != 0 ||
  (!cmdBS w0 && cmdBsoff w1 != 0) || ((!cmdAS w0 || cmdFolio w0) && cmdAsoff w1 != 0) ||
  decide (256 < cmdRow w0 + cmdM w0) ||
  ((computeSpans w0 w1).1 ++ (computeSpans w0 w1).2).any spanBeyond

/-- A format pair outside R153. -/
def pairBad (mode : Nat) (w0 : Word) : Bool :=
  let af := cmdAF w0
  let bf := cmdBF w0
  match mode with
  | 0 => !((af == 4 || af == 5) && (bf == 4 || bf == 5))
  | 1 => !((af == 4 || af == 5) && bf == 7 && cmdBS w0)
  | _ => !((af == 2 || af == 3) && bf == af && !cmdAS w0 && !cmdBS w0)

/-- Local-store ranges lie inside the local guard of the issuing thread's domain (R155). -/
def guardOk (k : CoreSt) (dom : Nat) (xs : List Span) : Bool := xs.all fun x => (domOf k dom).guard x.lo x.len

/-- The code with which a COMPUTE ends before it begins (R153, R155): fields and ranges, local guard, array mode. -/
def computeErr (k : CoreSt) (m : MCmd) : Option Nat :=
  if computeFieldBad m.w0 m.w1 || (cmdGanged m.w0 && m.gang.isNone) then some 2
  else if !guardOk k m.dom (computeSpans m.w0 m.w1).1 then some 5
  else if pairBad k.slice.mode m.w0 then some 3
  else none

/-! ### Accumulator commands (R154) -/

/-- The local-store range of an ACCLOAD or ACCSTORE. -/
def accSpan (w0 : Word) : Span :=
  ⟨0, cmdAoff w0, cmdM w0 * 64 * (if cmdKind w0 == 3 then 4 else elemBytes (cmdAF w0))⟩

/-- The code with which an accumulator command ends before it begins. -/
def accErr (k : CoreSt) (m : MCmd) : Option Nat :=
  let w := m.w0
  let reserved := m.w1 != 0 || bits w 59 57 != 0 || bits w 52 48 != 0 || bits w 9 0 != 0
  let bad := match cmdKind w with
    | 2 => bits w 56 53 != 0 || cmdAoff w != 0
    | 3 => bits w 55 53 != 0 || cmdAoff w % 64 != 0 || spanBeyond (accSpan w)
    | 4 => bit w 56 || cmdAF w == 0 || decide (5 < cmdAF w) || cmdAoff w % 64 != 0 || spanBeyond (accSpan w)
    | _ => true
  if reserved || bad || decide (256 < cmdRow w + cmdM w) then some 2
  else if cmdKind w != 2 && !guardOk k m.dom [accSpan w] then some 5
  else none

/-- The accumulators a command acts on, in row order: key and index. -/
def accKeys (w0 : Word) : List (Nat × Nat) := (List.range (cmdM w0 * 64)).map fun i => (cmdRow w0 * 64 + i, i)

/-- Replace accumulators by a function of the element's index and old value, gathering its exceptions. -/
def accMap (w0 : Word) (f : Nat → Nat → Nat × Flags) (acc : Tab (BitVec 32)) : Tab (BitVec 32) × Flags :=
  (accKeys w0).foldl (fun r e =>
    let x := f e.2 (tgetD r.1 e.1 0).toNat
    (if x.1 == 0 then tdel r.1 e.1 else tset r.1 e.1 (BitVec.ofNat 32 x.1), r.2 ||| x.2)) (acc, 0)

/-- Perform an accumulator command: the core after it, the exceptions and the status code. -/
def accPerform (k : CoreSt) (m : MCmd) : CoreSt × Flags × Nat :=
  let w := m.w0
  let off := cmdAoff w
  match cmdKind w with
  | 2 => ({ k with slice := { k.slice with acc := (accMap w (fun _ _ => (0, 0)) k.slice.acc).1 } }, 0, 0)
  | 3 =>
    if (poisonIn k 0 off (accSpan w).len).isSome then (k, 0, 6)
    else
      let r := accMap w (fun i old =>
        let v := k.lstore.read (off + 4 * i) 4
        if bit w 56 then fp32Add old v else (v, 0)) k.slice.acc
      ({ k with slice := { k.slice with acc := r.1 } }, r.2, 0)
  | _ =>
    let e := elemBytes (cmdAF w)
    let r := (accKeys w).foldl (fun (r : Memory × Flags) x =>
      let y := fwrite .plain (fmtOf (cmdAF w)) (fdecode .fp32 (tgetD k.slice.acc x.1 0).toNat)
      (r.1.write (off + e * x.2) e y.1, r.2 ||| y.2)) (k.lstore, 0)
    ({ cleanPoison k 0 off (accSpan w).len with lstore := r.1 }, r.2, 0)

/-! ### Bookmarks (R160-R162) -/

/-- A bookmark that R162 refuses. -/
def bookBad (b : List Word) : Bool :=
  let d (i : Nat) : Word := b.getD i 0
  bits (d 0) 63 56 != 1 || bits (d 0) 55 48 != 0 || bits (d 3) 63 2 != 0 || bits (d 4) 47 10 != 0 ||
  bits (d 5) 63 48 != 0 || bits (d 5) 31 11 != 0 || bits (d 6) 63 5 != 0 || d 7 != 0 ||
  decide (bits (d 0) 15 0 ≤ bits (d 0) 31 16) || (cmdPacked (d 1) && bits (d 0) 31 16 % 2 == 1) || cmdKind (d 1) != 1

/-- The subscription that a bookmark restores (R162): none where it ends the command with FOLIO. -/
def bookSub (s : State) (core : Nat) (b : List Word) : Option (Option Subscr) :=
  let d := b.getD 4 0
  let held := (s.core core).slice.sub
  if !bit d 63 then some held
  else if bits d 9 8 != core / 256 then none
  else match folioKey (word (bits d 9 0)) with
    | none => none
    | some key =>
      match tget s.folios key, held with
      | none, _ => none
      | some f, some x =>
        if f.closed || x.quire * 8 + x.slot != key then none
        else some (some { x with window := bits d 62 59, pos := bits d 58 48, held := [] })
      | some f, none =>
        let wnd := bits d 62 59
        if f.closed || wnd == 0 || 8 < wnd || 131072 < wnd * f.blen then none
        else some (some ⟨key / 8, key % 8, wnd, bits d 58 48, []⟩)

/-- The bookmark that a split writes (R160). -/
def bookmarkOf (k : CoreSt) (core : Nat) (m : MCmd) : List Word :=
  let sub : Word := match k.slice.sub with
    | none => 0
    | some x => word (2 ^ 63 + x.window * 2 ^ 59 + x.pos * 2 ^ 48) ||| folioHandle x.quire x.slot
  [word (2 ^ 56 + (m.gang.getD 0) * 2 ^ 32 + m.kdone * 2 ^ 16 + cmdNkb m.w0), m.w0, m.w1, word k.slice.mode, sub,
   word (m.seq.toNat * 2 ^ 32 + core), word m.flags.toNat, 0]

/-! ### The head of the q0 order -/

def headCmd (s : State) (core : Nat) : Option MCmd := (s.core core).slice.order.head?

def setHead (s : State) (core : Nat) (m : MCmd) : State :=
  s.modCore core fun k => { k with slice := { k.slice with order := m :: k.slice.order.drop 1 } }

/-- The command of a core takes part in a gang that runs. -/
def gangAt (s : State) (tag core : Nat) : Bool :=
  match headCmd s core with
  | some m => m.gang == some tag && m.phase == .running
  | none => false

/-- The 16 cores of a quire (R163). -/
def quireCores (core : Nat) : List Nat := (List.range 16).map fun i => quireOf core * 16 + i

/-- The cores whose commands run in step with a command: the running members of its gang, or the core alone. -/
def membersOf (s : State) (core : Nat) (m : MCmd) : List Nat :=
  match m.gang with
  | none => [core]
  | some tag => (quireCores core).filter (gangAt s tag)

/-- The thread that issued the head command is stopped, or its core is (spec/16 R352). -/
def cmdStopped (s : State) (core : Nat) (m : MCmd) : Bool :=
  !(s.core core).stops.isEmpty ||
    match s.thread? core m.slot with
    | some t => t.uid == m.uid && !t.stops.isEmpty
    | none => false

/-- The command waits at its gang join (R157). -/
def joins (m : MCmd) : Bool :=
  cmdGanged m.w0 && m.gang.isSome &&
    (m.kind == .words && cmdKind m.w0 == 1 || (match m.kind with | .resume b => !bookBad b | _ => false))

/-- The digest of a ganged command (R157): everything but the offsets, with the array mode. -/
def gangDigest (k : CoreSt) (m : MCmd) : Nat × Nat := (m.w0.toNat / 2 ^ 32 * 2 ^ 32 + bits m.w0 9 0, k.slice.mode)

/-- What the status of a resumed command starts from (R162): the k-blocks done and the flags of a valid bookmark. -/
def resumed (m : MCmd) : MCmd :=
  match m.kind with
  | .resume b =>
    if bookBad b then m
    else { m with kdone := bits (b.getD 0 0) 31 16, flags := BitVec.ofNat 5 (bits (b.getD 6 0) 4 0) }
  | _ => m

/-- A core waits at the gang join of a tag. -/
def atJoin (s : State) (tag : Option Nat) (core : Nat) : Bool :=
  match headCmd s core with
  | some m => m.gang == tag && m.arrived.isSome && m.phase == .queued
  | none => false

/-- All 16 cores of the quire are present with the same tag (R157). -/
def gangPresent (s : State) (core : Nat) (m : MCmd) : Bool := (quireCores core).all (atJoin s m.gang)

/-- GANG_JOIN: the head command arrives at its gang join (R157). -/
def gangJoin (s : State) (core : Nat) : Option State :=
  if 1024 ≤ core then none
  else match headCmd s core with
    | none => none
    | some m =>
      if m.phase != .queued || !joins m || m.arrived.isSome || cmdStopped s core m then none
      else some (setHead s core { resumed m with arrived := some (s.cyc core) })

/-- GANG_TIMEOUT: a join that is not complete exceeds mglim (R157); a stopped thread's command stays (spec/16 R352). -/
def gangTimeout (s : State) (core : Nat) : Option State :=
  match headCmd s core with
  | none => none
  | some m =>
    match m.arrived with
    | none => none
    | some a =>
      if m.phase == .queued && !cmdStopped s core m && !gangPresent s core m && expired (s.cyc core) a (s.core core).mglim then
        some (setHead s core { m with phase := .finished 4 }) else none

/-- Register the locks of a command on its own core (R147): none where it waits. -/
def lockOwn (k : CoreSt) (core : Nat) (write : Bool) (xs : List Span) : Option CoreSt :=
  registerLock k ⟨.matrix core, write, xs, []⟩

/-- Begin a COMPUTE whose fields are checked; one with no k-block left to do is done (R153). -/
def beginCompute (s : State) (core : Nat) (m : MCmd) : Option State :=
  let k := s.core core
  let xs := computeSpans m.w0 m.w1
  match lockOwn k core false (xs.1 ++ xs.2) with
  | none => none
  | some k1 =>
    some (setHead (s.setCore core k1) core
      (if cmdNkb m.w0 ≤ m.kdone then { m with kdone := cmdNkb m.w0, phase := .finished 0 } else { m with phase := .running }))

/-- Begin the command of a bookmark (R162). -/
def beginResume (s : State) (core : Nat) (m : MCmd) (b : List Word) : Option State :=
  let k := s.core core
  let m1 := resumed m
  let fail (code : Nat) : Option State := some (setHead s core { m1 with phase := .finished code })
  if bookBad b then fail 8
  else if bits (b.getD 3 0) 1 0 != k.slice.mode then fail 3
  else
    match computeErr k m1 with
    | some code => fail code
    | none =>
      match bookSub s core b with
      | none => fail 7
      | some sub => beginCompute (s.modCore core fun k => { k with slice := { k.slice with sub := sub } }) core m1

/-- Perform an accumulator command with its lock held (R154). -/
def runAcc (s : State) (core : Nat) (m : MCmd) : Option State :=
  let k := s.core core
  let k1 := if cmdKind m.w0 == 2 then some k else lockOwn k core (cmdKind m.w0 == 4) [accSpan m.w0]
  match k1 with
  | none => none
  | some k1 =>
    let r := accPerform k1 m
    some (setHead (s.setCore core r.1) core { m with flags := r.2.1, phase := .finished r.2.2 })

/-- The head command of a core is checked, registers its locks and begins (R153-R155): none where a lock waits. A steward core has
no slice, so its commands end with BADCFG (R10, log 113). -/
def beginHead (s : State) (core : Nat) : Option State :=
  match headCmd s core with
  | none => none
  | some m =>
    let fail (code : Nat) : Option State := some (setHead s core { m with phase := .finished code })
    match m.kind with
    | .mcfg _ => none
    | .badHalf => fail 2
    | .resume b => if 1024 ≤ core then fail 3 else beginResume s core m b
    | .words =>
      if 1024 ≤ core then fail 3
      else if cmdKind m.w0 == 1 then
        match computeErr (s.core core) m with
        | some code => fail code
        | none => beginCompute s core m
      else
        match accErr (s.core core) m with
        | some code => fail code
        | none => runAcc s core m

/-- A gang whose 16 members are present begins (R157): with equal digests the slices start together, else every member ends with
BADCFG. It waits while a member's thread is stopped (spec/16 R352) or a member's lock waits. -/
def beginGang (s : State) (core : Nat) (m : MCmd) : Option State :=
  let digest (c : Nat) : Option (Nat × Nat) := (headCmd s c).map (gangDigest (s.core c))
  if !gangPresent s core m || (quireCores core).any (fun c => (headCmd s c).any (cmdStopped s c)) then none
  else if (quireCores core).all (fun c => digest c == digest core) then (quireCores core).foldlM beginHead s
  else some ((quireCores core).foldl (fun s c => match headCmd s c with
    | some h => setHead s c { h with phase := .finished 3 }
    | none => s) s)

/-- MATRIX_COMMAND_START: the head command begins, with its gang where it is ganged (R153, R157). -/
def startCommand (s : State) (core : Nat) : Option State :=
  match headCmd s core with
  | none => none
  | some m =>
    if m.phase != .queued || cmdStopped s core m then none
    else if joins m && decide (core < 1024) then beginGang s core m
    else beginHead s core

/-- ARRAY_MODE_CHANGE: an MCFG at the head of the order takes effect (R156); on a steward core there is no mode to change. -/
def changeMode (s : State) (core : Nat) : Option State :=
  match headCmd s core with
  | some m =>
    match m.kind with
    | .mcfg mode =>
      if cmdStopped s core m then none
      else some (s.modCore core fun k => { k with slice := { k.slice with
        mode := if 1024 ≤ core then k.slice.mode else mode, order := k.slice.order.drop 1 } })
    | _ => none
  | none => none

/-! ### k-blocks (R152, R153) -/

/-- An element of A of k-block j (R152): from the local store, or from a folio block. -/
def aValue (k : CoreSt) (m : MCmd) (blk : Option (List Byte)) (j r i : Nat) : FVal :=
  let e := elemBytes (cmdAF m.w0)
  let o := (r * 64 + i) * e
  let code := match blk with
    | some bs => byteListNum ((bs.drop o).take e)
    | none => k.lstore.read (cmdAoff m.w0 + j * cmdM m.w0 * 64 * e + o) e
  if cmdAS m.w0 then
    let sc := match blk with
      | some bs => byteListNum ((bs.drop (cmdM m.w0 * 64 * e + 2 * r + i / 32)).take 1)
      | none => k.lstore.read (cmdAsoff m.w1 + 2 * (j * cmdM m.w0 + r) + i / 32) 1
    mxValue (fmtOf (cmdAF m.w0)) sc code
  else fdecode (fmtOf (cmdAF m.w0)) code

/-- An element of B of k-block j (R152). -/
def bValue (k : CoreSt) (m : MCmd) (j i c : Nat) : FVal :=
  let e := elemBytes (cmdBF m.w0)
  let code := k.bstore.read (cmdBoff m.w1 + j * 4096 * e + (i * 64 + c) * e) e
  if cmdBS m.w0 then
    mxValue (fmtOf (cmdBF m.w0)) (k.bstore.read (cmdBsoff m.w1 + 2 * (j * 64 + c) + i / 32) 1) code
  else fdecode (fmtOf (cmdBF m.w0)) code

/-- One accumulator update by the k-blocks of a step, each with its folio block (R153). -/
def kblockElem (k : CoreSt) (m : MCmd) (js : List (Nat × Option (List Byte))) (i old : Nat) : Nat × Flags :=
  let ps := js.flatMap fun j => (List.range 64).map fun x =>
    fmulX (aValue k m j.2 j.1 (i / 64) x) (bValue k m j.1 x (i % 64))
  let b := (kblockSum (ps.map (·.1))).bits
  let r := fp32Add old b
  (r.1, kblockFlags ps ||| r.2)

/-- A poisoned operand among the k-blocks of a step. -/
def kblockPoison (k : CoreSt) (m : MCmd) (js : List Nat) : Bool :=
  let ea := elemBytes (cmdAF m.w0)
  let eb := elemBytes (cmdBF m.w0)
  js.any fun j =>
    (!cmdFolio m.w0 && ((poisonIn k 0 (cmdAoff m.w0 + j * cmdM m.w0 * 64 * ea) (cmdM m.w0 * 64 * ea)).isSome ||
      (cmdAS m.w0 && (poisonIn k 0 (cmdAsoff m.w1 + 2 * j * cmdM m.w0) (2 * cmdM m.w0)).isSome))) ||
    (poisonIn k 1 (cmdBoff m.w1 + j * 4096 * eb) (4096 * eb)).isSome ||
    (cmdBS m.w0 && (poisonIn k 1 (cmdBsoff m.w1 + 128 * j) 128).isSome)

/-- The bytes that a folio block must hold for a command (R152). -/
def blockNeeds (w0 : Word) : Nat := cmdM w0 * 64 * elemBytes (cmdAF w0) + (if cmdAS w0 then 2 * cmdM w0 else 0)

/-- The k-blocks of the next step (R153). -/
def stepBlocks (m : MCmd) : List Nat :=
  (List.range (min (if cmdPacked m.w0 then 2 else 1) (cmdNkb m.w0 - m.kdone))).map fun i => m.kdone + i

/-- What the subscription gives a step: the blocks, a wait for their delivery, or the end of the command (R155, R166). -/
inductive BlockSource where
  | blocks (bs : List (List Byte × List Nat))
  | wait
  | none
  deriving DecidableEq, Repr

/-- What the subscription of a core gives a step of `n` k-blocks. -/
def folioBlocks (s : State) (core : Nat) (m : MCmd) (n : Nat) : BlockSource :=
  match (s.core core).slice.sub with
  | .none => .none
  | some x =>
    match tget s.folios (x.quire * 8 + x.slot) with
    | .none => .none
    | some f =>
      if f.nb < x.pos + n || f.blen < blockNeeds m.w0 then .none
      else if x.held.length < n then .wait
      else .blocks (x.held.take n)

/-- A subscription consumes blocks, and ends with its last (R166). -/
def consumeBlocks (s : State) (core n : Nat) : State :=
  match (s.core core).slice.sub with
  | none => s
  | some x =>
    let nb := ((tget s.folios (x.quire * 8 + x.slot)).map (·.nb)).getD 0
    let x1 := { x with pos := x.pos + n, held := x.held.drop n }
    s.modCore core fun k => { k with slice := { k.slice with sub := if nb ≤ x1.pos then none else some x1 } }

/-- Add the k-blocks of a step to the accumulators. -/
def addBlocks (s : State) (core : Nat) (m : MCmd) (js : List (Nat × Option (List Byte))) : State :=
  let k := s.core core
  let r := accMap m.w0 (kblockElem k m js) k.slice.acc
  let done := m.kdone + js.length
  let m1 := { m with kdone := done, flags := m.flags ||| r.2, phase := if cmdNkb m.w0 ≤ done then .finished 0 else .running }
  setHead (s.modCore core fun k => { k with slice := { k.slice with acc := r.1 } }) core m1

/-- A word of the first `n` bytes of a folio block is poisoned. -/
def blockPoison (n : Nat) (b : List Byte × List Nat) : Bool := b.2.any fun i => decide (8 * i < n)

/-- The running command of one core adds its next k-block, or pair of k-blocks (R153): none where it waits for a folio block, or
to be split. -/
def runOne (s : State) (core : Nat) : Option State :=
  match headCmd s core with
  | none => none
  | some m =>
    if m.split then none
    else
      let js := stepBlocks m
      let stop (code : Nat) : Option State := some (setHead s core { m with phase := .finished code })
      if cmdFolio m.w0 then
        match folioBlocks s core m js.length with
        | .none => stop 7
        | .wait => none
        | .blocks bs =>
          if kblockPoison (s.core core) m js || bs.any (blockPoison (blockNeeds m.w0)) then stop 6
          else some (consumeBlocks (addBlocks s core m (js.zip (bs.map fun b => some b.1))) core js.length)
      else if kblockPoison (s.core core) m js then stop 6
      else some (addBlocks s core m (js.map fun j => (j, none)))

/-- MATRIX_KBLOCK: the running command takes its next step, in step with the other members of its gang (R153, R157). -/
def runBlock (s : State) (core : Nat) : Option State :=
  match headCmd s core with
  | none => none
  | some m => if m.phase != .running then none else (membersOf s core m).foldlM runOne s

/-- MATRIX_SPLIT: a running command splits at a k-block boundary (R159): the bookmark is written or kept, delivered
blocks are discarded, the locks are released. -/
def splitCommand (s : State) (core : Nat) : Option State :=
  match headCmd s core with
  | none => none
  | some m =>
    if m.phase != .running || !m.split then none
    else
      let k := s.core core
      let b := bookmarkOf k core m
      let drop (k : CoreSt) : CoreSt :=
        { releaseLocks k (.matrix core) none with
          slice := { k.slice with sub := k.slice.sub.map fun x => { x with held := [] } } }
      match k.slice.bka with
      | some o =>
        if engineConflict k (.matrix core) true [⟨0, o, 64⟩] then none
        else
          let x := (b.reverse.foldl (fun n w => n * 2 ^ 64 + w.toNat) 0)
          let k1 := { cleanPoison (drop k) 0 o 64 with lstore := k.lstore.write o 64 x }
          some (setHead (s.setCore core k1) core { m with phase := .finished 1 })
      | none =>
        let k1 := drop k
        some (setHead (s.setCore core { k1 with slice := { k1.slice with kept := some (m.uid, b) } }) core
          { m with phase := .finished 1 })

/-- A matrix status entry (R155). -/
def statusEntry (m : MCmd) (code : Nat) : Word :=
  word (cmdKind m.w0 * 2 ^ 60 + code * 2 ^ 52 + m.flags.toNat * 2 ^ 47 + m.kdone * 2 ^ 16 + m.seq.toNat)

/-- MATRIX_STATUS_POST: a finished command releases its locks, leaves the order and posts its status (R145, R155). -/
def postStatus (s : State) (core : Nat) : Option State :=
  match headCmd s core with
  | none => none
  | some m =>
    match m.phase with
    | .finished code =>
      let s1 := s.modCore core fun k =>
        { releaseLocks k (.matrix core) none with slice := { k.slice with order := k.slice.order.drop 1 } }
      some (s1.modThread core m.slot fun t =>
        if t.uid == m.uid && m.kind != .badHalf then { t with q0 := t.q0 ++ [statusEntry m code] } else t)
    | _ => none

/-! ### Folios (R166, R167) -/

/-- FOLIO_DELIVER: the next block is delivered to a subscription (R166); a packed step takes the first block of its pair
before the second comes. -/
def deliverBlock (s : State) (core : Nat) : Option State :=
  match (s.core core).slice.sub with
  | none => none
  | some x =>
    match tget s.folios (x.quire * 8 + x.slot) with
    | none => none
    | some f =>
      let j := x.pos + x.held.length
      let packed := (headCmd s core).any fun m => m.phase == .running && cmdPacked m.w0
      let limit := if packed then max 2 x.window else x.window
      if limit ≤ x.held.length || f.nb ≤ j then none
      else
        let p := s.core f.producer
        let o := f.base + j * f.blen
        let v := p.lstore.read o f.blen
        let bytes : List Byte := (List.range f.blen).map fun i => BitVec.ofNat 8 (v / 256 ^ i)
        let bad := p.poison.filterMap fun w =>
          if w.1 == 0 && decide (o / 8 ≤ w.2) && decide (w.2 < (o + f.blen) / 8) then some (w.2 - o / 8) else none
        let x1 := { x with held := x.held ++ [(bytes, bad)] }
        some (s.modCore core fun k => { k with slice := { k.slice with sub := some x1 } })

/-- FOLIO_FREE: a closed folio with no subscription is freed with its lock (R167). -/
def freeFolio (s : State) (quire slot : Nat) : Option State :=
  match tget s.folios (quire * 8 + slot) with
  | none => none
  | some f =>
    let used := s.cores.any fun c => match c.2.slice.sub with
      | some x => x.quire == quire && x.slot == slot
      | none => false
    if !f.closed || used then none
    else some { s.modCore f.producer (fun k => releaseLocks k (.folio quire slot) none) with
      folios := tdel s.folios (quire * 8 + slot) }

/-- MATRIX_COMMAND_START: the head command begins (R153). -/
def execMatrixCommandStart (core : Nat) (s : State) : Host.Outcome State Fault Refusal :=
  happens "MATRIX_COMMAND_START" (startCommand s core)

/-- ARRAY_MODE_CHANGE: an MCFG takes effect (R156). -/
def execArrayModeChange (core : Nat) (s : State) : Host.Outcome State Fault Refusal :=
  happens "ARRAY_MODE_CHANGE" (changeMode s core)

/-- GANG_JOIN: a core arrives at its gang join (R157). -/
def execGangJoin (core : Nat) (s : State) : Host.Outcome State Fault Refusal :=
  happens "GANG_JOIN" (gangJoin s core)

/-- GANG_TIMEOUT: a gang join expires (R157). -/
def execGangTimeout (core : Nat) (s : State) : Host.Outcome State Fault Refusal :=
  happens "GANG_TIMEOUT" (gangTimeout s core)

/-- MATRIX_KBLOCK: the running command adds a k-block (R153). -/
def execMatrixKblock (core : Nat) (s : State) : Host.Outcome State Fault Refusal :=
  happens "MATRIX_KBLOCK" (runBlock s core)

/-- MATRIX_SPLIT: the running command is split (R159). -/
def execMatrixSplit (core : Nat) (s : State) : Host.Outcome State Fault Refusal :=
  happens "MATRIX_SPLIT" (splitCommand s core)

/-- MATRIX_STATUS_POST: a finished command posts its status (R155). -/
def execMatrixStatusPost (core : Nat) (s : State) : Host.Outcome State Fault Refusal :=
  happens "MATRIX_STATUS_POST" (postStatus s core)

/-- FOLIO_DELIVER: a folio block is delivered (R166). -/
def execFolioDeliver (core : Nat) (s : State) : Host.Outcome State Fault Refusal :=
  happens "FOLIO_DELIVER" (deliverBlock s core)

/-- FOLIO_FREE: a closed folio is freed (R167). -/
def execFolioFree (quire slot : Nat) (s : State) : Host.Outcome State Fault Refusal :=
  happens "FOLIO_FREE" (freeFolio s quire slot)

end Sys2Proof.Machine
end

