-- ==== Sys2Proof/Machine/EvMem.lean ====
section
/-! DEFINITION. Translation, messages and acknowledgements (spec/07 R196-R202; spec/09 R261-R267, R280; spec/15 R338, R339). -/

namespace Sys2Proof.Machine

/-! ### Translation slices (spec/15 R333-R339; spec/09 R261-R263) -/

/-- The home core that a first touch gives a page (R263). -/
def touchCore (p : Packet) : Nat := p.toucher

/-- Forward a translated packet to its home (R243, R259, R313). -/
def forward (s : State) (p : Packet) (x : Xl) (home : Nat) : State :=
  let dst := s.logical * 2048 + home
  match p.body with
  | .request _ =>
    if 1536 ≤ epCore p.src then s.modPacket p.id fun p => { p with xl := some x, dst := dst, stage := .home }
    else awayFrom (s.dropPacket p.id) p dst
  | .spawn ws operand _ =>
    if 1024 ≤ home then unplaceable (s.dropPacket p.id) 56 ws p.dom (bits (Config.freeWord s.freeCtr) 7 0) operand true |>.tick
    else s.modPacket p.id fun p =>
      { p with stage := .home, dst := frontEp s.logical (56 + clusterOf home % 8), body := .spawn ws operand (some home) }
  | _ => s.modPacket p.id fun p => { p with xl := some x, dst := dst, stage := .home }

/-- A ferry whose translation fails with XLATE detail 1 goes first to the steward where the hardware mode of translation
repair is selected; whether its firmware resends it is free (spec/21 R433, log 29). -/
def repairOr (s : State) (p : Packet) (t : TrapRec) : State :=
  match p.body with
  | .ferry _ =>
    if t.cause == cXLATE && t.detail == 1 && bit s.splitc 0 && Config.repairFerry s.freeCtr then
      (s.modPacket p.id fun p => { p with stage := .slice }).tick
    else failAtSlice s.tick p t
  | _ => failAtSlice s p t

/-- A leaf has been found: it is kept, and after the checks of R338 and a first touch the packet goes on. -/
def useLeaf (s : State) (p : Packet) (l : Leaf) : State :=
  let y := resolveLeaf s (sliceOf p.addr) p.dom p.priv (eaOff p.addr) l p.needs.1 p.needs.2 (touchCore p)
  match y.1 with
  | .error t => repairOr y.2 p t
  | .ok x => forward y.2 p x.1 x.2

/-- Walks that run at a slice. -/
def walksAt (s : State) (slice : Nat) : Nat :=
  (s.net.filter fun q => sliceOf q.addr == slice && (match q.stage with | .walk _ _ => true | _ => false)).length

/-- SLICE_TRANSLATE: a held leaf translates the packet; else a walk begins, or the access fails (R338, R339). -/
def sliceTranslate (s : State) (id : Nat) : Option State :=
  match s.packet? id with
  | none => none
  | some p =>
    if p.stage != .slice || eaCube p.addr != s.logical || p.isRow || !clearSlice s p then none
    else
      let slice := sliceOf p.addr
      let s1 := s.useSpace (2000 + slice) p.dom
      let sp := s1.spaceAt (2000 + slice) p.dom
      if bits p.addr 63 56 != 0 then some (failAtSlice s1 p { cause := cXLATE, detail := 4, remote := true })
      else if regionOf (eaOff p.addr) != .dram then some (failAtSlice s1 p { cause := cXLATE, detail := 1, remote := true })
      else if !bit sp.w0 63 then some (repairOr s1 p { cause := cXLATE, detail := 1, remote := true })
      else match heldLeaf s1 slice p.dom (eaOff p.addr) with
        | some l => some (useLeaf s1 p ⟨l.level, l.d0, l.d1, l.entry⟩)
        | none =>
          if 32 ≤ walksAt s1 slice then none
          else some (s1.modPacket id fun p => { p with stage := .walk 1 (bits sp.w0 22 0 * 65536) })

/-- TABLE_WALK_READ: one entry of a walk is read at its line's home (R337-R339); a poisoned entry is used as its bits stand
(log 106). -/
def walkRead (s : State) (id : Nat) : Option State :=
  match s.packet? id with
  | none => none
  | some p =>
    match p.stage with
    | .walk level table =>
      let pa := table + 16 * walkIndex (eaOff p.addr) level
      let r := homeReadLine s (spreadHome s 15 pa) (pa / 32) 0 false
      let d0 := word (lineBytes r.1.1 (pa % 32) 8)
      let d1 := word (lineBytes r.1.1 (pa % 32 + 8) 8)
      match entryKind level d0 d1 with
      | .bad => some (repairOr r.2 p { cause := cXLATE, detail := 1, remote := true })
      | .table t => some (r.2.modPacket id fun p => { p with stage := .walk (level + 1) t })
      | .leaf => some (useLeaf r.2 p ⟨level, d0, d1, pa⟩)
    | _ => none

/-! ### Messages at their homes (R191-R201, R267, R280) -/

/-- An earlier message of the same source and class is held (R280). -/
def behindHeld (hs : List Packet) (p : Packet) : Bool :=
  hs.any fun q => q.id != p.id && q.source == p.source && q.urg == p.urg

/-- Hold a message at its home as the newest one there; none where 32 are held (R280). -/
def holdMessage (s : State) (p : Packet) : Option State :=
  if (heldAt s p.dst).length < 32 then
    let s1 := s.dropPacket p.id
    some { s1 with net := s1.net ++ [{ p with stage := .held }] }
  else none

/-- Remember the identifier of a message of another cube that was performed or refused here (spec/20 R421). -/
def remember (k : CoreSt) (p : Packet) : CoreSt :=
  { k with done := (⟨p.src, p.slot, p.uid, p.seq, true⟩ :: k.done).take 512 }

/-- The identifier of a message of another cube that its home has performed or refused before (R197, spec/20 R421). -/
def keptId (s : State) (c : Nat) (p : Packet) : Option DoneId :=
  if epCube p.src == s.logical then none
  else (s.core c).done.find? fun d => d.src == p.src && d.slot == p.slot && d.uid == p.uid && d.seq == p.seq

/-- A late copy of a message is discarded, acknowledged again where it was performed (spec/20 R421). -/
def repeated (s : State) (p : Packet) (d : DoneId) : State :=
  if d.performed then acknowledge (s.dropPacket p.id) p none else s.dropPacket p.id

/-- A message has been performed: counted, remembered, acknowledged. -/
def performed (s : State) (c : Nat) (p : Packet) : State :=
  let s1 := (s.dropPacket p.id).countPacket p c
  acknowledge (if epCube p.src == s.logical then s1 else s1.modCore c fun k => remember k p) p none

/-- A message has failed (R196). -/
def failed (s : State) (p : Packet) (f : Failure) : State := acknowledge (s.dropPacket p.id) p (some f)

/-- The checks made at the home (R200, R258). -/
def messageCheck (s : State) (c : Nat) (p : Packet) (a : Access) : Option TrapRec :=
  if a.op.isFe && !inLocalStore p.addr then some { cause := cPERM, detail := 3, remote := true, xaddr := p.addr }
  else homeCheck s c p.dom p.priv a p.addr

/-- An STFE message at its word (R201, R202): queued, or refused where 64 are queued; then the word is resolved. -/
def queueStfe (s : State) (c : Nat) (p : Packet) (o : Nat) : State :=
  let k := s.core c
  let now := k.cyc
  if k.full (o / 8) && 64 ≤ queuedStfe k then failed s p ⟨cFETIME, 2, p.addr⟩
  else
    let q := k.feQueue (o / 8)
    let k1 := k.setFeQueue (o / 8) { q with stores := q.stores ++ [(.storeMsg p.id, now)] }
    resolveWord (((s.modPacket p.id fun p => { p with stage := .queued }).setCore c k1).countPacket p c) c (o / 8)

/-- A message with a poisoned value (spec/20 R411) that consumes it: an atomic, or a store to a configuration word (log 51).
-/
def poisonedValue (p : Packet) (a : Access) : Bool :=
  !p.bad.isEmpty && (a.op.consumes || (match regionOf (eaOff p.addr) with | .config _ => true | _ => false))

/-- The word that a message stored is poisoned where its value was (R90). -/
def storePoison (s : State) (c : Nat) (p : Packet) (a : Access) : State :=
  if p.bad.isEmpty || a.op == .feclr then s
  else match regionOf (eaOff p.addr), p.xl with
    | .lstore _ o, _ => s.modCore c fun k => { k with poison := k.poison.filter (· != (0, o / 8)) ++ [(0, o / 8)] }
    | .dram, some x =>
      if x.elided.isSome then s else homePoison s c (x.pa / 32) x.key (BitVec.ofNat 4 (2 ^ (x.pa % 32 / 8)))
    | _, _ => s

/-- Perform a message whose checks have passed and which no lock holds back. -/
def runMessage (s : State) (c : Nat) (p : Packet) (a : Access) : Option State :=
  if poisonedValue p a then some (failed s p ⟨cPOISON, 0, wordAddr p.addr⟩)
  else match a.op, regionOf (eaOff p.addr) with
  | .stfe, .lstore _ o => some (queueStfe s c p o)
  | .stff, .lstore _ o =>
    some (performed (resolveWord (storePoison (s.modCore c fun k => fillWord k (o / 8) a.val) c p a) c (o / 8)) c p)
  | .feclr, .lstore _ o =>
    some (performed (resolveWord (s.modCore c fun k => k.setTag (o / 8) false) c (o / 8)) c p)
  | _, .config o =>
    match configStore s (writerOf s p) o a.val with
    | .ok s1 => some (performed s1 c p)
    | .fail => some (failed s p ⟨cPERM, 1, p.addr⟩)
    | .later s1 => some ((s1.modPacket p.id fun p => { p with stage := .queued }).countPacket p c)
    | .full => none
  | _, _ =>
    match homePerform s c a p.addr p.xl with
    | .ok (_, s1) => some (performed (storePoison s1 c p a) c p)
    | .error t => some (failed s p (failureOf t))

/-- A message of a writer whose completing store is held at a stream port waits behind it (spec/14 R303): the port's home is that
of the whole configuration region (R259). -/
def heldByPort (s : State) (p : Packet) : Bool :=
  epCore p.dst == 1024 && p.ordered && s.fes.any fun f => f.2.held.any fun h => h.1 == p.src

/-- A message arrives at its home (R267, R280): held behind held messages, failed by its checks, held by a lock, or
performed. -/
def arriveMessage (s : State) (c : Nat) (p : Packet) (a : Access) : Option State :=
  if !handledAt s c p then none
  else if behindHeld (heldAt s p.dst) p || heldByPort s p then holdMessage s p
  else match keptId s c p with
  | some d => some (repeated s p d)
  | none =>
    let s1 := s.useSpace c p.dom
    match messageCheck s1 c p a with
    | some t => some (failed s1 p (failureOf t))
    | none => if homeLocked s1 c a p.addr p.xl then holdMessage s1 p else runMessage s1 c p a

/-- A front end's read of a semaphore word at its home (spec/14 R309), which waits for a range lock. -/
def arriveRead (s : State) (c : Nat) (p : Packet) (a : Access) : Option State :=
  let s1 := s.useSpace c p.dom
  if !handledAt s c p then none
  else if homeLocked s1 c a p.addr p.xl then none
  else
    let s2 := (s1.dropPacket p.id).countPacket p c
    match performHere s2 c p.dom p.priv a p.addr p.xl with
    | .ok (old, s3) => some (s3.send (directPacket s3 p.dst p.src p.urg p.uid p.slot (.reply p.id (word old) none)))
    | .error t => some (s2.send (directPacket s2 p.dst p.src p.urg p.uid p.slot (.reply p.id 0 (some (failCode t)))))

/-- A store to the configuration region whose acknowledgement was held back is acknowledged once it may be (spec/14 R303,
spec/16 R350, spec/20 R417). -/
def settleStore (s : State) (id : Nat) : Option State :=
  match s.packet? id with
  | none => none
  | some p =>
    match p.body, regionOf (eaOff p.addr) with
    | .access a, .config o =>
      if p.stage == .queued && storeSettled s (writerOf s p) o a.val then
        some (acknowledge (s.dropPacket id) p none)
      else none
    | _, _ => none

/-- MESSAGE_PERFORM: a store, atomic, FE message or a front end's read at its home; a slice invalidation of another cube (R222). -/
def messagePerform (s : State) (id : Nat) : Option State :=
  match arriving s id with
  | none => settleStore s id
  | some p =>
    let c := epCore p.dst
    match p.body with
    | .access a => if c < 1028 && a.op != .stfe then arriveMessage s c p a else none
    | .request a => if 1028 ≤ c then none else arriveRead s c p a
    | .slinv mode a =>
      if walking s then none else some (acknowledge (invalidate (s.dropPacket id) mode a) p none)
    | _ => none

/-- STFE_ARRIVE: an STFE message reaches the word's home (R200, R201). -/
def stfeArrive (s : State) (id : Nat) : Option State :=
  match arriving s id with
  | none => none
  | some p =>
    match p.body with
    | .access a => if epCore p.dst < 1028 && a.op == .stfe then arriveMessage s (epCore p.dst) p a else none
    | _ => none

/-- HELD_MESSAGES_RELEASE: the first held message of a core that nothing holds back any longer is performed (R280). -/
def releaseHeld (s : State) (c : Nat) : Option State :=
  let hs := heldAt s (s.ep c)
  let free := fun (p : Packet) =>
    !behindHeld (hs.takeWhile fun q => q.id != p.id) p && handledAt s c p && !heldByPort s p &&
    (match p.body with | .access a => !homeLocked s c a p.addr p.xl | _ => false)
  match hs.find? free with
  | none => none
  | some p =>
    match p.body with
    | .access a =>
      match keptId s c p with
      | some d => some (repeated s p d)
      | none =>
        match messageCheck s c p a with
        | some t => some (failed s p (failureOf t))
        | none => runMessage s c p a
    | _ => none

/-! ### Acknowledgements (R196, R198, R207) -/

/-- The fault record after one more failure (R196, R221). -/
def recordFailure (frec fraddr : Word) (scope : Nat) (f : Failure) : Word × Word :=
  if bit frec 63 then (frec ||| 0x4000000000000000, fraddr)
  else (word (2 ^ 63 + f.detail % 65536 * 2 ^ 16 + scope * 2 ^ 8 + f.cause), f.addr)

/-- A send of a thread is acknowledged: the outstanding list and the record. -/
def settleSend (sends : List (Nat × Nat)) (frec fraddr : Word) (ref : Nat) (fail : Option Failure) :
    List (Nat × Nat) × Word × Word :=
  match sends.find? fun e => e.1 == ref with
  | none => (sends, frec, fraddr)
  | some e =>
    let rest := sends.filter fun x => x.1 != ref
    match fail with
    | none => (rest, frec, fraddr)
    | some f => (rest, recordFailure frec fraddr e.2 f)

/-- An acknowledgement reaches the thread that sent the message, or what is left of it (R196, R311). -/
def ackThread (s : State) (c uid ref : Nat) (fail : Option Failure) : State :=
  match awaiter s uid ref with
  | some (c', slot, t, r) =>
    match fail with
    | none => completeChain s c' slot r none
    | some f => answerTrap s c' slot t { cause := f.cause, detail := f.detail, xaddr := f.addr }
  | none =>
    match s.where? uid with
    | some (c', slot) =>
      s.modThread c' slot fun t =>
        let r := settleSend t.sends t.frec t.fraddr ref fail
        { t with sends := r.1, frec := r.2.1, fraddr := r.2.2 }
    | none =>
      reportExits (s.modCore c fun k => { k with gone := k.gone.map fun x =>
        if x.uid == uid then
          let r := settleSend x.sends x.frec x.fraddr ref fail
          { x with sends := r.1, frec := r.2.1, fraddr := r.2.2 }
        else x }) c

/-- An acknowledgement reaches a front end (R309-R311, R445): a semaphore read or signal, or a completion-word access,
whose failure is reported. -/
def ackFront (s : State) (f ref : Nat) (fail : Option Failure) : State :=
  let x := s.fe f
  match x.adds.find? fun e => e.1 == ref with
  | some (_, task, dom) =>
    let s1 := s.setFe f { x with adds := x.adds.filter fun e => e.1 != ref }
    match fail with
    | none => s1
    | some g => completionFailed s1 f task dom g
  | none => signalAcked s f ref fail

/-- The mailbox set of a sender counts the outcome of its message (R207). -/
def countDelivered (s : State) (c : Nat) (g : GroupId) (add dead : Bool) : Option State :=
  let k := s.core c
  if !mailRoom k g then none
  else
    let k1 := if add then addMail k g 15 1 else k
    some (s.setCore c (if dead then setDeadLetter k1 g else k1))

/-- The answer is a bank-dot result for a thread's q3 queue (R181). -/
def queuedResult (s : State) (uid ref : Nat) : Bool :=
  match s.where? uid with
  | none => false
  | some (c, slot) => ((s.thread? c slot).map fun t => t.q3.any fun e => e.1 == ref).getD false

/-- The front end of an endpoint's core number (spec/00 R2). -/
def frontOf (c : Nat) : Option Nat := if 1536 ≤ c && c < 1600 then some (c - 1536) else none

/-- ACK_RECEIVE: an acknowledgement or a reply reaches the party that waits for it (R196); for a core number that names neither a
core nor a front end nothing is delivered (spec/00 R2). -/
def ackReceive (s : State) (id : Nat) : Option State :=
  match arriving s id with
  | none => none
  | some p =>
    let s1 := s.dropPacket id
    let c := epCore p.dst
    let isCore := decide (c < 1028)
    match p.body with
    | .ack ref fail =>
      some (if isCore then ackThread s1 c p.uid ref fail
        else match frontOf c with | some f => ackFront s1 f ref fail | none => s1)
    | .reply ref v fail =>
      if isCore && queuedResult s p.uid ref then none
      else
        let fail' := if p.bad.isEmpty then fail else some (fail.getD cPOISON)
        some (if isCore then answered s1 p.uid ref v fail' p.addr
          else match frontOf c with | some f => semaphoreRead s1 f ref v fail' | none => s1)
    | .engineData g q data poison => some (if isCore then engineDataBack s1 c g q data poison else s1)
    | .delivered g add dead => if isCore then countDelivered s1 c g add dead else some s1
    | .engineAck g q words code fail => if isCore then engineAcked s1 c g q words code fail else some s1
    | _ => none

/-- SLICE_TRANSLATE: a slice translates a packet (R338). -/
def execSliceTranslate (pkt : Nat) (s : State) : Host.Outcome State Fault Refusal :=
  happens "SLICE_TRANSLATE" (sliceTranslate s pkt)

/-- TABLE_WALK_READ: a read of a walk returns (R339). -/
def execTableWalkRead (pkt : Nat) (s : State) : Host.Outcome State Fault Refusal :=
  happens "TABLE_WALK_READ" (walkRead s pkt)

/-- MESSAGE_PERFORM: a message is performed at its home, or fails (R267). -/
def execMessagePerform (pkt : Nat) (s : State) : Host.Outcome State Fault Refusal :=
  happens "MESSAGE_PERFORM" (messagePerform s pkt)

/-- HELD_MESSAGES_RELEASE: a held message is performed (R280). -/
def execHeldMessagesRelease (core : Nat) (s : State) : Host.Outcome State Fault Refusal :=
  happens "HELD_MESSAGES_RELEASE" (releaseHeld s core)

/-- ACK_RECEIVE: an acknowledgement returns (R196). -/
def execAckReceive (pkt : Nat) (s : State) : Host.Outcome State Fault Refusal :=
  happens "ACK_RECEIVE" (ackReceive s pkt)

/-- STFE_ARRIVE: an STFE is performed or queued (R201). -/
def execStfeArrive (pkt : Nat) (s : State) : Host.Outcome State Fault Refusal :=
  happens "STFE_ARRIVE" (stfeArrive s pkt)

end Sys2Proof.Machine
end

