-- ==== Sys2Proof/Machine/EvRepair.lean ====
section
/-! DEFINITION. Soft errors, scrubbing, via columns, error logs (spec/20 R411-R416). -/

namespace Sys2Proof.Machine

/-! ### Soft errors (R411-R413) -/

/-- Lines of the cube's DRAM (spec/00 R3). -/
def dramLines : Nat := 2 ^ 34

/-- The words of a packet's payload that keep their poison: those of a store or an atomic, of an answer, of engine data, a
vector, a tensor, a message, the registers of a ferry. What poison does to another payload the spec does not say (log 51).
-/
def payloadPoison (b : Body) (i : Nat) : Option Body :=
  let mark (ps : List Bool) : List Bool := ps.set i true
  match b with
  | .engineData g p d ps => if i < ps.length then some (.engineData g p d (mark ps)) else none
  | .landed g p d ps => if i < ps.length then some (.landed g p d (mark ps)) else none
  | .tensor t =>
    let per := 8 / max 1 (256 / max 1 t.elems.length)
    if i < 32 then
      some (.tensor { t with poison := (List.range t.elems.length).map fun j => t.poison.getD j false || j / max 1 per == i })
    else none
  | .bdot cfg v k q _ => if i < 16 then some (.bdot cfg v k q true) else none
  | .access _ | .request _ | .reply _ _ _ => if i == 0 then some b else none
  | .message _ ws _ _ _ => if i < ws.length then some b else none
  | .ferry _ => if 2 ≤ i && i < 13 then some b else none
  | _ => none

/-- A register of a resident thread breaks: the chain that reads it raises POISON (R411). -/
def breakReg (s : State) (c slot : Nat) (r : Res) (ok : Thread → Bool) : Option State :=
  match s.thread? c slot with
  | none => none
  | some t =>
    if ok t then some (logError (s.setThread c slot { t with parity := r :: t.parity.filter (· != r) }) (dieOf c) 3 true c 0)
    else none

/-- A word of a store of a core is poisoned. -/
def breakWord (s : State) (c store w : Nat) : State :=
  s.modCore c fun k => { k with poison := k.poison.filter (· != (store, w)) ++ [(store, w)] }

/-- An error of a word of SRAM (R411). -/
def sramError (s : State) (c store w : Nat) (corrected : Bool) : Option State :=
  let words := match store with | 0 => 2 ^ 19 | 1 => 2 ^ 18 | _ => 2 ^ 15
  if 1028 ≤ c || words ≤ w then none
  else some (logError (if corrected then s else breakWord s c store w) (dieOf c) 2 (!corrected) c (s.ep c))

/-- An error of a word of a cached line. -/
def cacheError (s : State) (c line w : Nat) (corrected : Bool) : Option State :=
  match (s.core c).cached line with
  | none => none
  | some l =>
    if 1028 ≤ c || 4 ≤ w then none
    else
      let s1 := if corrected then s
        else s.modCore c fun k => { k with cache := k.cache.map fun x =>
          if x.line == l.line then { x with poison := x.poison ||| BitVec.ofNat 4 (2 ^ w) } else x }
      some (logError s1 (dieOf c) 2 (!corrected) c (32 * line + 8 * w))

/-- The core that observes an error of a packet: its destination in this cube, else its source. -/
def observer (s : State) (p : Packet) : Nat :=
  let d := if epCube p.dst == s.logical then epCore p.dst else epCore p.src
  if d < 1028 then d else 1024

/-- An error of a packet in the mesh (R411): a broken payload word is delivered poisoned, a packet with a broken header is
dropped. -/
def meshError (s : State) (id : Nat) (word' : Option Nat) (corrected : Bool) : Option State :=
  match s.packet? id with
  | none => none
  | some p =>
    let c := observer s p
    let log (s : State) : State := logError s (dieOf c) 4 (!corrected) c p.src
    if p.stage != .home && p.stage != .slice then none
    else if corrected then some (log s)
    else match word' with
      | none => some (log (s.modPacket id fun p => { p with stage := .lost, since := s.time }))
      | some i =>
        match payloadPoison p.body i with
        | none => none
        | some b =>
          some (log (s.modPacket id fun p => { p with body := b, bad := i :: p.bad.filter (· != i) }))

/-- SOFT_ERROR: an error at a place is corrected, or has the fate that R411 gives it; either is logged (R413). -/
def softError (s : State) (site : ErrSite) (corrected : Bool) : Option State :=
  match site with
  | .dram line =>
    if dramLines ≤ line then none
    else
      let s1 := if corrected then s
        else { s with dramBad := s.dramBad.filter (fun w => w / 4 != line) ++ (List.range 4).map fun i => 4 * line + i }
      some (logDram s1 (!corrected) line)
  | .lstore c w => sramError s c 0 w corrected
  | .bstore c w => sramError s c 1 w corrected
  | .istore c w => sramError s c 2 w corrected
  | .cache c line w => cacheError s c line w corrected
  | .meshPayload id i => meshError s id (some i) corrected
  | .meshHeader id => meshError s id none corrected
  | .greg c slot r => if corrected then none else breakReg s c slot (.g r) fun _ => decide (r < 10)
  | .predWord c slot => if corrected then none else breakReg s c slot .flags fun _ => true
  | .vreg c slot r => if corrected then none else breakReg s c slot (.v r) fun t => decide (r < t.leaseSize)
  | .vmask c slot r => if corrected then none else breakReg s c slot (.m r) fun t => t.hasLease && decide (r < 4)

/-- DRAM_SCRUB: a port reads a line and writes corrected data back (R412): no value changes. What the read finds is a
SOFT_ERROR of the line. -/
def dramScrub (s : State) (line : Nat) : Option State := if line < dramLines then some s else none

/-- MESH_PACKET_TIMEOUT: a packet that the mesh dropped has not been acknowledged for 2^20 cycles and is lost (R411, spec/19
R402). -/
def meshTimeout (s : State) (id : Nat) : Option State :=
  match s.packet? id with
  | none => none
  | some p =>
    if p.stage != .lost || s.time < p.since + 2 ^ 20 then none
    else some (reportLoss (s.dropPacket id) p p.id 2)

/-! ### Via columns (R414, R415) -/

/-- What bring-up and repair can find of a bus after what it was (R414): connections only fail, and spares are only used. -/
def busStep (v : Vert) (state nbad spare : Nat) : Bool :=
  v.state < state && state ≤ 2 && v.nbad ≤ nbad && nbad ≤ 1023 && spare == 0 && 64 < nbad

/-- VERTICAL_BUS_CHANGE: a column's bus changes state (R415): the table, the log, a link event. -/
def busChange (s : State) (col state nbad spare : Nat) : Option State :=
  let v := tgetD s.vert col {}
  if 128 ≤ col || !busStep v state nbad spare then none
  else
    let s1 := { s with vert := tset s.vert col ⟨state, nbad, spare, (v.nchg + 1) % 2 ^ 32⟩ }
    some (linkEvent (logError s1 (Config.columnDie col % 4) 6 (state == 2) col 0) 4 (word col) (word state))

/-- ELOG_HEAD_READ: the oldest record of a die's ring is read and freed (R413). -/
def elogRead (s : State) (die : Nat) : Option State :=
  if 4 ≤ die || (s.log die).recs.isEmpty then none else some (freeRecord s die)

/-- SOFT_ERROR: an error is corrected or becomes poison, and is logged (R411). -/
def execSoftError (site : ErrSite) (corrected : Bool) (s : State) : Host.Outcome State Fault Refusal :=
  happens "SOFT_ERROR" (softError s site corrected)

/-- DRAM_SCRUB: a line is scrubbed (R412). -/
def execDramScrub (line : Nat) (s : State) : Host.Outcome State Fault Refusal :=
  happens "DRAM_SCRUB" (dramScrub s line)

/-- MESH_PACKET_TIMEOUT: a packet that the mesh dropped is lost (R411). -/
def execMeshPacketTimeout (pkt : Nat) (s : State) : Host.Outcome State Fault Refusal :=
  happens "MESH_PACKET_TIMEOUT" (meshTimeout s pkt)

/-- VERTICAL_BUS_CHANGE: a vertical bus changes state (R415). -/
def execVerticalBusChange (column state nbad spare : Nat) (s : State) : Host.Outcome State Fault Refusal :=
  happens "VERTICAL_BUS_CHANGE" (busChange s column state nbad spare)

/-- ELOG_HEAD_READ: a record of an error log is freed (R413). -/
def execElogHeadRead (die : Nat) (s : State) : Host.Outcome State Fault Refusal :=
  happens "ELOG_HEAD_READ" (elogRead s die)

end Sys2Proof.Machine
end

