-- ==== Sys2Proof/Machine/EvStop.lean ====
section
/-! DEFINITION. Stops, the halt tree and buoys (spec/16 R349-R354, R364-R367). -/

namespace Sys2Proof.Machine

/-- A request of the halt tree reaches the compute cores of its partition here (R353, R354). -/
def haltDeliver (s : State) (part : Nat) (stop : Bool) : Option State :=
  let mine (p : Packet) : Bool :=
    epCore p.dst == barrierPort && (match p.body with | .haltReq q t => q == part && t == stop | _ => false) &&
    (arriving s p.id).isSome
  match s.net.find? mine with
  | none => none
  | some p =>
    let s1 := s.dropPacket p.id
    some ((partition s1 part).foldl (if stop then haltCore else releaseCore 4) s1)

/-- A stop word of a compute core's block takes effect (R350). -/
def coreOp (s : State) (core op slot : Nat) : Option State :=
  if 1024 ≤ core || 64 ≤ slot then none else stopOp s core op slot {}

/-- A stop word with a group identity takes effect (R350). -/
def groupOp (s : State) (op : Nat) (g : BitVec 30) : Option State := stopOp s 0 op 0 (groupOf30 g.toNat)

/-! ### Buoys (R364-R367) -/

/-- The packet stands at a core of this cube: arrived in order, held there, or a ferry that waits for a context. -/
def standsAt (s : State) (p : Packet) : Bool :=
  epCube p.dst == s.logical && epIsCore (epCore p.dst) &&
  ((arriving s p.id).isSome || p.stage == .held ||
    (p.stage == .queued && (match p.body with | .ferry _ => true | _ => false)))

/-- Claimed packets go on in the order in which they arrived (R366). -/
def firstClaimed (s : State) (v : Nat) (p : Packet) : Bool :=
  (earlier s.net p).all fun q => !(q.dst == p.dst && q.ordered && standsAt s q && (claimedBy s v q).isSome)

/-- Send a packet on from a core to another endpoint. -/
def passOn (s : State) (p : Packet) (v t : Nat) : State :=
  let s1 := s.dropPacket p.id
  let s2 := s1.modCore v fun k => { k with inbox := k.inbox.filter (· != p.id), spill := k.spill.filter (fun x => x.1 != p.id) }
  { s2 with net := s2.net ++ [{ p with
      dst := t, via := some (s.ep v), stage := if epCube t == s.logical then .home else .gateway }] }

/-- The first forwarding of an ordered-class packet of a source tells the source (R366). -/
def tellSource (s : State) (v i : Nat) (b : Buoy) (p : Packet) : State :=
  let b1 := { b with last := s.cyc v }
  if !p.ordered || b.told.contains p.src then s.modCore v fun k => { k with buoys := tset k.buoys i b1 }
  else
    let s1 := s.modCore v fun k => { k with buoys := tset k.buoys i { b1 with told := p.src :: b.told } }
    s1.send (directPacket s1 (s.ep v) p.src 2 0 0 (.relocNotice (s.ep v) b.target b.key))

/-- The buoy of a key at a core that has told a source. -/
def buoyFor (k : CoreSt) (src key : Nat) : Option Buoy :=
  (k.buoys.find? fun b => b.2.key == key && b.2.told.contains src).map (·.2)

/-- BUOY_FORWARD: a claimed packet is forwarded; a relocation fence follows it (R365, R366). -/
def buoyForward (s : State) (id : Nat) : Option State :=
  match s.packet? id with
  | none => none
  | some p =>
    let v := epCore p.dst
    match p.body with
    | .relocFence from' cls key =>
      if (arriving s id).isNone || p.dst != from' || !firstClaimed s v p then none
      else match buoyFor (s.core v) p.src key with
        | some b => some (passOn s p v b.target)
        | none => some ((s.dropPacket id).send (directPacket s p.dst p.src 2 0 0 (.relocAck from' cls key)))
    | _ =>
      if !standsAt s p || (s.core v).sealed || !firstClaimed s v p then none
      else match claimedBy s v p with
        | none => none
        | some (i, b) => some (tellSource (passOn s p v b.target) v i b p)

/-- Packets of a core that wait for a relocation fence (R366): those whose domain holds the key of the redirect. -/
def waitsFor (s : State) (c v key : Nat) (cls : Option Nat) (p : Packet) : Bool :=
  p.stage == .waiting && p.src == s.ep c && p.dst == v && (s.spaceEntry p.dom).holds key && (cls.isNone || cls == some p.urg)

/-- Send waiting packets to an endpoint, in their order. -/
def releaseWaiting (s : State) (c v key : Nat) (cls : Option Nat) (to' : Nat) : State :=
  let go := s.net.filter (waitsFor s c v key cls)
  { s with net := (s.net.filter fun p => !waitsFor s c v key cls p) ++ go.map fun p =>
      { p with dst := to', stage := if epCube to' == s.logical then .home else .gateway } }

/-- RELOCATION_NOTICE: a source enters the redirect and sends a fence in each urgency class (R366). -/
def relocationNotice (s : State) (id : Nat) : Option State :=
  match arriving s id with
  | none => none
  | some p =>
    match p.body with
    | .relocNotice v t key =>
      let c := epCore p.dst
      if 1028 ≤ c then none
      else
        let k := s.core c
        let others := k.redirects.filter fun r => !(r.v == v && r.key == key)
        let s0 := s.dropPacket id
        let s1 := match others with
          | r :: _ => if others.length < 16 then s0 else releaseWaiting s0 c r.v r.key none r.v
          | [] => s0
        let kept := if others.length < 16 then others else others.drop 1
        let s2 := s1.modCore c fun k => { k with redirects := kept ++ [⟨v, t, key, [0, 1, 2]⟩] }
        some ([0, 1, 2].foldl (fun s cls =>
          s.send (directPacket s (s.ep c) v cls 0 0 (.relocFence v cls key))) s2)
    | _ => none

/-- RELOCATION_FENCE_ACK: the new place acknowledges a fence; the source then sends what waited for it (R366). -/
def relocationAck (s : State) (id : Nat) : Option State :=
  match arriving s id with
  | none => none
  | some p =>
    let s1 := s.dropPacket id
    match p.body with
    | .relocFence v cls key =>
      if p.dst == v then none else some (s1.send (directPacket s1 p.dst p.src 2 0 0 (.relocAck v cls key)))
    | .relocAck v cls key =>
      let c := epCore p.dst
      let k := s.core c
      let to' := ((k.redirects.find? fun r => r.v == v && r.key == key).map (·.t)).getD v
      let s2 := s1.modCore c fun k => { k with redirects := k.redirects.map fun r =>
        if r.v == v && r.key == key then { r with fences := r.fences.filter (· != cls) } else r }
      some (releaseWaiting s2 c v key (some cls) to')
    | _ => none

/-- BUOY_RETIRE: the steward clears a buoy that has claimed nothing for 16,777,216 cycles (R367). -/
def buoyRetire (s : State) (core slot : Nat) : Option State :=
  match tget (s.core core).buoys slot with
  | none => none
  | some b =>
    if bit s.splitc 3 && decide (b.last + 16777216 ≤ s.cyc core) then
      some (s.modCore core fun k => { k with buoys := tdel k.buoys slot })
    else none

/-- THREAD_STOP: op 0: a thread stops (R350). -/
def execThreadStop (core slot : Nat) (s : State) : Host.Outcome State Fault Refusal :=
  happens "THREAD_STOP" (coreOp s core 0 slot)

/-- GROUP_STOP: op 1: a group stops (R350). -/
def execGroupStop (group : BitVec 30) (s : State) : Host.Outcome State Fault Refusal :=
  happens "GROUP_STOP" (groupOp s 1 group)

/-- QUIRE_STOP: op 2: a quire stops (R350). -/
def execQuireStop (core : Nat) (s : State) : Host.Outcome State Fault Refusal :=
  happens "QUIRE_STOP" (coreOp s core 2 0)

/-- CORE_STOP: op 3: a core stops (R350). -/
def execCoreStop (core : Nat) (s : State) : Host.Outcome State Fault Refusal :=
  happens "CORE_STOP" (coreOp s core 3 0)

/-- THREAD_RELEASE: op 4: a thread stop ends (R350). -/
def execThreadRelease (core slot : Nat) (s : State) : Host.Outcome State Fault Refusal :=
  happens "THREAD_RELEASE" (coreOp s core 4 slot)

/-- GROUP_RELEASE: op 5: a group stop ends (R350). -/
def execGroupRelease (group : BitVec 30) (s : State) : Host.Outcome State Fault Refusal :=
  happens "GROUP_RELEASE" (groupOp s 5 group)

/-- QUIRE_RELEASE: op 6: a quire stop ends (R350). -/
def execQuireRelease (core : Nat) (s : State) : Host.Outcome State Fault Refusal :=
  happens "QUIRE_RELEASE" (coreOp s core 6 0)

/-- CORE_RELEASE: op 7: a core stop ends (R350). -/
def execCoreRelease (core : Nat) (s : State) : Host.Outcome State Fault Refusal :=
  happens "CORE_RELEASE" (coreOp s core 7 0)

/-- HALT_TREE_DELIVER: a halt or release reaches its partition (R353). -/
def execHaltTreeDeliver (part : Nat) (stop : Bool) (s : State) : Host.Outcome State Fault Refusal :=
  happens "HALT_TREE_DELIVER" (haltDeliver s part stop)

/-- BUOY_FORWARD: a buoy forwards a packet (R365). -/
def execBuoyForward (pkt : Nat) (s : State) : Host.Outcome State Fault Refusal :=
  happens "BUOY_FORWARD" (buoyForward s pkt)

/-- RELOCATION_NOTICE: a source learns of a relocation (R366). -/
def execRelocationNotice (pkt : Nat) (s : State) : Host.Outcome State Fault Refusal :=
  happens "RELOCATION_NOTICE" (relocationNotice s pkt)

/-- RELOCATION_FENCE_ACK: a relocation fence is acknowledged (R366). -/
def execRelocationFenceAck (pkt : Nat) (s : State) : Host.Outcome State Fault Refusal :=
  happens "RELOCATION_FENCE_ACK" (relocationAck s pkt)

/-- BUOY_RETIRE: an idle buoy is cleared (R367). -/
def execBuoyRetire (core slot : Nat) (s : State) : Host.Outcome State Fault Refusal :=
  happens "BUOY_RETIRE" (buoyRetire s core slot)

end Sys2Proof.Machine
end

