-- ==== Sys2Proof/Machine/EvTrigger.lean ====
section
/-! DEFINITION. Trigger entries (spec/14 R321-R323), ISTW and START at their targets (spec/07 R225). -/

namespace Sys2Proof.Machine

/-! ### Trigger entries (spec/14 R321-R323) -/

/-- Trigger entry e. -/
def State.trigger (s : State) (e : Nat) : Trigger := tgetD s.trig e {}

def State.setTrigger (s : State) (e : Nat) (t : Trigger) : State := { s with trig := tset s.trig e t }

/-- A bound entry hands its packet to a spawn front end for a datum (R322): a spawn from the owner's domain towards the
datum, or an unplaceable one. -/
def fire (s : State) (e : Nat) (t : Trigger) (datum : Word) : State :=
  if bits datum 63 56 != 0 || regionOf (eaOff datum) == .reserved || eaCube datum != s.logical then
    unplaceable s 56 t.packet t.owner 0x23 datum true
  else
    let s1 := feUse s t.owner
    s1.post (addressed s1 (triggerCore e) 0 0 0 true datum t.owner (feDom s1 t.owner).priv (.spawn t.packet datum none))

/-- Hand out held data in order. -/
def fireAll (s : State) (e : Nat) (t : Trigger) : List Word → State
  | [] => s
  | d :: rest => fireAll (fire s e t d) e t rest

/-- The fault message of an overflow (R322, spec/15 R331). -/
def overflowed (s : State) (e dom : Nat) (t : Trigger) : State :=
  let s1 := feUse s dom
  s1.faultMessage (feDom s1 dom) (s.ep (triggerCore e)) 6 0 0 dom 0 0 (triggerWord t)

/-- Hold a datum, or drop it where 64 are held (R322). -/
def holdDatum (s : State) (e poster : Nat) (datum : Word) : State :=
  let t := s.trigger e
  if t.held.length < 64 then s.setTrigger e { t with held := t.held ++ [datum] }
  else
    let t1 := { t with drops := min (t.drops + 1) (2 ^ 22 - 1), ovf := true }
    let s1 := s.setTrigger e t1
    if t.ovf then s1 else overflowed s1 e (if t.state == 0 then poster else t.owner) t1

/-- TRIGGER_POST: a datum reaches its entry (R322). -/
def triggerPost (s : State) (id : Nat) : Option State :=
  match arriving s id with
  | none => none
  | some p =>
    match p.body with
    | .tpost e datum =>
      let c := epCore p.dst
      if 1028 ≤ c || !handledAt s c p then none
      else
        let s1 := (s.dropPacket id).countPacket p c
        let t := s1.trigger e
        some (if t.state == 1 then fire s1 e t datum else holdDatum s1 e p.dom datum)
    | _ => none

/-- Install a packet: held data is handed to it in order, and the binding is accepted (R323). -/
def installTrigger (s : State) (e dom : Nat) (ws : List Word) (p : Packet) : State :=
  let t := s.trigger e
  let t1 : Trigger := { t with state := 1, owner := dom, packet := ws, held := [] }
  acknowledge (fireAll ((s.dropPacket p.id).setTrigger e t1) e t1 t.held) p none

/-- TRIGGER_BIND: TBIND reaches its entry, or a rebinding ends (R323). -/
def triggerBind (s : State) (id : Nat) : Option State :=
  match s.packet? id with
  | none => none
  | some p =>
    match p.body with
    | .tbind e packet =>
      let t := s.trigger e
      if p.stage == .queued then packet.map fun ws => installTrigger s e p.dom ws p
      else if (arriving s id).isNone then none
      else
        let c := epCore p.dst
        if t.state != 0 && t.owner != p.dom then
          some (acknowledge (s.dropPacket id) p (some ⟨cPERM, 4, p.addr⟩))
        else if t.state == 2 then none
        else
          let s0 := s.countPacket p c
          match packet with
          | none =>
            let t1 : Trigger := if t.state == 0 then t else { t with state := 0, owner := 0, packet := [] }
            some (acknowledge ((s0.dropPacket id).setTrigger e t1) p none)
          | some ws =>
            if t.state == 0 then some (installTrigger s0 e p.dom ws p)
            else some ((s0.setTrigger e { t with state := 2 }).modPacket id fun p => { p with stage := .queued })
    | _ => none

/-! ### Instruction words (spec/07 R225) -/

/-- ISTW_PERFORM: eight bytes reach the instruction store; a fetch may see them until START makes them visible. -/
def istwPerform (s : State) (id : Nat) : Option State :=
  match arriving s id with
  | none => none
  | some p =>
    match p.body with
    | .istw off x =>
      let c := epCore p.dst
      if 1028 ≤ c then none
      else some (acknowledge (((s.dropPacket id).countPacket p c).modCore c fun k =>
        { k with istNew := k.istNew.filter (fun e => !(e.1 == p.src && e.2.1 == off / 8)) ++ [(p.src, off / 8, x)] }) p none)
    | _ => none

/-- The words that a source has written become visible, and are clean (spec/09 R278). -/
def visibleWords (k : CoreSt) (src : Nat) : CoreSt :=
  let ws := k.istNew.filter fun e => e.1 == src
  { k with
    istore := ws.foldl (fun m e => m.write (8 * e.2.1) 8 e.2.2.toNat) k.istore, istNew := k.istNew.filter fun e => e.1 != src,
    poison := k.poison.filter fun w => !(w.1 == 2 && ws.any fun e => e.2.1 == w.2) }

/-- START_PERFORM: written words become visible, and a task packet goes to the spawn front end of the core's cluster (R225,
spec/14 R313). -/
def startPerform (s : State) (id : Nat) : Option State :=
  match arriving s id with
  | none => none
  | some p =>
    match p.body with
    | .start packet =>
      let c := epCore p.dst
      if 1028 ≤ c then none
      else
        let s1 := acknowledge (((s.dropPacket id).countPacket p c).modCore c fun k => visibleWords k p.src) p none
        match packet with
        | none => some s1
        | some ws =>
          some (s1.send { directPacket s1 p.src (frontEp s1.logical (56 + clusterOf (c % 1024) % 8)) p.urg p.uid p.slot
            (.spawn ws 0 (some c)) with dom := p.dom, priv := p.priv, key := p.key })
    | _ => none

/-- TRIGGER_POST: a datum reaches a trigger entry (R322). -/
def execTriggerPost (pkt : Nat) (s : State) : Host.Outcome State Fault Refusal :=
  happens "TRIGGER_POST" (triggerPost s pkt)

/-- TRIGGER_BIND: a binding reaches a trigger entry, or ends (R323). -/
def execTriggerBind (pkt : Nat) (s : State) : Host.Outcome State Fault Refusal :=
  happens "TRIGGER_BIND" (triggerBind s pkt)

/-- TRIGGER_OVF_CLEAR: the overflow flag is cleared (R321). -/
def execTriggerOvfClear (entry : Nat) (s : State) : Host.Outcome State Fault Refusal :=
  happens "TRIGGER_OVF_CLEAR" (if entry < 256 then some (clearOvf s entry) else none)

/-- ISTW_PERFORM: instruction words are written (R225). -/
def execIstwPerform (pkt : Nat) (s : State) : Host.Outcome State Fault Refusal :=
  happens "ISTW_PERFORM" (istwPerform s pkt)

/-- START_PERFORM: written instruction words become visible (R225). -/
def execStartPerform (pkt : Nat) (s : State) : Host.Outcome State Fault Refusal :=
  happens "START_PERFORM" (startPerform s pkt)

end Sys2Proof.Machine
end

