-- ==== Sys2Proof/Machine/FullEmpty.lean ====
section
/-! DEFINITION. Full/empty instructions (spec/07 R200-R202). -/

namespace Sys2Proof.Machine



/-- LDFE: load when full, then empty (R200). -/
def execLdfe (c : Chain) (s : State) : Host.Outcome State Fault Refusal :=
  issueChain .ldfe c (loadBody .ldfe false) s

/-- LDFF: load when full (R200). -/
def execLdff (c : Chain) (s : State) : Host.Outcome State Fault Refusal :=
  issueChain .ldff c (loadBody .ldff false) s

/-- STFE: store when empty, then full (R200). -/
def execStfe (c : Chain) (s : State) : Host.Outcome State Fault Refusal :=
  issueChain .stfe c (messageBody .stfe false) s

/-- STFF: store and set full (R200). -/
def execStff (c : Chain) (s : State) : Host.Outcome State Fault Refusal :=
  issueChain .stff c (messageBody .stff false) s

/-- FECLR: set empty (R200). -/
def execFeclr (c : Chain) (s : State) : Host.Outcome State Fault Refusal :=
  issueChain .feclr c (messageBody .feclr false) s

end Sys2Proof.Machine
end

