-- ==== Sys2Proof/Machine/Gate.lean ====
section
/-! DEFINITION. Gate calls, TRAP and TRET (spec/07 R211-R214, R219; spec/15 R346-R348). -/

namespace Sys2Proof.Machine

/-- A gate-table entry (spec/15 R346). -/
structure GateEntry where
  w0 : Word
  w1 : Word
  w2 : Word
  w3 : Word
  deriving DecidableEq, Repr

/-- Entry n of the gate table of a domain entry, in the core's local store. DESIGN CHOICE (log 107): a poisoned word of the
table is read as it stands; the spec names no consumption by a gate call. -/
def gateEntry (k : CoreSt) (e : DomCopy) (n : Nat) : GateEntry :=
  let a := e.gtoff + 32 * n
  ⟨k.lstore.dword a, k.lstore.dword (a + 8), k.lstore.dword (a + 16), k.lstore.dword (a + 24)⟩

/-- The entry is valid (spec/15 R346). -/
def GateEntry.ok (g : GateEntry) : Bool :=
  bit g.w0 63 && bits g.w0 62 56 == 0 && !bit g.w0 26 && bits g.w0 25 10 == 0 && bits g.w1 63 54 == 0 &&
  bits g.w1 31 23 == 0 && bits g.w1 53 32 % 8 == 0 && decide (bits g.w1 22 0 ≤ 4194304) && bits g.w2 63 24 == 0 &&
  (bits g.w2 11 0 &&& bits g.w2 23 12) == bits g.w2 11 0 && g.w3 == 0

/-- The entry admits a caller domain (spec/15 R346). -/
def GateEntry.admits (g : GateEntry) (dom : Nat) : Bool := (dom &&& bits g.w2 23 12) == bits g.w2 11 0

/-- The argument window lies in the target's guard (spec/15 R347). -/
def GateEntry.window (g : GateEntry) (target : DomCopy) : Bool :=
  bits g.w1 22 0 == 0 || target.guard (bits g.w1 53 32) (bits g.w1 22 0)

/-- g0 to g9 with those whose bit is 0 zeroed (R211, R213). -/
def keepRegs (g : Vector Word 10) (mask : Nat) : Vector Word 10 :=
  Vector.ofFn fun i => if bit (BitVec.ofNat 10 mask) i.val then g[i] else 0

/-- The thread inside the callee (R211, R212). -/
def enterGate (x : Ctx) (t : Thread) (g : GateEntry) : Thread :=
  { t with
    gates := ⟨x.next, t.dom, t.pw⟩ :: t.gates, g := keepRegs t.g (bits g.w0 9 0), pw := gatePw t.pw,
    dom := bits g.w0 55 44,
    leaseGate := if t.hasLease then t.gates.length + 1 else t.leaseGate }

/-- GCALL (R211, R347). -/
def gcallBody (x : Ctx) (t : Thread) (s : State) : Out :=
  let n := x.immNat
  let k := s.core x.core
  let e := s.domEntry x.core t
  let g := gateEntry k e n
  let fail (detail : Nat) : Out := x.trap cGATE detail (word n)
  if e.gtn ≤ n || !g.ok then fail 1
  else if !g.admits t.dom then fail 2
  else if 4 ≤ t.gates.length then fail 3
  else
    let k' := useDom k (bits g.w0 55 44)
    let target := domOf k' (bits g.w0 55 44)
    if !target.ok then fail 7
    else if !g.window target then fail 6
    else .jump ((s.setCore x.core k').setThread x.core x.slot (enterGate x t g)) (bits g.w0 43 26)

/-- The thread back in the caller of its innermost gate call (R213). -/
def leaveGate (t : Thread) (f : GateFrame) (rest : List GateFrame) : Thread :=
  { t with gates := rest, dom := f.dom, pw := f.pw,
           leaseGate := if t.leaseGate == t.gates.length then 0 else t.leaseGate }

/-- GRET (R213), and the unwinding from a handler that was entered inside the call (R214). -/
def gretBody (x : Ctx) (t : Thread) (s : State) : Out :=
  match t.gates with
  | [] => x.trap cGATE 4 (Config.gateAddr 4 s.freeCtr)
  | f :: rest =>
    let t' := leaveGate t f rest
    let s := s.modCore x.core fun k => useDom k f.dom
    if t.inHandler && t.gates.length == t.entryDepth then
      let g := (Vector.replicate 10 0).set 0 (word (2 ^ 63 + bits t.xcause 31 0))
      .jump (s.setThread x.core x.slot { t' with inHandler := false, g := g }) f.next
    else .jump (s.setThread x.core x.slot { t' with g := keepRegs t.g x.immNat }) f.next

/-- TRAP (R219): restart at the next chain. -/
def trapBody (x : Ctx) (_ : Thread) (_ : State) : Out :=
  .trap { cause := cTRAP, detail := x.immNat, xpc := x.next }

/-- TRET (R219): ILLOP outside a handler or above its entry depth; BADRET on a bad xpw; else leave the handler, and park at
the switch marker (spec/01 R35). -/
def tretBody (x : Ctx) (t : Thread) (s : State) : Out :=
  if !t.inHandler || t.entryDepth < t.gates.length then x.trap cILLOP
  else if pwReserved t.xpw || !fselOk (pwFsel t.xpw) then x.trap cBADRET
  else
    let s' := s.setThread x.core x.slot (leaveHandler t)
    .over (if x.c.marker then
        settle (s'.modThread x.core x.slot fun t => { t with status := .parked false }) x.core x.slot
      else s')

/-- GCALL: call a gate (R211). -/
def execGcall (c : Chain) (s : State) : Host.Outcome State Fault Refusal :=
  issueChain .gcall c (gcallBody) s

/-- GRET: return from a gate call (R213, R214). -/
def execGret (c : Chain) (s : State) : Host.Outcome State Fault Refusal :=
  issueChain .gret c (gretBody) s

/-- TRAP: raise TRAP (R219). -/
def execTrap (c : Chain) (s : State) : Host.Outcome State Fault Refusal :=
  issueChain .trap c (trapBody) s

/-- TRET: return from the handler (R219). -/
def execTret (c : Chain) (s : State) : Host.Outcome State Fault Refusal :=
  issueChain .tret c (tretBody) s

end Sys2Proof.Machine
end

