-- ==== Sys2Proof/Machine/LocalMem.lean ====
section
/-! DEFINITION. Local-window loads and stores (spec/04 R104, R105). -/

namespace Sys2Proof.Machine

/-- LDL (R104): the checks, then the extended value to d. -/
def ldlBody (x : Ctx) (t : Thread) (s : State) : Out :=
  match memAddr s x t with
  | .error w => .wait w
  | .ok (ea, s', p) =>
    match windowLoad (s'.core x.core) (s'.domEntry x.core t) ea (etBytes x.et) (etBytes x.et) with
    | .error e => x.raise e
    | .ok v => writeField s' x x.c.d (extendTo64 x.et v) p 0

/-- STL (R104): the low bytes of d to the local store. -/
def stlBody (x : Ctx) (t : Thread) (s : State) : Out :=
  match memAddr s x t with
  | .error w => .wait w
  | .ok (ea, s1, _) =>
    match readField s1 x t x.c.d with
    | .error w => .wait w
    | .ok (v, s2, _) =>
      match windowStore (s2.core x.core) (s2.domEntry x.core t) ea (etBytes x.et) (etBytes x.et) v.toNat with
      | .error e => x.raise e
      | .ok k => .done (s2.setCore x.core k)

/-- LDL: load from the local store of the core (R104). -/
def execLdl (c : Chain) (s : State) : Host.Outcome State Fault Refusal :=
  issueChain .ldl c (ldlBody) s

/-- STL: store to the local store of the core (R104). -/
def execStl (c : Chain) (s : State) : Host.Outcome State Fault Refusal :=
  issueChain .stl c (stlBody) s

end Sys2Proof.Machine
end

