-- ==== Sys2Proof/Machine/Row.lean ====
section
/-! DEFINITION. DRAM row commands (spec/06 R183). -/

namespace Sys2Proof.Machine

/-- An address that a row command answers with code 5 (R183): in a local store, a B-store, the configuration region or
reserved. -/
def rowTargetBad (a : Word) : Bool :=
  match regionOf (eaOff a) with
  | .dram => false
  | _ => true

/-- The operation of a row command after its checks. -/
def rowOp (s : State) (x : Ctx) (t : Thread) (kind : Nat) (gd ga : Word) : CopyOp :=
  let op : CopyOp :=
    { kind := kind, seq := t.cseq, tag := x.immNat, uid := t.uid, slot := x.slot, group := t.group, task := t.task,
      dom := t.dom, priv := (s.domEntry x.core t).priv, key := (s.core x.core).owner, scope := 3, urg := false,
      nt := false, dst := gd.toNat, src := ga.toNat, gb := 2048, total := 2048 }
  { op with phase :=
    if rowTargetBad gd || rowTargetBad ga then .done 5
    else if eaCube gd != eaCube ga then .done 4 else .register }

/-- ROWCOPY and ROWZERO after their operands have been read (R183). -/
def rowIssue (kind : Nat) (x : Ctx) (t : Thread) (gd ga : Word) (s : State) : Out :=
  if isWindow gd || isWindow ga then x.trap cILLOP
  else if gd.toNat % 2048 != 0 then x.trap cALIGN 0 gd
  else if ga.toNat % 2048 != 0 then x.trap cALIGN 0 ga
  else if copyRoom (s.core x.core) t then .done (enterCopy s x.core x.slot (rowOp s x t kind gd ga))
  else .wait (.push 1)

/-- ROWCOPY (R183). -/
def rowcopyBody (x : Ctx) (t : Thread) (s : State) : Out :=
  match readField s x t x.c.d with
  | .error w => .wait w
  | .ok (gd, s1, _) =>
    match readField s1 x t x.c.a with
    | .error w => .wait w
    | .ok (ga, s2, _) => rowIssue 4 x t gd ga s2

/-- ROWZERO (R183). -/
def rowzeroBody (x : Ctx) (t : Thread) (s : State) : Out :=
  match readField s x t x.c.d with
  | .error w => .wait w
  | .ok (gd, s1, _) => rowIssue 5 x t gd gd s1

/-- ROWCOPY: copy a DRAM row (R183). -/
def execRowcopy (c : Chain) (s : State) : Host.Outcome State Fault Refusal :=
  issueChain .rowcopy c (rowcopyBody) s

/-- ROWZERO: zero a DRAM row (R183). -/
def execRowzero (c : Chain) (s : State) : Host.Outcome State Fault Refusal :=
  issueChain .rowzero c (rowzeroBody) s

end Sys2Proof.Machine
end

