-- ==== Sys2Proof/Machine/Scalar.lean ====
section
/-! DEFINITION. Scalar integer, predicate and move instructions of page 0 (spec/04 R93-R100). -/

namespace Sys2Proof.Machine

/-! ### Functions -/

/-- Bits [127:64] of the exact signed product (R93). -/
def mulHigh (x y : Word) : Word := BitVec.ofInt 64 (x.toInt * y.toInt / 2 ^ 64)
/-- Bits [127:64] of the exact natural product (R93). -/
def mulHighN (x y : Word) : Word := word (x.toNat * y.toNat / 2 ^ 64)
/-- DIV (R94): all ones by zero; the quotient truncated toward zero, wrapped. -/
def divS (x y : Word) : Word := if y == 0 then BitVec.allOnes 64 else BitVec.ofInt 64 (x.toInt.tdiv y.toInt)
/-- DIVN (R94). -/
def divN (x y : Word) : Word := if y == 0 then BitVec.allOnes 64 else word (x.toNat / y.toNat)
/-- REM (R94): x − quotient × y. -/
def remS (x y : Word) : Word := if y == 0 then x else BitVec.ofInt 64 (x.toInt.tmod y.toInt)
/-- REMN (R94). -/
def remN (x y : Word) : Word := if y == 0 then x else word (x.toNat % y.toNat)
/-- The shift count of a scalar shift (R93). -/
def shiftCount (y : Word) : Nat := bits y 5 0
/-- Smaller or larger as i64 or n64 (R93). -/
def minS (x y : Word) : Word := if x.slt y then x else y
def maxS (x y : Word) : Word := if x.slt y then y else x
def minN (x y : Word) : Word := if x.ult y then x else y
def maxN (x y : Word) : Word := if x.ult y then y else x
/-- ABS (R95). -/
def absW (x : Word) : Word := if x.slt 0 then -x else x
/-- Leading zeros, counted from bit k - 1 down (R95). -/
def clzFrom (x : Word) : Nat → Nat
  | 0 => 0
  | k + 1 => if bit x k then 0 else 1 + clzFrom x k
def clzW (x : Word) : Word := word (clzFrom x 64)
/-- Trailing zeros (R95): the leading zeros of the reversed word. -/
def brevW (x : Word) : Word := BitVec.ofNat 64 ((List.range 64).foldl (fun acc i => acc + flagBit (bit x i) (63 - i)) 0)
def ctzW (x : Word) : Word := clzW (brevW x)
/-- One bits (R95). -/
def popcW (x : Word) : Word := word ((List.range 64).foldl (fun acc i => acc + (bit x i).toNat) 0)
/-- Byte i of the result is byte 7 - i (R95). -/
def bswapW (x : Word) : Word :=
  word ((List.range 8).foldl (fun acc i => acc + x.toNat / 256 ^ i % 256 * 256 ^ (7 - i)) 0)

/-! ### Meanings -/

/-- MOV: d := a (R95). -/
def execMov (c : Chain) (s : State) : Host.Outcome State Fault Refusal :=
  issueChain .mov c (alu1 id) s

/-- NEG: d := wrap(-a) (R95). -/
def execNeg (c : Chain) (s : State) : Host.Outcome State Fault Refusal :=
  issueChain .neg c (alu1 (fun a => -a)) s

/-- NOT: d := NOT a (R95). -/
def execNot (c : Chain) (s : State) : Host.Outcome State Fault Refusal :=
  issueChain .not c (alu1 (fun a => ~~~ a)) s

/-- ABS: d := wrap(|a|) (R95). -/
def execAbs (c : Chain) (s : State) : Host.Outcome State Fault Refusal :=
  issueChain .abs c (alu1 absW) s

/-- CLZ: leading zero bits (R95). -/
def execClz (c : Chain) (s : State) : Host.Outcome State Fault Refusal :=
  issueChain .clz c (alu1 clzW) s

/-- CTZ: trailing zero bits (R95). -/
def execCtz (c : Chain) (s : State) : Host.Outcome State Fault Refusal :=
  issueChain .ctz c (alu1 ctzW) s

/-- POPC: one bits (R95). -/
def execPopc (c : Chain) (s : State) : Host.Outcome State Fault Refusal :=
  issueChain .popc c (alu1 popcW) s

/-- BREV: bits reversed (R95). -/
def execBrev (c : Chain) (s : State) : Host.Outcome State Fault Refusal :=
  issueChain .brev c (alu1 brevW) s

/-- BSWAP: bytes reversed (R95). -/
def execBswap (c : Chain) (s : State) : Host.Outcome State Fault Refusal :=
  issueChain .bswap c (alu1 bswapW) s

/-- SEXT: extend the low bits of a by the integer etype (R95). -/
def execSext (c : Chain) (s : State) : Host.Outcome State Fault Refusal :=
  issueChain .sext c (fun x => alu1 (fun a => extendTo64 x.et a.toNat) x) s

/-- ADD: x + y, wrapped (R93). -/
def execAdd (c : Chain) (s : State) : Host.Outcome State Fault Refusal :=
  issueChain .add c (alu2 (fun x y => x + y)) s

/-- SUB: x - y, wrapped (R93). -/
def execSub (c : Chain) (s : State) : Host.Outcome State Fault Refusal :=
  issueChain .sub c (alu2 (fun x y => x - y)) s

/-- MUL: x * y, wrapped (R93). -/
def execMul (c : Chain) (s : State) : Host.Outcome State Fault Refusal :=
  issueChain .mul c (alu2 (fun x y => x * y)) s

/-- MULH: high half of the signed product (R93). -/
def execMulh (c : Chain) (s : State) : Host.Outcome State Fault Refusal :=
  issueChain .mulh c (alu2 mulHigh) s

/-- MULHN: high half of the natural product (R93). -/
def execMulhn (c : Chain) (s : State) : Host.Outcome State Fault Refusal :=
  issueChain .mulhn c (alu2 mulHighN) s

/-- DIV: signed quotient, long (R94). -/
def execDiv (c : Chain) (s : State) : Host.Outcome State Fault Refusal :=
  issueChain .div c (alu2Long divS) s

/-- DIVN: natural quotient, long (R94). -/
def execDivn (c : Chain) (s : State) : Host.Outcome State Fault Refusal :=
  issueChain .divn c (alu2Long divN) s

/-- REM: signed remainder, long (R94). -/
def execRem (c : Chain) (s : State) : Host.Outcome State Fault Refusal :=
  issueChain .rem c (alu2Long remS) s

/-- REMN: natural remainder, long (R94). -/
def execRemn (c : Chain) (s : State) : Host.Outcome State Fault Refusal :=
  issueChain .remn c (alu2Long remN) s

/-- AND: x AND y (R93). -/
def execAnd (c : Chain) (s : State) : Host.Outcome State Fault Refusal :=
  issueChain .and c (alu2 (fun x y => x &&& y)) s

/-- OR: x OR y (R93). -/
def execOr (c : Chain) (s : State) : Host.Outcome State Fault Refusal :=
  issueChain .or c (alu2 (fun x y => x ||| y)) s

/-- XOR: x XOR y (R93). -/
def execXor (c : Chain) (s : State) : Host.Outcome State Fault Refusal :=
  issueChain .xor c (alu2 (fun x y => x ^^^ y)) s

/-- ANDN: x AND NOT y (R93). -/
def execAndn (c : Chain) (s : State) : Host.Outcome State Fault Refusal :=
  issueChain .andn c (alu2 (fun x y => x &&& ~~~ y)) s

/-- SHL: shift left by y[5:0] (R93). -/
def execShl (c : Chain) (s : State) : Host.Outcome State Fault Refusal :=
  issueChain .shl c (alu2 (fun x y => x <<< shiftCount y)) s

/-- SHR: logical shift right by y[5:0] (R93). -/
def execShr (c : Chain) (s : State) : Host.Outcome State Fault Refusal :=
  issueChain .shr c (alu2 (fun x y => x >>> shiftCount y)) s

/-- SAR: arithmetic shift right by y[5:0] (R93). -/
def execSar (c : Chain) (s : State) : Host.Outcome State Fault Refusal :=
  issueChain .sar c (alu2 (fun x y => x.sshiftRight (shiftCount y))) s

/-- ROL: rotate left by y[5:0] (R93). -/
def execRol (c : Chain) (s : State) : Host.Outcome State Fault Refusal :=
  issueChain .rol c (alu2 (fun x y => x.rotateLeft (shiftCount y))) s

/-- MIN: smaller as i64 (R93). -/
def execMin (c : Chain) (s : State) : Host.Outcome State Fault Refusal :=
  issueChain .min c (alu2 minS) s

/-- MAX: larger as i64 (R93). -/
def execMax (c : Chain) (s : State) : Host.Outcome State Fault Refusal :=
  issueChain .max c (alu2 maxS) s

/-- MINN: smaller as n64 (R93). -/
def execMinn (c : Chain) (s : State) : Host.Outcome State Fault Refusal :=
  issueChain .minn c (alu2 minN) s

/-- MAXN: larger as n64 (R93). -/
def execMaxn (c : Chain) (s : State) : Host.Outcome State Fault Refusal :=
  issueChain .maxn c (alu2 maxN) s

/-- CMPEQ: p := a = s (R97). -/
def execCmpeq (c : Chain) (s : State) : Host.Outcome State Fault Refusal :=
  issueChain .cmpeq c (cmp2 (fun a b => a == b)) s

/-- CMPNE: p := a /= s (R97). -/
def execCmpne (c : Chain) (s : State) : Host.Outcome State Fault Refusal :=
  issueChain .cmpne c (cmp2 (fun a b => a != b)) s

/-- CMPLT: p := a < s as i64 (R97). -/
def execCmplt (c : Chain) (s : State) : Host.Outcome State Fault Refusal :=
  issueChain .cmplt c (cmp2 (fun a b => a.slt b)) s

/-- CMPLE: p := a <= s as i64 (R97). -/
def execCmple (c : Chain) (s : State) : Host.Outcome State Fault Refusal :=
  issueChain .cmple c (cmp2 (fun a b => a.sle b)) s

/-- CMPLTN: p := a < s as n64 (R97). -/
def execCmpltn (c : Chain) (s : State) : Host.Outcome State Fault Refusal :=
  issueChain .cmpltn c (cmp2 (fun a b => a.ult b)) s

/-- CMPLEN: p := a <= s as n64 (R97). -/
def execCmplen (c : Chain) (s : State) : Host.Outcome State Fault Refusal :=
  issueChain .cmplen c (cmp2 (fun a b => a.ule b)) s

/-- TST: p := (a AND s) /= 0 (R97). -/
def execTst (c : Chain) (s : State) : Host.Outcome State Fault Refusal :=
  issueChain .tst c (cmp2 (fun a b => (a &&& b) != 0)) s

/-- PAND: predicate AND (R98). -/
def execPand (c : Chain) (s : State) : Host.Outcome State Fault Refusal :=
  issueChain .pand c (pred2 (fun p q => p && q)) s

/-- POR: predicate OR (R98). -/
def execPor (c : Chain) (s : State) : Host.Outcome State Fault Refusal :=
  issueChain .por c (pred2 (fun p q => p || q)) s

/-- PXOR: predicate XOR (R98). -/
def execPxor (c : Chain) (s : State) : Host.Outcome State Fault Refusal :=
  issueChain .pxor c (pred2 (fun p q => p != q)) s

/-- PNOT: pd := NOT pa (R98). -/
def execPnot (c : Chain) (s : State) : Host.Outcome State Fault Refusal :=
  issueChain .pnot c (fun x t s => writePred s x x.c.d.toNat (!pwPred t.pw x.c.a.toNat) false 0) s

/-- RDPW: d := the predicate word as it stood before the issue cleared PP (R99). -/
def execRdpw (c : Chain) (s : State) : Host.Outcome State Fault Refusal :=
  issueChain .rdpw c (fun x _ s => writeField s x x.c.d (x.pw ||| 1) false 0) s

/-- A value WRPW refuses (R99): a must-be-zero bit, FSEL without PP, or an FSEL that breaks R80. -/
def wrpwBad (a : Word) : Bool :=
  pwReserved a || (!pwPP a && pwFsel a != 0) || (pwPP a && !fselOk (pwFsel a))

/-- WRPW's effect (R99): the whole predicate word but p0. -/
def wrpwBody (x : Ctx) (t : Thread) (s : State) : Out :=
  match readField s x t x.c.a with
  | .error w => .wait w
  | .ok (a, s', popped) =>
    if wrpwBad a then x.trap cILLOP
    else if popped then .done (addPend s' x.core x.slot pwRes (some [.pw a]))
    else .done (s'.modThread x.core x.slot fun t => t.write (.pw a))

/-- WRPW: write the whole predicate word (R99). -/
def execWrpw (c : Chain) (s : State) : Host.Outcome State Fault Refusal :=
  issueChain .wrpw c (wrpwBody) s

/-- SEL's effect (R100): the guard field, negated by neg, selects a or b. -/
def selBody (x : Ctx) (t : Thread) (s : State) : Out :=
  match readField s x t x.c.a with
  | .error w => .wait w
  | .ok (a, s1, p1) =>
    match readField s1 x t x.c.b with
    | .error w => .wait w
    | .ok (b, s2, p2) => writeField s2 x x.c.d (if pwPred t.pw x.c.guard.toNat != x.c.neg then a else b) (p1 || p2) 0

/-- SEL: d := a or b by the selecting predicate (R100). -/
def execSel (c : Chain) (s : State) : Host.Outcome State Fault Refusal :=
  issueChain .sel c (selBody) s

/-- d := imm (R96). -/
def moviBody (x : Ctx) (_ : Thread) (s : State) : Out := writeField s x x.c.d x.imm false 0

/-- d := f(d, imm) of a form K instruction (R96). -/
def kImm (f : Word → Word → Word) (x : Ctx) (t : Thread) (s : State) : Out :=
  writeField s x x.c.d (f (t.scalar x.c.d) x.imm) false 0

/-- MOVI: d := imm (R96). -/
def execMovi (c : Chain) (s : State) : Host.Outcome State Fault Refusal :=
  issueChain .movi c (moviBody) s

/-- ADDI: d := d + imm, wrapped (R96). -/
def execAddi (c : Chain) (s : State) : Host.Outcome State Fault Refusal :=
  issueChain .addi c (kImm (fun d i => d + i)) s

/-- ANDI: d := d AND imm (R96). -/
def execAndi (c : Chain) (s : State) : Host.Outcome State Fault Refusal :=
  issueChain .andi c (kImm (fun d i => d &&& i)) s

end Sys2Proof.Machine
end

