-- ==== Sys2Proof/Machine/VecInt.lean ====
section
/-! DEFINITION. Integer vector instructions, masks, integer reductions and moves (spec/05 R129, R131-R133, R135). -/

namespace Sys2Proof.Machine

/-- d[i] := f(x[i], y[i]) on the bits of elements (R129). -/
def vi2 (f : Nat → Nat → Nat → Nat) (x : Ctx) (t : Thread) (s : State) : Out :=
  match vsources x t s with
  | .error o => o
  | .ok (a, b, s') =>
    let w := etWidth x.et
    let r := lanesOf x t (1024 / w) w (oldVec x t) fun i => (f x.et (lane w a i) (lane w b i), 0)
    writeVec s' x t r.1 false 0

/-- An integer function of the values of the elements, wrapped (R129). -/
def vwrap (f : Int → Int → Int) (et a b : Nat) : Nat := wrapTo (etWidth et) (f (intOf et a) (intOf et b))

/-- The high half of the exact product (R129). -/
def vmulh (et a b : Nat) : Nat := wrapTo (etWidth et) (intOf et a * intOf et b / 2 ^ etWidth et)

/-- The smaller or larger in the type. -/
def vmin (et a b : Nat) : Nat := if intOf et b < intOf et a then b else a
def vmax (et a b : Nat) : Nat := if intOf et a < intOf et b then b else a

/-- Shifts, the count modulo w (R129). -/
def vshl (et a b : Nat) : Nat := a * 2 ^ (b % etWidth et) % 2 ^ etWidth et
def vshr (et a b : Nat) : Nat := wrapTo (etWidth et) (intOf et a / 2 ^ (b % etWidth et))

/-- sat_int (R63). -/
def vsat (f : Int → Int → Int) (et a b : Nat) : Nat :=
  wrapTo (etWidth et) (clampInt (intMin et) (intMax et) (f (intOf et a) (intOf et b)))

/-- d[i] := f(a[i]). -/
def vi1 (f : Nat → Nat → Nat) (x : Ctx) (t : Thread) (s : State) : Out :=
  match readVec s x t x.c.va with
  | .error o => o
  | .ok (a, s') =>
    let w := etWidth x.et
    let r := lanesOf x t (1024 / w) w (oldVec x t) fun i => (f x.et (lane w a i), 0)
    writeVec s' x t r.1 false 0

def vabsI (et a : Nat) : Nat := wrapTo (etWidth et) (intOf et a).natAbs
def vnegI (et a : Nat) : Nat := wrapTo (etWidth et) (-(intOf et a))

/-- VIMAD: d + a × b, wrapped (R129). -/
def vimadBody (x : Ctx) (t : Thread) (s : State) : Out :=
  match vsourcesAB x t s with
  | .error o => o
  | .ok (a, b, s') =>
    let w := etWidth x.et
    let d := oldVec x t
    let r := lanesOf x t (1024 / w) w d fun i => ((lane w d i + lane w a i * lane w b i) % 2 ^ w, 0)
    writeVec s' x t r.1 false 0

/-- A compare into a mask (R131). -/
def vicmp (f : Int → Int → Bool) (x : Ctx) (t : Thread) (s : State) : Out :=
  match vsourcesAB x t s with
  | .error o => o
  | .ok (a, b, s') =>
    let w := etWidth x.et
    let r := lanesOf x t (1024 / w) 1 (oldMask x t) fun i =>
      (flagBit (f (intOf x.et (lane w a i)) (intOf x.et (lane w b i))) 0, 0)
    writeMask s' x r.1 false 0

/-- MAND, MOR, MXOR (R132). -/
def mask2 (f : BitVec 128 → BitVec 128 → BitVec 128) (x : Ctx) (t : Thread) (s : State) : Out :=
  let a := t.mask x.c.a.toNat
  let r := if x.c.hasReg then f a (t.mask x.c.b.toNat) else f (t.mask x.c.d.toNat) a
  .done (s.modThread x.core x.slot fun t => t.setMask x.c.d.toNat r)

/-- MNOT (R132). -/
def mnotBody (x : Ctx) (t : Thread) (s : State) : Out :=
  .done (s.modThread x.core x.slot fun u => u.setMask x.c.d.toNat (~~~ (t.mask x.c.a.toNat)))

/-- MPOP (R132). -/
def mpopBody (x : Ctx) (t : Thread) (s : State) : Out :=
  let m := t.mask x.c.a.toNat
  writeField s x x.c.d (word ((List.range 128).filter (bit m)).length) false 0

/-- MALL (R132). -/
def mallBody (x : Ctx) (_ : Thread) (s : State) : Out :=
  .done (s.modThread x.core x.slot fun u => u.setMask x.c.d.toNat (~~~ 0))

/-- The active elements of a as integers (R133). -/
def activeInts (x : Ctx) (t : Thread) (a : Nat) : List Int :=
  let w := etWidth x.et
  ((List.range (1024 / w)).filter (x.active t)).map fun i => intOf x.et (lane w a i)

/-- VIRSUM, VIRMIN, VIRMAX (R133): a fold from the value that no active element gives. -/
def vireduce (f : Int → Int → Int) (start : Nat → Int) (x : Ctx) (t : Thread) (s : State) : Out :=
  match readVec s x t x.c.va with
  | .error o => o
  | .ok (a, s') =>
    let r := (activeInts x t a).foldl f (start x.et)
    writeField s' x x.c.d (extendTo64 x.et (wrapTo (etWidth x.et) r)) true 0

/-- VPERM (R135). -/
def vpermBody (x : Ctx) (t : Thread) (s : State) : Out :=
  match vsourcesAB x t s with
  | .error o => o
  | .ok (a, b, s') =>
    let w := etWidth x.et
    let n := 1024 / w
    writeVec s' x t (packLanes w ((List.range n).map fun i => lane w a (lane w b i % n))) false 0

/-- VBCAST (R135). -/
def vbcastBody (x : Ctx) (t : Thread) (s : State) : Out :=
  match readField s x t x.c.a with
  | .error w => .wait w
  | .ok (a, s', _) =>
    let w := etWidth x.et
    writeVec s' x t (packLanes w (List.replicate (1024 / w) a.toNat)) false 0

/-- VEXT (R135): short. -/
def vextBody (x : Ctx) (t : Thread) (s : State) : Out :=
  writeField s x x.c.d (extendTo64 x.et (lane (etWidth x.et) (t.vreg x.c.va).toNat x.immNat)) false 0

/-- VINS (R135): short. -/
def vinsBody (x : Ctx) (t : Thread) (s : State) : Out :=
  match readField s x t x.c.a with
  | .error w => .wait w
  | .ok (a, s', p) =>
    let w := etWidth x.et
    let d := oldVec x t
    let v := packLanes w ((List.range (1024 / w)).map fun i => if i == x.immNat then a.toNat else lane w d i)
    if p then .done (addPend s' x.core x.slot [.v x.c.vd] (some [.v x.c.vd (BitVec.ofNat 1024 v)]))
    else .done (s'.modThread x.core x.slot fun u => u.setVreg x.c.vd (BitVec.ofNat 1024 v))

/-- VMOV (R135): each mask bit governs one byte. -/
def vmovBody (x : Ctx) (t : Thread) (s : State) : Out :=
  match readVec s x t x.c.va with
  | .error o => o
  | .ok (a, s') => writeVec s' x t (lanesOf x t 128 8 (oldVec x t) fun i => (lane 8 a i, 0)).1 false 0

/-- VIOTA (R135). -/
def viotaBody (x : Ctx) (t : Thread) (s : State) : Out :=
  let w := etWidth x.et
  writeVec s x t (lanesOf x t (1024 / w) w (oldVec x t) fun i => (i % 2 ^ w, 0)).1 false 0

/-- VSPLATI (R135). -/
def vsplatiBody (x : Ctx) (t : Thread) (s : State) : Out :=
  let w := etWidth x.et
  writeVec s x t (packLanes w (List.replicate (1024 / w) x.imm.toNat)) false 0

/-- VIADD: x + y (R129). -/
def execViadd (c : Chain) (s : State) : Host.Outcome State Fault Refusal :=
  issueChain .viadd c (vi2 (vwrap (· + ·))) s

/-- VISUB: x - y (R129). -/
def execVisub (c : Chain) (s : State) : Host.Outcome State Fault Refusal :=
  issueChain .visub c (vi2 (vwrap (· - ·))) s

/-- VIMUL: low half of the product (R129). -/
def execVimul (c : Chain) (s : State) : Host.Outcome State Fault Refusal :=
  issueChain .vimul c (vi2 (vwrap (· * ·))) s

/-- VIMULH: high half of the product (R129). -/
def execVimulh (c : Chain) (s : State) : Host.Outcome State Fault Refusal :=
  issueChain .vimulh c (vi2 vmulh) s

/-- VIMIN: smaller (R129). -/
def execVimin (c : Chain) (s : State) : Host.Outcome State Fault Refusal :=
  issueChain .vimin c (vi2 vmin) s

/-- VIMAX: larger (R129). -/
def execVimax (c : Chain) (s : State) : Host.Outcome State Fault Refusal :=
  issueChain .vimax c (vi2 vmax) s

/-- VAND (R129). -/
def execVand (c : Chain) (s : State) : Host.Outcome State Fault Refusal :=
  issueChain .vand c (vi2 (fun _ a b => a &&& b)) s

/-- VOR (R129). -/
def execVor (c : Chain) (s : State) : Host.Outcome State Fault Refusal :=
  issueChain .vor c (vi2 (fun _ a b => a ||| b)) s

/-- VXOR (R129). -/
def execVxor (c : Chain) (s : State) : Host.Outcome State Fault Refusal :=
  issueChain .vxor c (vi2 (fun _ a b => a ^^^ b)) s

/-- VSHL: shift left (R129). -/
def execVshl (c : Chain) (s : State) : Host.Outcome State Fault Refusal :=
  issueChain .vshl c (vi2 vshl) s

/-- VSHR: shift right in the type (R129). -/
def execVshr (c : Chain) (s : State) : Host.Outcome State Fault Refusal :=
  issueChain .vshr c (vi2 vshr) s

/-- VIADDS: saturating sum (R129). -/
def execViadds (c : Chain) (s : State) : Host.Outcome State Fault Refusal :=
  issueChain .viadds c (vi2 (vsat (· + ·))) s

/-- VISUBS: saturating difference (R129). -/
def execVisubs (c : Chain) (s : State) : Host.Outcome State Fault Refusal :=
  issueChain .visubs c (vi2 (vsat (· - ·))) s

/-- VIABS: magnitude, wrapped (R129). -/
def execViabs (c : Chain) (s : State) : Host.Outcome State Fault Refusal :=
  issueChain .viabs c (vi1 vabsI) s

/-- VINEG: negation, wrapped (R129). -/
def execVineg (c : Chain) (s : State) : Host.Outcome State Fault Refusal :=
  issueChain .vineg c (vi1 vnegI) s

/-- VIMAD: multiply and add (R129). -/
def execVimad (c : Chain) (s : State) : Host.Outcome State Fault Refusal :=
  issueChain .vimad c (vimadBody) s

/-- VICMPEQ (R131). -/
def execVicmpeq (c : Chain) (s : State) : Host.Outcome State Fault Refusal :=
  issueChain .vicmpeq c (vicmp (fun a b => a == b)) s

/-- VICMPLT (R131). -/
def execVicmplt (c : Chain) (s : State) : Host.Outcome State Fault Refusal :=
  issueChain .vicmplt c (vicmp (fun a b => decide (a < b))) s

/-- VICMPLE (R131). -/
def execVicmple (c : Chain) (s : State) : Host.Outcome State Fault Refusal :=
  issueChain .vicmple c (vicmp (fun a b => decide (a ≤ b))) s

/-- MAND (R132). -/
def execMand (c : Chain) (s : State) : Host.Outcome State Fault Refusal :=
  issueChain .mand c (mask2 (· &&& ·)) s

/-- MOR (R132). -/
def execMor (c : Chain) (s : State) : Host.Outcome State Fault Refusal :=
  issueChain .mor c (mask2 (· ||| ·)) s

/-- MXOR (R132). -/
def execMxor (c : Chain) (s : State) : Host.Outcome State Fault Refusal :=
  issueChain .mxor c (mask2 (· ^^^ ·)) s

/-- MNOT (R132). -/
def execMnot (c : Chain) (s : State) : Host.Outcome State Fault Refusal :=
  issueChain .mnot c (mnotBody) s

/-- MPOP: count of ones (R132). -/
def execMpop (c : Chain) (s : State) : Host.Outcome State Fault Refusal :=
  issueChain .mpop c (mpopBody) s

/-- MALL: all ones (R132). -/
def execMall (c : Chain) (s : State) : Host.Outcome State Fault Refusal :=
  issueChain .mall c (mallBody) s

/-- VIRSUM: sum of the active elements (R133). -/
def execVirsum (c : Chain) (s : State) : Host.Outcome State Fault Refusal :=
  issueChain .virsum c (vireduce (· + ·) (fun _ => 0)) s

/-- VIRMIN: least active element (R133). -/
def execVirmin (c : Chain) (s : State) : Host.Outcome State Fault Refusal :=
  issueChain .virmin c (vireduce min intMax) s

/-- VIRMAX: greatest active element (R133). -/
def execVirmax (c : Chain) (s : State) : Host.Outcome State Fault Refusal :=
  issueChain .virmax c (vireduce max intMin) s

/-- VPERM: permute (R135). -/
def execVperm (c : Chain) (s : State) : Host.Outcome State Fault Refusal :=
  issueChain .vperm c (vpermBody) s

/-- VBCAST: broadcast a scalar (R135). -/
def execVbcast (c : Chain) (s : State) : Host.Outcome State Fault Refusal :=
  issueChain .vbcast c (vbcastBody) s

/-- VEXT: extract an element (R135). -/
def execVext (c : Chain) (s : State) : Host.Outcome State Fault Refusal :=
  issueChain .vext c (vextBody) s

/-- VINS: insert an element (R135). -/
def execVins (c : Chain) (s : State) : Host.Outcome State Fault Refusal :=
  issueChain .vins c (vinsBody) s

/-- VMOV: move bytes under a mask (R135). -/
def execVmov (c : Chain) (s : State) : Host.Outcome State Fault Refusal :=
  issueChain .vmov c (vmovBody) s

/-- VIOTA: element numbers (R135). -/
def execViota (c : Chain) (s : State) : Host.Outcome State Fault Refusal :=
  issueChain .viota c (viotaBody) s

/-- VSPLATI: broadcast an immediate (R135). -/
def execVsplati (c : Chain) (s : State) : Host.Outcome State Fault Refusal :=
  issueChain .vsplati c (vsplatiBody) s

end Sys2Proof.Machine
end

