-- ==== Sys2Proof/Machine/Dispatch.lean ====
section
/-! DEFINITION. One arm per instruction: its meaning. -/

namespace Sys2Proof.Machine

/-- What an instruction or a step of the table does. -/
def exec (i : Instr) (s : State) : Host.Outcome State Fault Refusal :=
  match i with
  | .nop c => Sys2Proof.Machine.execNop c s
  | .mov c => Sys2Proof.Machine.execMov c s
  | .neg c => Sys2Proof.Machine.execNeg c s
  | .not c => Sys2Proof.Machine.execNot c s
  | .abs c => Sys2Proof.Machine.execAbs c s
  | .clz c => Sys2Proof.Machine.execClz c s
  | .ctz c => Sys2Proof.Machine.execCtz c s
  | .popc c => Sys2Proof.Machine.execPopc c s
  | .brev c => Sys2Proof.Machine.execBrev c s
  | .bswap c => Sys2Proof.Machine.execBswap c s
  | .sext c => Sys2Proof.Machine.execSext c s
  | .add c => Sys2Proof.Machine.execAdd c s
  | .sub c => Sys2Proof.Machine.execSub c s
  | .mul c => Sys2Proof.Machine.execMul c s
  | .mulh c => Sys2Proof.Machine.execMulh c s
  | .mulhn c => Sys2Proof.Machine.execMulhn c s
  | .div c => Sys2Proof.Machine.execDiv c s
  | .divn c => Sys2Proof.Machine.execDivn c s
  | .rem c => Sys2Proof.Machine.execRem c s
  | .remn c => Sys2Proof.Machine.execRemn c s
  | .and c => Sys2Proof.Machine.execAnd c s
  | .or c => Sys2Proof.Machine.execOr c s
  | .xor c => Sys2Proof.Machine.execXor c s
  | .andn c => Sys2Proof.Machine.execAndn c s
  | .shl c => Sys2Proof.Machine.execShl c s
  | .shr c => Sys2Proof.Machine.execShr c s
  | .sar c => Sys2Proof.Machine.execSar c s
  | .rol c => Sys2Proof.Machine.execRol c s
  | .min c => Sys2Proof.Machine.execMin c s
  | .max c => Sys2Proof.Machine.execMax c s
  | .minn c => Sys2Proof.Machine.execMinn c s
  | .maxn c => Sys2Proof.Machine.execMaxn c s
  | .cmpeq c => Sys2Proof.Machine.execCmpeq c s
  | .cmpne c => Sys2Proof.Machine.execCmpne c s
  | .cmplt c => Sys2Proof.Machine.execCmplt c s
  | .cmple c => Sys2Proof.Machine.execCmple c s
  | .cmpltn c => Sys2Proof.Machine.execCmpltn c s
  | .cmplen c => Sys2Proof.Machine.execCmplen c s
  | .tst c => Sys2Proof.Machine.execTst c s
  | .pand c => Sys2Proof.Machine.execPand c s
  | .por c => Sys2Proof.Machine.execPor c s
  | .pxor c => Sys2Proof.Machine.execPxor c s
  | .pnot c => Sys2Proof.Machine.execPnot c s
  | .rdpw c => Sys2Proof.Machine.execRdpw c s
  | .wrpw c => Sys2Proof.Machine.execWrpw c s
  | .sel c => Sys2Proof.Machine.execSel c s
  | .ldl c => Sys2Proof.Machine.execLdl c s
  | .stl c => Sys2Proof.Machine.execStl c s
  | .jr c => Sys2Proof.Machine.execJr c s
  | .callr c => Sys2Proof.Machine.execCallr c s
  | .exit c => Sys2Proof.Machine.execExit c s
  | .yield c => Sys2Proof.Machine.execYield c s
  | .rdcyc c => Sys2Proof.Machine.execRdcyc c s
  | .movi c => Sys2Proof.Machine.execMovi c s
  | .addi c => Sys2Proof.Machine.execAddi c s
  | .bt c => Sys2Proof.Machine.execBt c s
  | .bf c => Sys2Proof.Machine.execBf c s
  | .call c => Sys2Proof.Machine.execCall c s
  | .andi c => Sys2Proof.Machine.execAndi c s
  | .fadd c => Sys2Proof.Machine.execFadd c s
  | .fsub c => Sys2Proof.Machine.execFsub c s
  | .fmul c => Sys2Proof.Machine.execFmul c s
  | .fdiv c => Sys2Proof.Machine.execFdiv c s
  | .fmin c => Sys2Proof.Machine.execFmin c s
  | .fmax c => Sys2Proof.Machine.execFmax c s
  | .fma c => Sys2Proof.Machine.execFma c s
  | .fms c => Sys2Proof.Machine.execFms c s
  | .fsqrt c => Sys2Proof.Machine.execFsqrt c s
  | .fabs c => Sys2Proof.Machine.execFabs c s
  | .fneg c => Sys2Proof.Machine.execFneg c s
  | .fcmpeq c => Sys2Proof.Machine.execFcmpeq c s
  | .fcmplt c => Sys2Proof.Machine.execFcmplt c s
  | .fcmple c => Sys2Proof.Machine.execFcmple c s
  | .fcmpun c => Sys2Proof.Machine.execFcmpun c s
  | .fclass c => Sys2Proof.Machine.execFclass c s
  | .fcvt c => Sys2Proof.Machine.execFcvt c s
  | .ftoi c => Sys2Proof.Machine.execFtoi c s
  | .fton c => Sys2Proof.Machine.execFton c s
  | .itof c => Sys2Proof.Machine.execItof c s
  | .ntof c => Sys2Proof.Machine.execNtof c s
  | .frnd c => Sys2Proof.Machine.execFrnd c s
  | .fclrf c => Sys2Proof.Machine.execFclrf c s
  | .fmt c => Sys2Proof.Machine.execFmt c s
  | .viadd c => Sys2Proof.Machine.execViadd c s
  | .visub c => Sys2Proof.Machine.execVisub c s
  | .vimul c => Sys2Proof.Machine.execVimul c s
  | .vimulh c => Sys2Proof.Machine.execVimulh c s
  | .vimin c => Sys2Proof.Machine.execVimin c s
  | .vimax c => Sys2Proof.Machine.execVimax c s
  | .vand c => Sys2Proof.Machine.execVand c s
  | .vor c => Sys2Proof.Machine.execVor c s
  | .vxor c => Sys2Proof.Machine.execVxor c s
  | .vshl c => Sys2Proof.Machine.execVshl c s
  | .vshr c => Sys2Proof.Machine.execVshr c s
  | .viadds c => Sys2Proof.Machine.execViadds c s
  | .visubs c => Sys2Proof.Machine.execVisubs c s
  | .viabs c => Sys2Proof.Machine.execViabs c s
  | .vineg c => Sys2Proof.Machine.execVineg c s
  | .vimad c => Sys2Proof.Machine.execVimad c s
  | .vadd c => Sys2Proof.Machine.execVadd c s
  | .vsub c => Sys2Proof.Machine.execVsub c s
  | .vmul c => Sys2Proof.Machine.execVmul c s
  | .vdiv c => Sys2Proof.Machine.execVdiv c s
  | .vmin c => Sys2Proof.Machine.execVmin c s
  | .vmax c => Sys2Proof.Machine.execVmax c s
  | .vfma c => Sys2Proof.Machine.execVfma c s
  | .vsqrt c => Sys2Proof.Machine.execVsqrt c s
  | .vabs c => Sys2Proof.Machine.execVabs c s
  | .vneg c => Sys2Proof.Machine.execVneg c s
  | .vicmpeq c => Sys2Proof.Machine.execVicmpeq c s
  | .vicmplt c => Sys2Proof.Machine.execVicmplt c s
  | .vicmple c => Sys2Proof.Machine.execVicmple c s
  | .vcmpeq c => Sys2Proof.Machine.execVcmpeq c s
  | .vcmplt c => Sys2Proof.Machine.execVcmplt c s
  | .vcmple c => Sys2Proof.Machine.execVcmple c s
  | .vcmpun c => Sys2Proof.Machine.execVcmpun c s
  | .mand c => Sys2Proof.Machine.execMand c s
  | .mor c => Sys2Proof.Machine.execMor c s
  | .mxor c => Sys2Proof.Machine.execMxor c s
  | .mnot c => Sys2Proof.Machine.execMnot c s
  | .mpop c => Sys2Proof.Machine.execMpop c s
  | .mall c => Sys2Proof.Machine.execMall c s
  | .virsum c => Sys2Proof.Machine.execVirsum c s
  | .virmin c => Sys2Proof.Machine.execVirmin c s
  | .virmax c => Sys2Proof.Machine.execVirmax c s
  | .vrsum c => Sys2Proof.Machine.execVrsum c s
  | .vrmin c => Sys2Proof.Machine.execVrmin c s
  | .vrmax c => Sys2Proof.Machine.execVrmax c s
  | .vperm c => Sys2Proof.Machine.execVperm c s
  | .vbcast c => Sys2Proof.Machine.execVbcast c s
  | .vext c => Sys2Proof.Machine.execVext c s
  | .vins c => Sys2Proof.Machine.execVins c s
  | .vmov c => Sys2Proof.Machine.execVmov c s
  | .viota c => Sys2Proof.Machine.execViota c s
  | .vsplati c => Sys2Proof.Machine.execVsplati c s
  | .vfree c => Sys2Proof.Machine.execVfree c s
  | .vld c => Sys2Proof.Machine.execVld c s
  | .vst c => Sys2Proof.Machine.execVst c s
  | .vlds c => Sys2Proof.Machine.execVlds c s
  | .vsts c => Sys2Proof.Machine.execVsts c s
  | .vgath c => Sys2Proof.Machine.execVgath c s
  | .vscat c => Sys2Proof.Machine.execVscat c s
  | .vcvt c => Sys2Proof.Machine.execVcvt c s
  | .vcvti c => Sys2Proof.Machine.execVcvti c s
  | .vcvtf c => Sys2Proof.Machine.execVcvtf c s
  | .mxq c => Sys2Proof.Machine.execMxq c s
  | .mxdq c => Sys2Proof.Machine.execMxdq c s
  | .tsq c => Sys2Proof.Machine.execTsq c s
  | .tsdq c => Sys2Proof.Machine.execTsdq c s
  | .vldm c => Sys2Proof.Machine.execVldm c s
  | .vstm c => Sys2Proof.Machine.execVstm c s
  | .vlease c => Sys2Proof.Machine.execVlease c s
  | .mcfg c => Sys2Proof.Machine.execMcfg c s
  | .mgang c => Sys2Proof.Machine.execMgang c s
  | .mresume c => Sys2Proof.Machine.execMresume c s
  | .mbook c => Sys2Proof.Machine.execMbook c s
  | .fopen c => Sys2Proof.Machine.execFopen c s
  | .fjoin c => Sys2Proof.Machine.execFjoin c s
  | .fclose c => Sys2Proof.Machine.execFclose c s
  | .smode c => Sys2Proof.Machine.execSmode c s
  | .sstop c => Sys2Proof.Machine.execSstop c s
  | .cpyg c => Sys2Proof.Machine.execCpyg c s
  | .cpyp c => Sys2Proof.Machine.execCpyp c s
  | .cpyd c => Sys2Proof.Machine.execCpyd c s
  | .mwait c => Sys2Proof.Machine.execMwait c s
  | .bdcfg c => Sys2Proof.Machine.execBdcfg c s
  | .bdot c => Sys2Proof.Machine.execBdot c s
  | .bdotq c => Sys2Proof.Machine.execBdotq c s
  | .rowcopy c => Sys2Proof.Machine.execRowcopy c s
  | .rowzero c => Sys2Proof.Machine.execRowzero c s
  | .ld c => Sys2Proof.Machine.execLd c s
  | .st c => Sys2Proof.Machine.execSt c s
  | .strel c => Sys2Proof.Machine.execStrel c s
  | .aadd c => Sys2Proof.Machine.execAadd c s
  | .aand c => Sys2Proof.Machine.execAand c s
  | .aor c => Sys2Proof.Machine.execAor c s
  | .axor c => Sys2Proof.Machine.execAxor c s
  | .amin c => Sys2Proof.Machine.execAmin c s
  | .amax c => Sys2Proof.Machine.execAmax c s
  | .aminn c => Sys2Proof.Machine.execAminn c s
  | .amaxn c => Sys2Proof.Machine.execAmaxn c s
  | .afadd c => Sys2Proof.Machine.execAfadd c s
  | .faadd c => Sys2Proof.Machine.execFaadd c s
  | .faand c => Sys2Proof.Machine.execFaand c s
  | .faor c => Sys2Proof.Machine.execFaor c s
  | .faxor c => Sys2Proof.Machine.execFaxor c s
  | .famin c => Sys2Proof.Machine.execFamin c s
  | .famax c => Sys2Proof.Machine.execFamax c s
  | .faminn c => Sys2Proof.Machine.execFaminn c s
  | .famaxn c => Sys2Proof.Machine.execFamaxn c s
  | .fafadd c => Sys2Proof.Machine.execFafadd c s
  | .swp c => Sys2Proof.Machine.execSwp c s
  | .cas c => Sys2Proof.Machine.execCas c s
  | .fence c => Sys2Proof.Machine.execFence c s
  | .ldfe c => Sys2Proof.Machine.execLdfe c s
  | .ldff c => Sys2Proof.Machine.execLdff c s
  | .stfe c => Sys2Proof.Machine.execStfe c s
  | .stff c => Sys2Proof.Machine.execStff c s
  | .feclr c => Sys2Proof.Machine.execFeclr c s
  | .binit c => Sys2Proof.Machine.execBinit c s
  | .barr c => Sys2Proof.Machine.execBarr c s
  | .bwait c => Sys2Proof.Machine.execBwait c s
  | .baw c => Sys2Proof.Machine.execBaw c s
  | .bdrop c => Sys2Proof.Machine.execBdrop c s
  | .send c => Sys2Proof.Machine.execSend c s
  | .recv c => Sys2Proof.Machine.execRecv c s
  | .spawn c => Sys2Proof.Machine.execSpawn c s
  | .tpost c => Sys2Proof.Machine.execTpost c s
  | .tbind c => Sys2Proof.Machine.execTbind c s
  | .gcall c => Sys2Proof.Machine.execGcall c s
  | .gret c => Sys2Proof.Machine.execGret c s
  | .trap c => Sys2Proof.Machine.execTrap c s
  | .tret c => Sys2Proof.Machine.execTret c s
  | .ctlr c => Sys2Proof.Machine.execCtlr c s
  | .ctlw c => Sys2Proof.Machine.execCtlw c s
  | .slinv c => Sys2Proof.Machine.execSlinv c s
  | .setkey c => Sys2Proof.Machine.execSetkey c s
  | .setown c => Sys2Proof.Machine.execSetown c s
  | .istw c => Sys2Proof.Machine.execIstw c s
  | .start c => Sys2Proof.Machine.execStart c s
  | .buoys c => Sys2Proof.Machine.execBuoys c s
  | .buoyc c => Sys2Proof.Machine.execBuoyc c s
  | .haltrq c => Sys2Proof.Machine.execHaltrq c s
  | .csave c => Sys2Proof.Machine.execCsave c s
  | .cload c => Sys2Proof.Machine.execCload c s
  | .matrixWord0Push core slot w => Sys2Proof.Machine.execMatrixWord0Push core slot w s
  | .compute core slot w => Sys2Proof.Machine.execCompute core slot w s
  | .acczero core slot w => Sys2Proof.Machine.execAcczero core slot w s
  | .accload core slot w => Sys2Proof.Machine.execAccload core slot w s
  | .accstore core slot w => Sys2Proof.Machine.execAccstore core slot w s
  | .copyDescriptorPush core slot w => Sys2Proof.Machine.execCopyDescriptorPush core slot w s
  | .queuePortPop core slot port d => Sys2Proof.Machine.execQueuePortPop core slot port d s
  | .blockRelease core slot => Sys2Proof.Machine.execBlockRelease core slot s
  | .leaseGrant core => Sys2Proof.Machine.execLeaseGrant core s
  | .resultReturn core slot => Sys2Proof.Machine.execResultReturn core slot s
  | .trapEntry core slot => Sys2Proof.Machine.execTrapEntry core slot s
  | .ferryDepart core slot => Sys2Proof.Machine.execFerryDepart core slot s
  | .ferryArrive pkt => Sys2Proof.Machine.execFerryArrive pkt s
  | .ferryAdmit core => Sys2Proof.Machine.execFerryAdmit core s
  | .sliceTranslate pkt => Sys2Proof.Machine.execSliceTranslate pkt s
  | .tableWalkRead pkt => Sys2Proof.Machine.execTableWalkRead pkt s
  | .messagePerform pkt => Sys2Proof.Machine.execMessagePerform pkt s
  | .heldMessagesRelease core => Sys2Proof.Machine.execHeldMessagesRelease core s
  | .ackReceive pkt => Sys2Proof.Machine.execAckReceive pkt s
  | .stfeArrive pkt => Sys2Proof.Machine.execStfeArrive pkt s
  | .feSleepExpire core slot => Sys2Proof.Machine.execFeSleepExpire core slot s
  | .stfeQueueExpire core => Sys2Proof.Machine.execStfeQueueExpire core s
  | .mwaitTimeout core slot => Sys2Proof.Machine.execMwaitTimeout core slot s
  | .landedPacket pkt => Sys2Proof.Machine.execLandedPacket pkt s
  | .rangeLockRegister core op => Sys2Proof.Machine.execRangeLockRegister core op s
  | .copyComplete core op => Sys2Proof.Machine.execCopyComplete core op s
  | .copyFault core op => Sys2Proof.Machine.execCopyFault core op s
  | .copyResume core op => Sys2Proof.Machine.execCopyResume core op s
  | .copyAbandon core op => Sys2Proof.Machine.execCopyAbandon core op s
  | .streamStripFetch core slot v => Sys2Proof.Machine.execStreamStripFetch core slot v s
  | .streamStripWrite core => Sys2Proof.Machine.execStreamStripWrite core s
  | .matrixCommandStart core => Sys2Proof.Machine.execMatrixCommandStart core s
  | .arrayModeChange core => Sys2Proof.Machine.execArrayModeChange core s
  | .gangJoin core => Sys2Proof.Machine.execGangJoin core s
  | .gangTimeout core => Sys2Proof.Machine.execGangTimeout core s
  | .matrixKblock core => Sys2Proof.Machine.execMatrixKblock core s
  | .matrixSplit core => Sys2Proof.Machine.execMatrixSplit core s
  | .matrixStatusPost core => Sys2Proof.Machine.execMatrixStatusPost core s
  | .folioDeliver core => Sys2Proof.Machine.execFolioDeliver core s
  | .folioFree quire slot => Sys2Proof.Machine.execFolioFree quire slot s
  | .bankDotPerform pkt => Sys2Proof.Machine.execBankDotPerform pkt s
  | .bdotqResultDeliver core slot => Sys2Proof.Machine.execBdotqResultDeliver core slot s
  | .rowCommandPerform core op => Sys2Proof.Machine.execRowCommandPerform core op s
  | .rowCommandComplete core op => Sys2Proof.Machine.execRowCommandComplete core op s
  | .barrierUnitArrival pkt => Sys2Proof.Machine.execBarrierUnitArrival pkt s
  | .barrierUnitInit pkt => Sys2Proof.Machine.execBarrierUnitInit pkt s
  | .barrierAnswer pkt => Sys2Proof.Machine.execBarrierAnswer pkt s
  | .barrierReleaseDeliver pkt => Sys2Proof.Machine.execBarrierReleaseDeliver pkt s
  | .barrierQuery pkt => Sys2Proof.Machine.execBarrierQuery pkt s
  | .barrierQueryRetry core slot => Sys2Proof.Machine.execBarrierQueryRetry core slot s
  | .messageDeliver pkt => Sys2Proof.Machine.execMessageDeliver pkt s
  | .streamPortWrite writer front off w => Sys2Proof.Machine.execStreamPortWrite writer front off w s
  | .streamPacketEnter front => Sys2Proof.Machine.execStreamPacketEnter front s
  | .feGo front => Sys2Proof.Machine.execFeGo front s
  | .launchHeader front => Sys2Proof.Machine.execLaunchHeader front s
  | .taskPacket front => Sys2Proof.Machine.execTaskPacket front s
  | .semaphoreWait front => Sys2Proof.Machine.execSemaphoreWait front s
  | .semaphorePoll front => Sys2Proof.Machine.execSemaphorePoll front s
  | .semaphoreTimeout front => Sys2Proof.Machine.execSemaphoreTimeout front s
  | .semaphoreSignal front => Sys2Proof.Machine.execSemaphoreSignal front s
  | .groupPlace front => Sys2Proof.Machine.execGroupPlace front s
  | .exitReport pkt => Sys2Proof.Machine.execExitReport pkt s
  | .taskRecordState front slot w => Sys2Proof.Machine.execTaskRecordState front slot w s
  | .spawnArrive pkt => Sys2Proof.Machine.execSpawnArrive pkt s
  | .triggerPost pkt => Sys2Proof.Machine.execTriggerPost pkt s
  | .triggerBind pkt => Sys2Proof.Machine.execTriggerBind pkt s
  | .triggerOvfClear entry => Sys2Proof.Machine.execTriggerOvfClear entry s
  | .istwPerform pkt => Sys2Proof.Machine.execIstwPerform pkt s
  | .startPerform pkt => Sys2Proof.Machine.execStartPerform pkt s
  | .threadStop core slot => Sys2Proof.Machine.execThreadStop core slot s
  | .groupStop group => Sys2Proof.Machine.execGroupStop group s
  | .quireStop core => Sys2Proof.Machine.execQuireStop core s
  | .coreStop core => Sys2Proof.Machine.execCoreStop core s
  | .threadRelease core slot => Sys2Proof.Machine.execThreadRelease core slot s
  | .groupRelease group => Sys2Proof.Machine.execGroupRelease group s
  | .quireRelease core => Sys2Proof.Machine.execQuireRelease core s
  | .coreRelease core => Sys2Proof.Machine.execCoreRelease core s
  | .haltTreeDeliver part stop => Sys2Proof.Machine.execHaltTreeDeliver part stop s
  | .buoyForward pkt => Sys2Proof.Machine.execBuoyForward pkt s
  | .relocationNotice pkt => Sys2Proof.Machine.execRelocationNotice pkt s
  | .relocationFenceAck pkt => Sys2Proof.Machine.execRelocationFenceAck pkt s
  | .buoyRetire core slot => Sys2Proof.Machine.execBuoyRetire core slot s
  | .dtabWrite core w => Sys2Proof.Machine.execDtabWrite core w s
  | .frecClear core slot => Sys2Proof.Machine.execFrecClear core slot s
  | .mberrClear core group w => Sys2Proof.Machine.execMberrClear core group w s
  | .splitcWrite w => Sys2Proof.Machine.execSplitcWrite w s
  | .aliasEntryWrite k w => Sys2Proof.Machine.execAliasEntryWrite k w s
  | .aliasDrain k => Sys2Proof.Machine.execAliasDrain k s
  | .aliasMarkLost k => Sys2Proof.Machine.execAliasMarkLost k s
  | .routeEntryWrite dest w => Sys2Proof.Machine.execRouteEntryWrite dest w s
  | .routeSwitch dest => Sys2Proof.Machine.execRouteSwitch dest s
  | .pathClassWrite idx w => Sys2Proof.Machine.execPathClassWrite idx w s
  | .hcDropFrame core w => Sys2Proof.Machine.execHcDropFrame core w s
  | .hcDropAll core => Sys2Proof.Machine.execHcDropAll core s
  | .logicalNumberWrite w => Sys2Proof.Machine.execLogicalNumberWrite w s
  | .configWordWrite writer off w => Sys2Proof.Machine.execConfigWordWrite writer off w s
  | .portEnable port => Sys2Proof.Machine.execPortEnable port s
  | .portRetrain port => Sys2Proof.Machine.execPortRetrain port s
  | .txkeyStage port high w => Sys2Proof.Machine.execTxkeyStage port high w s
  | .rxkeyStage port high w => Sys2Proof.Machine.execRxkeyStage port high w s
  | .trainingComplete port peer => Sys2Proof.Machine.execTrainingComplete port peer s
  | .portFail port => Sys2Proof.Machine.execPortFail port s
  | .linkLoss port => Sys2Proof.Machine.execLinkLoss port s
  | .flitSlotTransmit port => Sys2Proof.Machine.execFlitSlotTransmit port s
  | .flitReceive port flit => Sys2Proof.Machine.execFlitReceive port flit s
  | .nakTimer port => Sys2Proof.Machine.execNakTimer port s
  | .replayTimeout port seq => Sys2Proof.Machine.execReplayTimeout port seq s
  | .linkPacketArrive port => Sys2Proof.Machine.execLinkPacketArrive port s
  | .adaptiveFallback pkt => Sys2Proof.Machine.execAdaptiveFallback pkt s
  | .receiptReceive pkt => Sys2Proof.Machine.execReceiptReceive pkt s
  | .abandonNotice pkt => Sys2Proof.Machine.execAbandonNotice pkt s
  | .retryTimeout port pid => Sys2Proof.Machine.execRetryTimeout port pid s
  | .pidRecordExpire idx => Sys2Proof.Machine.execPidRecordExpire idx s
  | .forwardWindowExpire k => Sys2Proof.Machine.execForwardWindowExpire k s
  | .homeQuery pkt => Sys2Proof.Machine.execHomeQuery pkt s
  | .tensorCombine tree block => Sys2Proof.Machine.execTensorCombine tree block s
  | .softError site corrected => Sys2Proof.Machine.execSoftError site corrected s
  | .dramScrub line => Sys2Proof.Machine.execDramScrub line s
  | .verticalBusChange column state nbad spare => Sys2Proof.Machine.execVerticalBusChange column state nbad spare s
  | .elogHeadRead die => Sys2Proof.Machine.execElogHeadRead die s
  | .attestRequest => Sys2Proof.Machine.execAttestRequest s
  | .attestReport => Sys2Proof.Machine.execAttestReport s
  | .ucieRead dword0 => Sys2Proof.Machine.execUcieRead dword0 s
  | .ucieWrite dword0 dword1 => Sys2Proof.Machine.execUcieWrite dword0 dword1 s
  | .ucieLinkDown => Sys2Proof.Machine.execUcieLinkDown s
  | .coldReset => Sys2Proof.Machine.execColdReset s
  | .powerLoss => Sys2Proof.Machine.execPowerLoss s
  | .ucieLinkUp => Sys2Proof.Machine.execUcieLinkUp s
  | .engineRead pkt => Sys2Proof.Machine.execEngineRead pkt s
  | .meshPacketTimeout pkt => Sys2Proof.Machine.execMeshPacketTimeout pkt s

end Sys2Proof.Machine
end

