-- ==== Sys2Proof/Machine/Schedule.lean ====
section
/-! DEFINITION. Fetch (spec/01 R11, spec/07 R225) and the scheduler of a core (spec/08 R246-R250). -/

namespace Sys2Proof.Machine

/-! ### Fetch -/

/-- The value that ISTW has last written to an instruction word and no START has made visible. -/
def newWord (k : CoreSt) (i : Nat) : Option Word := ((k.istNew.filter fun e => e.2.1 == i).getLast?).map (·.2.2)

/-- A byte that a fetch on a core reads: of a word that ISTW has written and no START has made visible, the old or the
new value (R225). -/
def fetchByte (s : State) (k : CoreSt) (a : Nat) : Byte :=
  match newWord k (a / 8) with
  | none => k.istore.byte a
  | some w => if Config.fetchNew s.freeCtr (a / 8) then BitVec.ofNat 8 (w.toNat / 256 ^ (a % 8)) else k.istore.byte a

/-- The bytes from a pc on, at most five words; none from the end of the instruction store on (R11, R22). -/
def fetchBytes (s : State) (k : CoreSt) (pc : Nat) : List Byte :=
  (List.range (min 10 (0x40000 - pc))).map fun i => fetchByte s k (pc + i)

/-- The instruction at the pc of a thread, or the reason its words make none. -/
def fetch (s : State) (c slot : Nat) : Except DecodeErr Instr :=
  match s.thread? c slot with
  | none => .error .pastEnd
  | some t => decodeBytes (fetchBytes s (s.core c) t.pc)

/-- The words of the chain at a pc: its prefixes and its base word, at most five (R22). -/
def chainSpan : List Half → Nat
  | [] => 0
  | w :: rest => if isPrefixWord w then min 5 (1 + chainSpan rest) else 1

/-- A poisoned dword of the instruction store under the chain of a thread (spec/03 R90). -/
def fetchPoison (s : State) (c slot : Nat) : Option Nat :=
  match s.thread? c slot with
  | none => none
  | some t =>
    let k := s.core c
    let n := chainSpan (halvesOf (fetchBytes s k t.pc))
    ((List.range n).map fun i => (t.pc + 2 * i) / 8).find? fun i => k.poison.contains (2, i)

/-- A fetch on a core has been made while written words were not yet visible: the free values are used up. -/
def State.fetched (s : State) (c : Nat) : State := if (s.core c).istNew.isEmpty then s else s.tick

/-! ### Selection (R246-R250) -/

/-- The generator of R248. -/
def nextRng (x : BitVec 32) : BitVec 32 :=
  let x1 := x ^^^ (x <<< 13)
  let x2 := x1 ^^^ (x1 >>> 17)
  x2 ^^^ (x2 <<< 5)

/-- Insert a thread by its order. -/
def insertThread (t : Nat × Thread) : List (Nat × Thread) → List (Nat × Thread)
  | [] => [t]
  | x :: rest => if x.2.order ≤ t.2.order then x :: insertThread t rest else t :: x :: rest

/-- The threads of a queue in their order (R250). -/
def queueThreads (k : CoreSt) (q : RunQueue) : List (Nat × Thread) :=
  (k.threads.filter fun t => t.2.task == q.task).foldl (fun acc t => insertThread t acc) []

/-- A queue has a ready thread. -/
def queueReady (k : CoreSt) (q : RunQueue) : Bool := k.threads.any fun t => t.2.task == q.task && t.2.isReady

/-- A ready thread whose last issue was at least four cycles before the cycle that follows (R246). -/
def eligible (k : CoreSt) (t : Thread) : Bool :=
  t.isReady && (match t.lastIssue with | none => true | some l => decide (l + 4 ≤ k.cyc + 1))

/-- A queue has an eligible thread. -/
def queueEligible (k : CoreSt) (q : RunQueue) : Bool := k.threads.any fun t => t.2.task == q.task && eligible k t.2

/-- The queue that a draw names: the first whose cumulative ticket sum exceeds t. -/
def drawnBy : Nat → Nat → Tab RunQueue → Option Nat
  | _, _, [] => none
  | acc, t, (i, q) :: rest => if t < acc + q.tickets then some i else drawnBy (acc + q.tickets) t rest

/-- The queue with the greatest miss count of at least 1,024, the lowest slot on a tie. -/
def forcedBy (part : Tab RunQueue) : Option Nat :=
  part.foldl (fun best e =>
    if e.2.miss < 1024 then best
    else match best with
      | none => some e.1
      | some b => if ((tget part b).map (·.miss)).getD 0 < e.2.miss then some e.1 else some b) none

/-- draw(L) of R249. -/
def draw (k : CoreSt) (lv : Nat) : CoreSt :=
  let part := k.queues.filter fun e => e.2.level == lv && queueReady k e.2
  let pick : Option Nat × BitVec 32 :=
    match forcedBy part with
    | some w => (some w, k.rng)
    | none =>
      let r := nextRng k.rng
      let total := part.foldl (fun a e => a + e.2.tickets) 0
      (drawnBy 0 (r.toNat * total / 2 ^ 32) part, r)
  match pick.1 with
  | none => k
  | some w =>
    { k with
      rng := pick.2,
      queues := k.queues.map fun e =>
        if e.1 == w then (e.1, { e.2 with miss := 0, last := none })
        else if part.any (fun p => p.1 == e.1) then (e.1, { e.2 with miss := e.2.miss + 1 }) else e,
      win := tset k.win lv w, left := tset k.left lv 64 }

/-- The queues of a level with an eligible thread, in cyclic slot order after a slot. -/
def afterSlot (k : CoreSt) (lv w : Nat) : List (Nat × RunQueue) :=
  let qs := k.queues.filter fun e => e.2.level == lv && queueEligible k e.2
  qs.filter (fun e => w < e.1) ++ qs.filter (fun e => e.1 ≤ w)

/-- The threads of a queue after the one it last issued, in its order: after its place where it has left the core (R250).
-/
def afterLast (ts : List (Nat × Thread)) (last : Nat × Nat) : List (Nat × Thread) :=
  match ts.dropWhile fun t => t.2.uid != last.1 with
  | _ :: after => after
  | [] => ts.filter fun t => last.2 < t.2.order

/-- The thread a queue issues (R250): at the start of a quantum the oldest eligible, then the first eligible after the
last in cyclic order. -/
def queuePick (k : CoreSt) (q : RunQueue) : Option Nat :=
  let ts := queueThreads k q
  let rot : List (Nat × Thread) := match q.last with
    | none => ts
    | some u => afterLast ts u ++ ts
  (rot.find? fun t => eligible k t.2).map (·.1)

/-- What select() of R249 chooses. -/
structure Choice where
  /-- the core after the draw -/
  core  : CoreSt
  level : Nat
  queue : Nat
  slot  : Nat
  deriving DecidableEq, Repr

/-- The choice of select() of R249: the highest level with an eligible thread, a draw where the quantum has ended or the winner
is gone, and the thread of the winner, or of the first queue after it, that issues. -/
def choose (k : CoreSt) : Option Choice :=
  let levels := (k.queues.filter fun e => queueEligible k e.2).map fun e => e.2.level
  match levels with
  | [] => none
  | l :: ls =>
    let lv := ls.foldl max l
    let w0 := tgetD k.win lv 0
    let live := match tget k.queues w0 with | some q => q.level == lv | none => false
    let k1 := if tgetD k.left lv 0 == 0 || !live then draw k lv else k
    let w := tgetD k1.win lv 0
    let q? := match tget k1.queues w with
      | some q => if queueEligible k1 q then some (w, q) else (afterSlot k1 lv w).head?
      | none => (afterSlot k1 lv w).head?
    match q? with
    | none => none
    | some (i, q) => (queuePick k1 q).map fun slot => ⟨k1, lv, i, slot⟩

/-- select() of R249: the core after the selection, which costs its level an issue slot, and the slot that issues. -/
def select (k : CoreSt) : Option (CoreSt × Nat) :=
  (choose k).map fun x =>
    let k1 := x.core
    let u := (tget k1.threads x.slot).map fun t => (t.uid, t.order)
    ({ k1 with
        queues := k1.queues.map fun e => if e.1 == x.queue then (e.1, { e.2 with last := u }) else e,
        left := tset k1.left x.level (tgetD k1.left x.level 0 - 1) }, x.slot)

/-- Give back the issue slot of a selected chain that has blocked: it was not issued (spec/01 R27), so that the count of its
level and the place of its queue in the cyclic order stand as the draw left them. `k` is the core before the selection. -/
def unspent (k : CoreSt) (c slot : Nat) (s : State) : State :=
  match choose k, (s.thread? c slot).map fun (t : Thread) => t.status with
  | some x, some (.blocked _ _) =>
    s.modCore c fun k' =>
      { k' with
        left := x.core.left,
        queues := k'.queues.map fun e =>
          if e.1 == x.queue then (e.1, { e.2 with last := (tget x.core.queues x.queue).bind (·.last) }) else e }
  | _, _ => s

/-- The outcome of the issue of a selected chain. -/
def issuedOr (k : CoreSt) (c slot : Nat) (o : Host.Outcome State Fault Refusal) : Host.Outcome State Fault Refusal :=
  match o with
  | .next s => .next (unspent k c slot s)
  | o => o

end Sys2Proof.Machine
end

