-- ==== Sys2Proof/Machine/Candidates.lean ====
section
/-! DEFINITION. What a step does around `exec`: the thread that issues, words that are no chain, the events that may
take place where the environment has chosen none (log 2), idle time, and the load that `State.withFetchWord` stands for
(log 4). -/

namespace Sys2Proof.Machine

/-- The state in which the chain of a thread is issued. -/
def atThread (s : State) (c slot : Nat) : State := { s.fetched c with cur := (c, slot) }

/-- Words that are no chain raise ILLOP at the pc (R23, R38, R62). -/
def illegalWords (c slot : Nat) (s : State) : Host.Outcome State Fault Refusal :=
  match s.thread? c slot with
  | none => .refused (.notEnabled "ISSUE")
  | some t =>
    if t.isReady then .next (takeTrap ((s.fetched c).issueAt c slot) c slot { cause := cILLOP, xpc := t.pc })
    else .refused (.notEnabled "ISSUE")

/-- Words that are poisoned raise POISON as they are fetched (spec/03 R90). -/
def poisonedWords (c slot i : Nat) (s : State) : Host.Outcome State Fault Refusal :=
  match s.thread? c slot with
  | none => .refused (.notEnabled "ISSUE")
  | some t =>
    if t.isReady then
      .next (takeTrap ((s.fetched c).issueAt c slot) c slot { cause := cPOISON, xaddr := word (8 * i), xpc := t.pc })
    else .refused (.notEnabled "ISSUE")

/-- The core after one in the order of the cores that hold anything. -/
def nextFocus (s : State) : Nat :=
  let cs := s.cores.map (·.1)
  match cs.find? (fun c => decide (s.focus < c)) with
  | some c => c
  | none => cs.headD 0

/-- A core has selected: its scheduler state, a cycle of the other units, and the focus moves on. -/
def picked (s : State) (k : CoreSt) : State :=
  let s1 := s.setCore s.focus k
  { s1 with focus := nextFocus s1, time := s1.time + 1 }

/-- No event and no chain: a cycle passes on the core in focus and at the other units, the commander is sent an event, and
the focus moves on. -/
def idle (s : State) : State :=
  let s1 := s.pass s.focus 1
  sendEvent { s1 with focus := nextFocus s1, time := s1.time + 1 }

/-- Time passes at a unit; as it does at the units other than cores, the commander is sent an event. -/
def passing (s : State) (u n : Nat) : State := if u < 1028 then s.pass u n else sendEvent (s.pass u n)

/-- What can be done in a cube without power, or in recovery, where only the UCIe port works (spec/00 R4, spec/21 R436). -/
def mayRun (s : State) (a : Action) : Bool :=
  match a with
  | .ev .coldReset => true
  | .ev .powerLoss | .ev (.ucieRead _) | .ev (.ucieWrite _ _) | .ev .ucieLinkUp | .ev .ucieLinkDown | .pass _ _ => s.on
  | _ => s.on && !s.recovery

/-! ### The events that may take place next (log 2)

What the environment does (stores of privileged parties, stops, soft errors, flits, training, resets) is never chosen
here: only the agenda brings it. -/

/-- An event: what `exec` does for a constructor of `Instr` with its operands. -/
abbrev Event : Type := State → Host.Outcome State Fault Refusal

/-- The events of a packet at its destination. -/
def homeEvents (id : Nat) (b : Body) : List Event :=
  match b with
  | .ferry _ => [execBuoyForward id, execFerryArrive id]
  | .access _ => [execBuoyForward id, execStfeArrive id, execMessagePerform id]
  | .request _ | .slinv _ _ => [execMessagePerform id]
  | .ack _ _ | .delivered _ _ _ | .engineAck _ _ _ _ _ | .engineData _ _ _ _ | .reply _ _ _ => [execAckReceive id]
  | .engineRead _ _ => [execBuoyForward id, execEngineRead id]
  | .landed _ _ _ _ => [execBuoyForward id, execLandedPacket id]
  | .bdot _ _ _ _ _ => [execBankDotPerform id]
  | .rowCmd _ _ _ _ _ _ => []
  | .barArrive _ _ _ => [execBarrierUnitArrival id]
  | .barInit _ _ => [execBarrierUnitInit id]
  | .barAnswer _ _ _ _ | .barReply _ _ _ => [execBarrierAnswer id]
  | .barRelease _ _ _ => [execBarrierReleaseDeliver id]
  | .barQuery _ _ _ => [execBarrierQuery id]
  | .message _ _ _ _ _ | .faultMsg _ _ _ => [execBuoyForward id, execMessageDeliver id]
  | .spawn _ _ _ => [execBuoyForward id, execSpawnArrive id]
  | .tpost _ _ => [execBuoyForward id, execTriggerPost id]
  | .tbind _ _ => [execTriggerBind id]
  | .istw _ _ => [execIstwPerform id]
  | .start _ => [execStartPerform id]
  | .exitReport _ _ => [execExitReport id]
  | .haltReq part stop => [execHaltTreeDeliver part stop]
  | .relocNotice _ _ _ => [execRelocationNotice id]
  | .relocFence _ _ _ => [execBuoyForward id, execRelocationFenceAck id]
  | .relocAck _ _ _ => [execRelocationFenceAck id]
  | .homeQuery _ _ _ _ _ _ | .homeReply _ _ _ => [execHomeQuery id]
  | .receipt _ _ => [execReceiptReceive id]
  | .abandon _ _ => [execAbandonNotice id]
  | .tensor t => [execTensorCombine t.tree t.block]

/-- The events of a packet. -/
def packetEvents (p : Packet) : List Event :=
  match p.stage with
  | .slice => [execSliceTranslate p.id, execRangeLockRegister slicePort p.id, execRowCommandPerform slicePort p.id]
  | .walk _ _ => [execTableWalkRead p.id]
  | .home => homeEvents p.id p.body
  | .held | .waiting => [execBuoyForward p.id]
  | .queued => [execBuoyForward p.id, execMessagePerform p.id, execBankDotPerform p.id, execTriggerBind p.id]
  | .gateway => [execAdaptiveFallback p.id]
  | .lost => [execMeshPacketTimeout p.id]

/-- The events of a thread. -/
def threadEvents (c slot : Nat) (t : Thread) : List Event :=
  [execResultReturn c slot, execTrapEntry c slot, execFerryDepart c slot, execBlockRelease c slot, execFeSleepExpire c slot,
    execMwaitTimeout c slot, execBdotqResultDeliver c slot, execBarrierQueryRetry c slot] ++
  (match t.lease with
    | none => []
    | some l => l.streams.map fun v => execStreamStripFetch c slot v.1)

/-- The events of a core. -/
def coreEvents (c : Nat) (k : CoreSt) : List Event :=
  k.threads.flatMap (fun t => threadEvents c t.1 t.2) ++
  [execLeaseGrant c, execFerryAdmit c, execHeldMessagesRelease c, execStfeQueueExpire c, execStreamStripWrite c, execMatrixSplit c,
    execMatrixCommandStart c, execArrayModeChange c, execGangJoin c, execGangTimeout c, execMatrixKblock c, execMatrixStatusPost c,
    execFolioDeliver c] ++
  k.copies.flatMap (fun e => [execRangeLockRegister c e.1, execRowCommandPerform c e.1, execRowCommandComplete c e.1,
    execCopyComplete c e.1, execCopyFault c e.1]) ++
  k.buoys.map fun b => execBuoyRetire c b.1

/-- The events of a front end. -/
def frontEvents (f : Nat) : List Event :=
  [execStreamPacketEnter f, execLaunchHeader f, execTaskPacket f, execGroupPlace f, execSemaphoreWait f, execSemaphoreTimeout f,
    execSemaphorePoll f, execSemaphoreSignal f]

/-- The events of a port with its gateway. -/
def portEvents (p : Nat) (x : Port) : List Event :=
  [execLinkPacketArrive p, execNakTimer p] ++ x.replay.map (fun f => execReplayTimeout p f.seq) ++
  x.store.map fun r => execRetryTimeout p r.pid

/-- The events that may take place next. -/
def candidates (s : State) : List Event :=
  s.cores.flatMap (fun c => coreEvents c.1 c.2) ++ s.net.flatMap packetEvents ++
  s.fes.flatMap (fun f => frontEvents f.1) ++ (if s.net.isEmpty && s.notices.isEmpty then [] else [execLinkPacketArrive 16]) ++
  s.ports.flatMap (fun p => portEvents p.1 p.2) ++ s.reroute.map (fun r => execRouteSwitch r.dest) ++
  s.combines.map (fun c => execTensorCombine c.tree c.block) ++
  s.folios.map (fun f => execFolioFree (f.1 / 8) (f.1 % 8)) ++
  (List.range s.pids.length).map execPidRecordExpire ++
  (match s.forward with | none => [] | some f => [execForwardWindowExpire f.1]) ++
  (if s.firm.busy then [execAttestReport] else [])

/-- Bytes put at the start of a memory. -/
def putBytes : Memory → Nat → List Byte → Memory
  | m, _, [] => m
  | m, a, b :: bs => putBytes (m.setByte a b) (a + 1) bs

/-- A thread as a launch places it (spec/14 R307) in domain 0. -/
def loadedThread (uid : Nat) : Thread :=
  { uid := uid, pc := 0, g := Vector.replicate 10 0, wk := 0, pw := 1, dom := 0, group := {} }

/-- The load that stands for boot software (log 4): domain 0 of core 0 valid, privileged, of the system, its guard the
whole local store; the words at address 0 of its instruction store; a thread in slot 0; the agenda issues it. -/
def placeWords (s : State) (bs : List Byte) : State :=
  let k := s.core 0
  let e : DomCopy := ⟨0xE000000000000000, 0x0040000000000000, 0, 0, true⟩
  { (s.setCore 0 { k with
      istore := putBytes k.istore 0 bs, doms := tset k.doms 0 e, threads := tset k.threads 0 (loadedThread s.nextId) }).bump with
    agenda := [.issue 0 0], focus := 0 }

end Sys2Proof.Machine
end

