-- ==== Sys2Proof/Machine/Step.lean ====
section
/-! DEFINITION. One step of the cube: what the agenda says comes next, else an event that can take place, else the
chain that a core selects, else time. -/

namespace Sys2Proof.Machine

/-- Fetch, decode and issue the chain at a thread's pc (R38). -/
def issueStep (c slot : Nat) (s : State) : Host.Outcome State Fault Refusal :=
  match fetchPoison s c slot with
  | some i => poisonedWords c slot i s
  | none =>
    match fetch s c slot with
    | .ok i => exec i (atThread s c slot)
    | .error _ => illegalWords c slot s

/-- Carry out one action. -/
def runAction (a : Action) (s : State) : Host.Outcome State Fault Refusal :=
  match a with
  | .ev i => exec i s
  | .issue c slot => issueStep c slot s
  | .pass u n => .next (passing s u n)

/-- The first event of a list that takes place. -/
def firstEvent : List Event → State → Option State
  | [], _ => none
  | e :: rest, s =>
    match e s with
    | .next s' => some s'
    | _ => firstEvent rest s

/-- What happens where the environment has said nothing. -/
def freeStep (s : State) : Host.Outcome State Fault Refusal :=
  match firstEvent (candidates s) s with
  | some s' => .next s'
  | none =>
    match select (s.core s.focus) with
    | some (k, slot) => issuedOr (s.core s.focus) s.focus slot (issueStep s.focus slot (picked s k))
    | none => .next (idle s)

/-- One step of the machine. -/
def step (s : State) : Host.Outcome State Fault Refusal :=
  match s.agenda with
  | a :: rest => if mayRun s a then runAction a { s with agenda := rest } else .fault .notRunning
  | [] =>
    if !s.on then .fault .notRunning
    else if s.recovery then .next (idle s)
    else freeStep s

/-- The state in which the next step fetches and runs the instruction of a row of the opcode table: the words stand at
pc 0 of core 0, whose context slot 0 holds a thread in a valid domain, and the agenda issues it (log 4). -/
def State.withFetchWord (s : State) (nbits w : Nat) : State := placeWords s (bytesOf (tableHalves nbits w))

end Sys2Proof.Machine
end

