-- ==== Sys2Proof/Safety.lean ====
section
/-! DEFINITION. The terms that claims are stated in: a safe run, the conditions under which a chain executes, and what
an instruction leaves unchanged. -/

namespace Sys2Proof

/-- `n` steps from a state are taken without a fault or a refusal. -/
def safeFor (n : Nat) (s : Machine.State) : Prop :=
  match n with
  | 0 => True
  | k + 1 => ∃ s', Machine.step s = .next s' ∧ safeFor k s'

namespace Machine

/-- The thread whose coded instruction is at hand. -/
def State.here (s : State) : Option Thread := s.thread? s.cur.1 s.cur.2

/-- The core at hand. -/
def State.hereCore (s : State) : CoreSt := s.core s.cur.1

/-- A chain passes everything that stands before its execution (spec/01 R30, R36, R38; spec/20 R411): its thread is
ready, its own words and its checks against the thread are in order, it names no pending result of the span, its guard
holds, its queue ports do not block, and what it reads is sound. -/
def executable (s : State) (t : Thread) (o : Op) (c : Chain) : Bool :=
  t.isReady && (chainErr o c).isNone && (threadErr s s.cur.1 t o c).isNone && !hazard t.span o c &&
  guardHolds t.pw o c && !guardParity t c && (portWait s s.cur.1 s.cur.2 o c).isNone &&
  (brokenSource s s.cur.1 t o c).isNone

/-- Every byte of every memory reads as before: DRAM, and the local store, B-store and instruction store of each core. -/
def SameMemory (s u : State) : Prop :=
  (∀ a, u.dram.byte a = s.dram.byte a) ∧
  ∀ c a, (u.core c).lstore.byte a = (s.core c).lstore.byte a ∧ (u.core c).bstore.byte a = (s.core c).bstore.byte a ∧
    (u.core c).istore.byte a = (s.core c).istore.byte a

/-- Nothing has changed but the thread at hand, the cycle counter of its core, and the model's own two counters: every
other register of the cube, every other thread and every byte of memory is as before. -/
def Framed (s u : State) : Prop :=
  u = { s with cores := u.cores, freeCtr := u.freeCtr, nextId := u.nextId } ∧
  (∀ c, c ≠ s.cur.1 → u.core c = s.core c) ∧
  u.hereCore = { s.hereCore with cyc := u.hereCore.cyc, threads := u.hereCore.threads } ∧
  (∀ i, i ≠ s.cur.2 → u.thread? s.cur.1 i = s.thread? s.cur.1 i) ∧ SameMemory s u

/-- Of a thread nothing has changed but its general registers, predicate word, pc, pending results and what the
scheduler keeps of it: every trap register, the work identifier, the lease with its registers and masks, the queues, the
gate levels and every other register is as before. -/
def Kept (t τ : Thread) : Prop :=
  τ = { t with
    g := τ.g, pw := τ.pw, pc := τ.pc, span := τ.span, pend := τ.pend, status := τ.status, lastIssue := τ.lastIssue,
    order := τ.order, atHome := τ.atHome, parity := τ.parity }

/-- Every general register but those of a list is as before. -/
def KeptG (t τ : Thread) (except : List Nat) : Prop := ∀ n, n < 10 → n ∉ except → τ.greg n = t.greg n

/-- The thread goes on at a pc with the pending results and the span given; the switch marker parks it, and with nothing
pending it is ready again in a new span at once (spec/01 R35, R36). -/
def GoesOn (c : Chain) (τ : Thread) (pc : Nat) (pend : List Pend) (span : List Res) : Prop :=
  τ.pc = pc ∧ τ.pend = pend ∧
  (if c.marker then
    (if pend = [] then τ.status = .ready ∧ τ.span = [] else τ.status = .parked false ∧ τ.span = span)
   else τ.status = .ready ∧ τ.span = span)

/-- The address of the chain that follows. -/
def nextPc (o : Op) (c : Chain) (t : Thread) : Nat := t.pc + chainBytes o c

/-- The fields a and b name no queue port. -/
def portless (c : Chain) : Bool := !isQueue c.a && (!c.hasReg || !isQueue c.b)

/-- The second operand of a compare and of other instructions that read a and then an immediate, b or zero (spec/04
R97). -/
def secondOf (o : Op) (c : Chain) (t : Thread) : Word :=
  if c.hasImm then immVal o c else if c.hasReg then t.scalar c.b else 0

/-- The operands x and y of "d op a", "a op b" and "a op imm" (spec/02 R50, spec/04 R93). -/
def operandX (c : Chain) (t : Thread) : Word := if c.hasImm || c.hasReg then t.scalar c.a else t.scalar c.d
def operandY (o : Op) (c : Chain) (t : Thread) : Word :=
  if c.hasImm then immVal o c else if c.hasReg then t.scalar c.b else t.scalar c.a

/-- The effective address of a memory operand without a queue port (spec/02 R50). -/
def addressOf (o : Op) (c : Chain) (t : Thread) : Word :=
  t.scalar c.a + (if c.hasImm then immVal o c else if c.hasReg then t.scalar c.b else 0)

/-! ### Floating-point operands (spec/03 R66, R81; spec/04 R110) -/

/-- The format codes of the sources a and b: ef, or what FSEL names in their place. -/
def fpFmtA (o : Op) (c : Chain) (t : Thread) : Nat := fmtA t.pw true (etCode o c)
def fpFmtB (o : Op) (c : Chain) (t : Thread) : Nat := fmtB t.pw true (etCode o c)

/-- The low bits of a scalar field that a format takes. -/
def lowBits (code : Nat) (w : Word) : Nat := w.toNat % 2 ^ (fmtOf code).width

/-- A scalar field read in a format, with the flush controls of the predicate word. -/
def fpValue (t : Thread) (code : Nat) (f : BitVec 4) : FVal := fread (fctlOf t.pw) (fmtOf code) (lowBits code (t.scalar f))

/-- The operands x and y of "d op a" and "a op b" as values; `d op a` reads d in ef. -/
def fpX (o : Op) (c : Chain) (t : Thread) : FVal :=
  if c.hasReg then fpValue t (fpFmtA o c t) c.a else fpValue t (etCode o c) c.d
def fpY (o : Op) (c : Chain) (t : Thread) : FVal :=
  if c.hasReg then fpValue t (fpFmtB o c t) c.b else fpValue t (fpFmtA o c t) c.a

/-- FSEL names permitted formats for the sources that are read. -/
def fpFormatsOk (o : Op) (c : Chain) (t : Thread) : Bool :=
  fselFmtOk (fpFmtA o c t) && (!c.hasReg || fselFmtOk (fpFmtB o c t))

/-- A value written in ef: its code and the exceptions of the writing with those of the operation. -/
def fpWritten (o : Op) (c : Chain) (t : Thread) (r : FVal × Flags) : Word × Flags :=
  let w := fwrite (fctlOf t.pw) (fmtOf (etCode o c)) r.1
  (word w.1, w.2 ||| r.2)

/-- What a chain of a thread is issued as: its core and slot, its words, its place and the predicate word before the
issue. -/
def ctxOf (s : State) (t : Thread) (o : Op) (c : Chain) : Ctx :=
  ⟨s.cur.1, s.cur.2, o, c, t.pc, t.pc + chainBytes o c, t.pw⟩

/-- The thread with which a chain executes: the cycle of the issue is noted, PP and FSEL are cleared (spec/01 R33,
R34). -/
def issuedThread (s : State) (t : Thread) : Thread :=
  { t with lastIssue := some (issueCycle s s.cur.1 t), pw := clearPP t.pw }

/-- The state in which a chain of the thread at hand executes. -/
def issuedFor (s : State) (t : Thread) (o : Op) (c : Chain) : State := issued s (ctxOf s t o c)

/-- The chain of the thread at hand has had its effect, which has made the state `e`: the thread goes on at the next
chain. -/
def endsIn (s : State) (t : Thread) (o : Op) (c : Chain) (e : State) : State :=
  finishAt e (ctxOf s t o c) (nextPc o c t)

/-- The chain of the thread at hand has made the state `e` and goes on at a pc. -/
def goesTo (s : State) (t : Thread) (o : Op) (c : Chain) (e : State) (pc : Nat) : State := finishAt e (ctxOf s t o c) pc

/-- The thread at hand of a state, changed. -/
def State.modHere (s : State) (f : Thread → Thread) : State := s.modThread s.cur.1 s.cur.2 f

/-- The core at hand of a state, changed. -/
def State.modHereCore (s : State) (f : CoreSt → CoreSt) : State := s.modCore s.cur.1 f

/-- The state `e`, which the chain of the thread at hand of `s` has made, with a scalar register of that thread
written. -/
def withReg (s e : State) (d : BitVec 4) (v : Word) : State :=
  e.modThread s.cur.1 s.cur.2 fun u => u.setScalar d v

/-- The chain of the thread at hand has made the state `e` and is not completed: the thread has a status, and its
predicate word as before the issue (spec/01 R33). -/
def heldIn (s : State) (t : Thread) (e : State) (st : Status) : State :=
  (e.modThread s.cur.1 s.cur.2 fun u => { u with status := st }).modThread s.cur.1 s.cur.2 fun u => { u with pw := t.pw }

/-- Where an event goes on with a chain, and the queue port that it then pops. -/
def resumeOf (o : Op) (c : Chain) (t : Thread) (d : BitVec 4) : Resume :=
  { next := nextPc o c t, marker := c.marker, d := d, pop := ((queueSources o c).head?).map portOf }

/-- The dwords of a number, the first lowest. -/
def dwordsOf (n v : Nat) : List Word := (List.range n).map fun i => word (v / 2 ^ (64 * i))

/-! ### Vector operands (spec/05 R119, R125, R126) -/

/-- No vector register that the chain names is a stream register. -/
def streamless (o : Op) (c : Chain) (t : Thread) : Bool := (vecFields o c).all fun n => (t.stream? n).isNone

/-- A vector register as a number. -/
def vecReg (t : Thread) (n : Nat) : Nat := (t.vreg n).toNat

/-- The vector operands x and y of "d op a" and "a op b". -/
def vecX (c : Chain) (t : Thread) : Nat := if c.hasReg then vecReg t c.va else vecReg t c.vd
def vecY (c : Chain) (t : Thread) : Nat := if c.hasReg then vecReg t c.vb else vecReg t c.va

/-- Element i is active (R126). -/
def laneActive (o : Op) (c : Chain) (t : Thread) (i : Nat) : Bool :=
  !((opRow o).imm == .mask && bit (immVal o c) 2) || bit (t.mask (bits (immVal o c) 1 0)) i

/-- The elements 0 to n - 1 of width w of a result: `f` where active, else the old element or zero (R126). -/
def LanesAre (o : Op) (c : Chain) (t : Thread) (n w old : Nat) (f : Nat → Nat) (v : Nat) : Prop :=
  ∀ i, i < n → lane w v i =
    if laneActive o c t i then f i % 2 ^ w else if bit (immVal o c) 3 then 0 else lane w old i % 2 ^ w

/-- The exceptions of the active elements (R127). -/
def lanesFlags (o : Op) (c : Chain) (t : Thread) (n : Nat) (f : Nat → Flags) : Flags :=
  (List.range n).foldl (fun a i => a ||| if laneActive o c t i then f i else 0) 0

/-- Element i of a floating-point source, read in a format (R127). -/
def vecValue (t : Thread) (code v i : Nat) : FVal := fread (fctlOf t.pw) (fmtOf code) (lane (fw code) v i)

/-- The formats of the vector operands x and y. -/
def vecFmtX (o : Op) (c : Chain) (t : Thread) : Nat := if c.hasReg then fpFmtA o c t else etCode o c
def vecFmtY (o : Op) (c : Chain) (t : Thread) : Nat := if c.hasReg then fpFmtB o c t else fpFmtA o c t

/-- An element written in ef: its code and the exceptions with those of the operation. -/
def vecWritten (o : Op) (c : Chain) (t : Thread) (r : FVal × Bool × Flags) : Nat × Flags :=
  let w := fwriteSt (fctlOf t.pw) (fmtOf (etCode o c)) r.1 r.2.1
  (w.1, w.2 ||| r.2.2)

/-! ### The results of an instruction -/

/-- The instruction has written the register d at once and ORed exceptions into the sticky flags; it has written nothing
else. d = zr writes no register. -/
def ShortResult (o : Op) (c : Chain) (s u : State) (t τ : Thread) (v : Word) (fl : Flags) : Prop :=
  Framed s u ∧ Kept t τ ∧ GoesOn c τ (nextPc o c t) t.pend t.span ∧ τ.pw = pwOrFlags (clearPP t.pw) fl ∧
  KeptG t τ [c.d.toNat] ∧ (c.d.toNat < 10 → τ.greg c.d.toNat = v)

/-- The instruction has written the predicate d and ORed exceptions into the sticky flags, and nothing else; p0 is not
written. -/
def PredResult (o : Op) (c : Chain) (s u : State) (t τ : Thread) (b : Bool) (fl : Flags) : Prop :=
  Framed s u ∧ Kept t τ ∧ GoesOn c τ (nextPc o c t) t.pend t.span ∧
  τ.pw = pwOrFlags (pwSetPred (clearPP t.pw) c.d.toNat b) fl ∧ KeptG t τ []

/-- The instruction has written the predicate word, and no register. -/
def PwResult (o : Op) (c : Chain) (s u : State) (t τ : Thread) (pw : Word) : Prop :=
  Framed s u ∧ Kept t τ ∧ GoesOn c τ (nextPc o c t) t.pend t.span ∧ τ.pw = pw ∧ KeptG t τ []

/-- The instruction has written the lease at once (its vector registers, masks, or the lease itself), and nothing else.
-/
def LeaseResult (o : Op) (c : Chain) (s u : State) (t τ : Thread) (l : Option Lease) : Prop :=
  Framed s u ∧ Kept { t with lease := l } τ ∧ GoesOn c τ (nextPc o c t) t.pend t.span ∧ τ.pw = clearPP t.pw ∧
  KeptG t τ []

/-- The instruction has written no predicate and no register but those of a list, and goes on at a pc. -/
def FlowResult (c : Chain) (s u : State) (t τ : Thread) (pc : Nat) (except : List Nat) : Prop :=
  Framed s u ∧ Kept t τ ∧ GoesOn c τ pc t.pend t.span ∧ τ.pw = clearPP t.pw ∧ KeptG t τ except

/-- The instruction has made a long result pending (spec/01 R34, R36): its registers are named by the span, and what it
will write is known; it has written nothing yet. Where it names no register that can be pending (d = zr, R26), nothing is
pending and no register is written; exceptions alone are ORed into the sticky flags, at once. -/
def LongResult (o : Op) (c : Chain) (s u : State) (t τ : Thread) (res : List Res) (ws : List RegWrite) : Prop :=
  Framed s u ∧ Kept t τ ∧ KeptG t τ [] ∧
  if res = [] then
    GoesOn c τ (nextPc o c t) t.pend t.span ∧ τ.pw = (({ t with pw := clearPP t.pw } : Thread).writes ws).pw
  else
    (∃ id, GoesOn c τ (nextPc o c t) (t.pend ++ [⟨id, some ws, resReg res⟩]) (t.span ++ res)) ∧ τ.pw = clearPP t.pw

/-- The state with the local store of the core at hand, and the words of that core that hold poison, replaced. -/
def State.withStore (s : State) (m : Memory) (poison : List (Nat × Nat)) : State :=
  s.setCore s.cur.1 { s.hereCore with lstore := m, poison := poison }

/-- The local store of the core at hand has become `m` and its poisoned words `poison`; beside them nothing has changed
but what `Framed` allows, and of the local store no byte outside the stored ones. -/
def StoreFramed (s u : State) (m : Memory) (poison : List (Nat × Nat)) (stored : Nat → Prop) : Prop :=
  Framed (s.withStore m poison) u ∧ u.hereCore.lstore = m ∧ ∀ a, ¬ stored a → m.byte a = s.hereCore.lstore.byte a

/-- The instruction has stored to the local store and has written no register and no predicate. -/
def StoreResult (o : Op) (c : Chain) (s u : State) (t τ : Thread) (m : Memory) (poison : List (Nat × Nat))
    (stored : Nat → Prop) : Prop :=
  StoreFramed s u m poison stored ∧ Kept t τ ∧ GoesOn c τ (nextPc o c t) t.pend t.span ∧ τ.pw = clearPP t.pw ∧
  KeptG t τ []

end Machine

end Sys2Proof
end

