-- ==== Sys2Proof/Certificates/Slice0/Obligations.lean ====
section
/-! DEFINITION. The statements for the provers. -/

namespace Sys2Proof

open Machine

/-! ### Scalar integer instructions: what each computes -/

/-- The instructions "d := f(x, y)" of spec/04 R93 and what each computes. -/
def aluTwo : List (Op × (Word → Word → Word)) :=
  [(.add, fun x y => x + y), (.sub, fun x y => x - y), (.mul, fun x y => x * y), (.mulh, mulHigh), (.mulhn, mulHighN),
   (.and, fun x y => x &&& y), (.or, fun x y => x ||| y), (.xor, fun x y => x ^^^ y), (.andn, fun x y => x &&& ~~~ y),
   (.shl, fun x y => x <<< (y.toNat % 64)), (.shr, fun x y => x >>> (y.toNat % 64)),
   (.sar, fun x y => x.sshiftRight (y.toNat % 64)), (.rol, fun x y => x.rotateLeft (y.toNat % 64)), (.min, minS),
   (.max, maxS), (.minn, minN), (.maxn, maxN)]

/-- The long divisions of spec/04 R94. -/
def aluLong : List (Op × (Word → Word → Word)) := [(.div, divS), (.divn, divN), (.rem, remS), (.remn, remN)]

/-- The instructions "d := f(a)" of spec/04 R95; SEXT takes its integer etype. -/
def aluOne : List (Op × (Nat → Word → Word)) :=
  [(.mov, fun _ a => a), (.neg, fun _ a => -a), (.not, fun _ a => ~~~ a), (.abs, fun _ a => if a.slt 0 then -a else a),
   (.clz, fun _ a => clzW a), (.ctz, fun _ a => ctzW a), (.popc, fun _ a => popcW a), (.brev, fun _ a => brevW a),
   (.bswap, fun _ a => bswapW a), (.sext, fun e a => extendTo64 e a.toNat)]

/-- The compares of spec/04 R97. -/
def compares : List (Op × (Word → Word → Bool)) :=
  [(.cmpeq, fun a b => a == b), (.cmpne, fun a b => a != b), (.cmplt, fun a b => a.slt b), (.cmple, fun a b => a.sle b),
   (.cmpltn, fun a b => a.ult b), (.cmplen, fun a b => a.ule b), (.tst, fun a b => (a &&& b) != 0)]

/-- The predicate operations of two operands of spec/04 R98. -/
def predTwo : List (Op × (Bool → Bool → Bool)) :=
  [(.pand, fun p q => p && q), (.por, fun p q => p || q), (.pxor, fun p q => p != q)]

/-- The predicate operands p and q of R98: pd op pa, or pa op pb with XREG. -/
def predP (c : Chain) (t : Thread) : Bool := pwPred t.pw (if c.hasReg then c.a.toNat else c.d.toNat)
def predQ (c : Chain) (t : Thread) : Bool := pwPred t.pw (if c.hasReg then c.b.toNat else c.a.toNat)

/-- The moves and immediate forms of spec/04 R96, R99 and R100 and the value each writes. -/
def moves : List (Op × (Chain → Thread → Word)) :=
  [(.movi, fun c _ => immVal .movi c), (.addi, fun c t => t.scalar c.d + immVal .addi c),
   (.andi, fun c t => t.scalar c.d &&& immVal .andi c), (.rdpw, fun _ t => t.pw ||| 1),
   (.sel, fun c t => if pwPred t.pw c.guard.toNat != c.neg then t.scalar c.a else t.scalar c.b)]

/-- The target of BT, BF and CALL (spec/02 R54): the address of the first word plus twice the immediate, modulo 2^18. -/
def relativeTarget (o : Op) (c : Chain) (t : Thread) : Nat := (((t.pc : Int) + 2 * immInt o c) % 0x40000).toNat

/-! ### Scalar floating point: what each computes -/

/-- The instructions "d := f(x, y)" of spec/04 R110 and R111 in floating point. -/
def fpTwo : List (Op × (RMode → FVal → FVal → FVal × Flags)) :=
  [(.fadd, fun m x y => faddX m x y), (.fsub, fun m x y => faddX m x y.neg), (.fmul, fun _ x y => fmulX x y),
   (.fmin, fun _ x y => fminmaxX false x y), (.fmax, fun _ x y => fminmaxX true x y)]

/-- The instructions "d := f(a)" of spec/04 R110, R113 and R114: the default format of the source for an ef, whether AV
is honoured, and the result of the bits of a source in a format. -/
def fpOne : List (Op × (Nat → Nat) × Bool × (FCtl → Nat → Nat → Nat → Word × Flags)) :=
  [(.fabs, id, false, fun _ _ f a => (word (fsignOp false (fmtOf f) a), 0)),
   (.fneg, id, false, fun _ _ f a => (word (fsignOp true (fmtOf f) a), 0)),
   (.fclass, id, true, fun _ _ f a => (word (fclassOf (fmtOf f) a), 0)),
   (.fcvt, fun _ => 0, true, fun k e f a =>
      let v := fread k (fmtOf f) a
      (word (fwrite (k.copying (f == e)) (fmtOf e) v).1, (fwrite (k.copying (f == e)) (fmtOf e) v).2 ||| sigFlag v)),
   (.ftoi, id, true, fun k _ f a =>
      let r := fToInt k.mode (intMin 3) (intMax 3) (fread k (fmtOf f) a)
      (BitVec.ofInt 64 r.1, r.2)),
   (.fton, id, true, fun k _ f a =>
      let r := fToInt k.mode (intMin 7) (intMax 7) (fread k (fmtOf f) a)
      (BitVec.ofInt 64 r.1, r.2)),
   (.frnd, id, false, fun k e f a =>
      let r := frndX k.mode (fread k (fmtOf f) a)
      (word (fwrite k (fmtOf e) r.1).1, (fwrite k (fmtOf e) r.1).2 ||| r.2))]

/-- The compares of spec/04 R112: which are quiet, and the relation. -/
def fpCompares : List (Op × Bool × (FVal → FVal → Bool)) :=
  [(.fcmpeq, true, feqX), (.fcmplt, false, fltX false), (.fcmple, false, fleX), (.fcmpun, true, funX)]

/-- The exceptions of a compare (R112). -/
def compareFlags (quiet : Bool) (x y : FVal) : Flags :=
  if quiet then sigFlag x ||| sigFlag y else if x.isNan || y.isNan then flNV else 0

/-- d + a × b, or d − a × b (R110). -/
def fusedOf (subtract : Bool) (o : Op) (c : Chain) (t : Thread) : FVal × Flags :=
  let a := fpValue t (fpFmtA o c t) c.a
  ffmaX (fctlOf t.pw).mode (fpValue t (etCode o c) c.d) (if subtract then a.neg else a) (fpValue t (fpFmtB o c t) c.b)

/-- What a long floating-point result writes: its code in ef and its exceptions. -/
def longFloat (o : Op) (c : Chain) (t : Thread) (r : FVal × Bool × Flags) : List RegWrite :=
  let w := fwriteSt (fctlOf t.pw) (fmtOf (etCode o c)) r.1 r.2.1
  [.g c.d.toNat (word w.1), .flags (w.2 ||| r.2.2)]

/-! ### Vector instructions: what each computes -/

/-- The instructions "d[i] := f(x[i], y[i])" on integers of spec/05 R129, on the bits of elements of an integer type. -/
def vecIntTwo : List (Op × (Nat → Nat → Nat → Nat)) :=
  [(.viadd, fun e a b => wrapTo (etWidth e) (intOf e a + intOf e b)),
   (.visub, fun e a b => wrapTo (etWidth e) (intOf e a - intOf e b)),
   (.vimul, fun e a b => wrapTo (etWidth e) (intOf e a * intOf e b)),
   (.vimulh, fun e a b => wrapTo (etWidth e) (intOf e a * intOf e b / 2 ^ etWidth e)), (.vimin, vmin), (.vimax, vmax),
   (.vand, fun _ a b => a &&& b), (.vor, fun _ a b => a ||| b), (.vxor, fun _ a b => a ^^^ b), (.vshl, vshl), (.vshr, vshr),
   (.viadds, fun e a b => wrapTo (etWidth e) (clampInt (intMin e) (intMax e) (intOf e a + intOf e b))),
   (.visubs, fun e a b => wrapTo (etWidth e) (clampInt (intMin e) (intMax e) (intOf e a - intOf e b)))]

/-- The other integer vector instructions under mask control (spec/05 R129, R135): the width of their elements for an
integer type and element i of their result. -/
def vecIntOne : List (Op × (Nat → Nat) × (Nat → Chain → Thread → Nat → Nat)) :=
  [(.viabs, etWidth, fun e c t i => wrapTo (etWidth e) (intOf e (lane (etWidth e) (vecReg t c.va) i)).natAbs),
   (.vineg, etWidth, fun e c t i => wrapTo (etWidth e) (-(intOf e (lane (etWidth e) (vecReg t c.va) i)))),
   (.vimad, etWidth, fun e c t i =>
      lane (etWidth e) (vecReg t c.vd) i + lane (etWidth e) (vecReg t c.va) i * lane (etWidth e) (vecReg t c.vb) i),
   (.viota, etWidth, fun _ _ _ i => i), (.vmov, fun _ => 8, fun _ c t i => lane 8 (vecReg t c.va) i)]

/-- Whole-register moves without mask control (spec/05 R135): element i of the result. -/
def vecMoves : List (Op × (Nat → Chain → Thread → Nat → Nat)) :=
  [(.vperm, fun w c t i => lane w (vecReg t c.va) (lane w (vecReg t c.vb) i % (1024 / w))),
   (.vbcast, fun _ c t _ => (t.scalar c.a).toNat), (.vsplati, fun _ c _ _ => (immVal .vsplati c).toNat)]

/-- The integer compares of spec/05 R131. -/
def vecIntCompares : List (Op × (Int → Int → Bool)) :=
  [(.vicmpeq, fun a b => a == b), (.vicmplt, fun a b => decide (a < b)), (.vicmple, fun a b => decide (a ≤ b))]

/-- The mask operations of two operands of spec/05 R132. -/
def maskTwo : List (Op × (BitVec 128 → BitVec 128 → BitVec 128)) :=
  [(.mand, fun a b => a &&& b), (.mor, fun a b => a ||| b), (.mxor, fun a b => a ^^^ b)]

/-- The integer reductions of spec/05 R133 and their value where no element is active. -/
def vecIntReductions : List (Op × (Int → Int → Int) × (Nat → Int)) :=
  [(.virsum, fun a b => a + b, fun _ => 0), (.virmin, fun a b => min a b, intMax), (.virmax, fun a b => max a b, intMin)]

/-- The active elements of a vector register as integers. -/
def activeElements (o : Op) (c : Chain) (t : Thread) (a : Nat) : List Int :=
  ((List.range (1024 / etWidth (etCode o c))).filter (laneActive o c t)).map fun i =>
    intOf (etCode o c) (lane (etWidth (etCode o c)) a i)

/-- The lease with a mask, or with a vector register, written. -/
def leaseMask (t : Thread) (n : Nat) (x : BitVec 128) : Option Lease := t.lease.map fun l => { l with m := tset l.m n x }
def leaseVec (t : Thread) (n : Nat) (x : BitVec 1024) : Option Lease := t.lease.map fun l => { l with v := tset l.v n x }

/-- The instructions "d[i] := f(x[i], y[i])" in floating point of spec/05 R130. -/
def vecFloatTwo : List (Op × (RMode → FVal → FVal → FVal × Bool × Flags)) :=
  [(.vadd, fun m x y => ((faddX m x y).1, false, (faddX m x y).2)),
   (.vsub, fun m x y => ((faddX m x y.neg).1, false, (faddX m x y.neg).2)),
   (.vmul, fun _ x y => ((fmulX x y).1, false, (fmulX x y).2)), (.vdiv, fun _ x y => fdivX x y),
   (.vmin, fun _ x y => ((fminmaxX false x y).1, false, (fminmaxX false x y).2)),
   (.vmax, fun _ x y => ((fminmaxX true x y).1, false, (fminmaxX true x y).2))]

/-- The instructions "d[i] := f(a[i])" of spec/05 R130 and R139: the default format of the source for an ef, whether AV
is honoured, the width of a result element, and the result of the bits of a source element in a format. -/
def vecFloatOne : List (Op × (Nat → Nat) × Bool × (Nat → Nat) × (FCtl → Nat → Nat → Nat → Nat × Flags)) :=
  [(.vsqrt, id, true, fw, fun k e f a =>
      let q := fsqrtX (fread k (fmtOf f) a)
      ((fwriteSt k (fmtOf e) q.1 q.2.1).1, (fwriteSt k (fmtOf e) q.1 q.2.1).2 ||| q.2.2)),
   (.vabs, id, false, fw, fun _ e _ a => (fsignOp false (fmtOf e) a, 0)),
   (.vneg, id, false, fw, fun _ e _ a => (fsignOp true (fmtOf e) a, 0)),
   (.vcvt, fun _ => 1, true, fw, fun k e f a =>
      let v := fread k (fmtOf f) a
      ((fwriteSt k (fmtOf e) v false).1, (fwriteSt k (fmtOf e) v false).2 ||| sigFlag v)),
   (.vcvti, fun _ => 1, true, etWidth, fun k e f a =>
      let r := fToInt k.mode (intMin e) (intMax e) (fread k (fmtOf f) a)
      (wrapTo (etWidth e) r.1, r.2))]

/-- The float compares into masks of spec/05 R131. -/
def vecFloatCompares : List (Op × Bool × (FVal → FVal → Bool)) :=
  [(.vcmpeq, true, feqX), (.vcmplt, false, fltX false), (.vcmple, false, fleX), (.vcmpun, true, funX)]

/-- The float reductions of spec/05 R134 and their combinations. -/
def vecFloatReductions : List (Op × Bool × (RMode → FVal → FVal → FVal × Flags)) :=
  [(.vrsum, true, faddX), (.vrmin, false, fun _ a b => fminmaxX false a b), (.vrmax, false, fun _ a b => fminmaxX true a b)]

/-- The leaf-order reduction (spec/03 R86) of the active elements: position i holds element i, absent where inactive. -/
def reduced (o : Op) (c : Chain) (s : State) (t : Thread) (sum : Bool) (f : RMode → FVal → FVal → FVal × Flags)
    (code n : Nat) : Nat × Flags :=
  let leaves := (List.range n).map fun i =>
    if laneActive o c t i then some (RedElem.mk code (lane (fw code) (vecReg t c.va) i) 0 false) else none
  match treeFold (redCombine (ctxOf s t o c) f) 7 (leaves ++ List.replicate (128 - n) none) with
  | none => (if sum then 0 else (fmtOf (etCode o c)).nanCode, 0)
  | some r => redFinish (ctxOf s t o c) r

/-- Element i of VFMA and of VCVTF, with its exceptions. -/
def fusedLane (c : Chain) (t : Thread) (i : Nat) : Nat × Flags :=
  let r := ffmaX (fctlOf t.pw).mode (vecValue t (etCode .vfma c) (vecReg t c.vd) i)
    (vecValue t (fpFmtA .vfma c t) (vecReg t c.va) i) (vecValue t (fpFmtB .vfma c t) (vecReg t c.vb) i)
  vecWritten .vfma c t (r.1, false, r.2)
def integerLane (c : Chain) (t : Thread) (i : Nat) : Nat × Flags :=
  let e := etCode .vcvtf c
  fwrite { fctlOf t.pw with ovf := false } (fmtOf e) (fromInt (intOf (cvtfInt e) (lane (fw e) (vecReg t c.va) i)) 0 false)

/-! ### The local window (spec/04 R104) -/

/-- A range of the local window that the thread may read, or write: its check gives an offset of the local store, no
range lock is in the way, and, for a load, no word of it holds poison. -/
def Loadable (s : State) (t : Thread) (ea : Word) (n align off : Nat) : Prop :=
  windowCheck (s.domEntry s.cur.1 t) ea n align = .ok off ∧ threadConflict s.hereCore false ⟨0, off, n⟩ = false ∧
  poisonIn s.hereCore 0 off n = none
def Storable (s : State) (t : Thread) (ea : Word) (n align off : Nat) : Prop :=
  windowCheck (s.domEntry s.cur.1 t) ea n align = .ok off ∧ threadConflict s.hereCore true ⟨0, off, n⟩ = false

/-- What a store leaves of the local store of the core at hand: its bytes and its poisoned words. -/
def storedBytes (s : State) (off n x : Nat) : Memory := s.hereCore.lstore.write off n x
def storedPoison (s : State) (off n : Nat) : List (Nat × Nat) := (cleanPoison s.hereCore 0 off n).poison

/-- Stores of the active elements of a register in increasing index, element i at `off i`. -/
def storedLanes (s : State) (act : Nat → Bool) (off : Nat → Nat) (n k v : Nat) : Memory :=
  (List.range k).foldl (fun m i => if act i then m.write (off i) n (lane (8 * n) v i) else m) s.hereCore.lstore

/-- Byte a is stored by one of the active elements. -/
def InLanes (act : Nat → Bool) (off : Nat → Nat) (n k a : Nat) : Prop :=
  ∃ i, i < k ∧ act i = true ∧ off i ≤ a ∧ a < off i + n

/-- The address of element i of VLDS and VSTS, and of VGATH and VSCAT (spec/05 R137). -/
def strideAddress (c : Chain) (t : Thread) (i : Nat) : Word := t.scalar c.a + word i * t.scalar c.b
def indexAddress (o : Op) (c : Chain) (t : Thread) (i : Nat) : Word :=
  t.scalar c.a + BitVec.ofInt 64 (intOf (etCode o c) (lane (etWidth (etCode o c)) (vecReg t c.vb) i) *
    (etWidth (etCode o c) / 8 : Nat))

/-- The instructions with one access to the local window: the bytes and the alignment for an etype, and whether it is a
store (spec/04 R104, spec/05 R136). -/
def windowOps : List (Op × (Nat → Nat) × (Nat → Nat) × Bool) :=
  [(.ldl, etBytes, etBytes, false), (.stl, etBytes, etBytes, true), (.vld, fun _ => 128, fun _ => 8, false),
   (.vst, fun _ => 128, fun _ => 8, true), (.vldm, fun _ => 16, fun _ => 8, false), (.vstm, fun _ => 16, fun _ => 8, true)]

/-- The 32 FP32 elements of the vector register a (spec/05 R141). -/
def blockElements (c : Chain) (t : Thread) : List FVal := (List.range 32).map (vecValue t 1 (vecReg t c.va))

/-- The pending writes of a quantisation: codes from the low end, the scale in the top byte, the exceptions (R140, R141). -/
def blockWrites (c : Chain) (w scale : Nat) (xs : List FVal) (es : List (Nat × Flags)) : List RegWrite :=
  [.v c.vd (BitVec.ofNat 1024 (packLanes w (es.map (·.1)) + scale * 2 ^ 1016)), .flags (quantFlags xs es)]

/-- An element of a block read back: NaN under the NaN scale, else scaled, written in FP32 (R141, R142). -/
def readBack (c : Chain) (t : Thread) (x : FVal) : Nat × Flags :=
  let scale := lane 8 (vecReg t c.va) 127
  fwrite (fctlOf t.pw) .fp32 (if scale == 0xFF then .nan false else fscale x ((scale : Int) - 127))
def readBackFlags (c : Chain) (t : Thread) (f : Nat → FVal) : Flags :=
  (List.range 32).foldl (fun a i => a ||| (readBack c t (f i)).2) 0

/-! ### Control registers (spec/07 R220) -/

/-- The control registers of a thread and of its core and what CTLR reads of each. -/
def controlValues (s : State) (t : Thread) : List (Nat × Word) :=
  [(0, t.xpc), (1, t.xpw), (2, t.xcause), (3, t.xaddr), (4, t.frec), (5, t.fraddr), (6, hdepthOf t), (7, word t.dom),
   (8, word (s.ep s.cur.1)), (9, word (mailSet s.hereCore t.group).mberr.toNat), (0x10, s.hereCore.mwlim),
   (0x11, s.hereCore.mglim), (0x12, s.hereCore.fewlim), (0x20, s.splitc), (0x21, s.hereCore.dtab), (0x22, capsAddr s)]

/-- What CTLW of a word does, by selector; xpc keeps bits 17:1, xcause its defined bits,
mberr loses the bits written. -/
def controlWrites (t : Thread) : List (Nat × (State → Word → State)) :=
  [(0, fun e w => e.modHere fun u => { u with xpc := w &&& 0x3FFFE }),
   (1, fun e w => e.modHere fun u => { u with xpw := w }),
   (2, fun e w => e.modHere fun u => { u with xcause := w &&& 0xFFFFC0FF }),
   (3, fun e w => e.modHere fun u => { u with xaddr := w }),
   (4, fun e w => if w = 0 then e.modHere fun u => { u with frec := 0 } else e),
   (9, fun e w => e.modHereCore fun k => if (mailSet k t.group).mberr = 0 then k else setMail k t.group
     { mailSet k t.group with mberr := (mailSet k t.group).mberr &&& ~~~ (BitVec.ofNat 16 w.toNat) }),
   (0x10, fun e w => e.modHereCore fun k => { k with mwlim := w }),
   (0x11, fun e w => e.modHereCore fun k => { k with mglim := w }),
   (0x12, fun e w => e.modHereCore fun k => { k with fewlim := w }),
   (0x20, fun e w => { e with splitc := if e.ucieUp then w &&& 0x7F else 0x7F })]

/-! ### Gates (spec/07 R211-R214) -/

/-- The gate entry that GCALL names, and its target domain as the core at hand gives it. -/
def calledGate (c : Chain) (s : State) (t : Thread) : GateEntry :=
  gateEntry s.hereCore (s.domEntry s.cur.1 t) (immInt .gcall c).toNat
def calledDom (c : Chain) (s : State) (t : Thread) : DomCopy := domOf s.hereCore (bits (calledGate c s t).w0 55 44)

/-- A refused GCALL: GATE with a detail, the gate number in xaddr. -/
def gateTrap (c : Chain) (s : State) (t : Thread) (detail : Nat) : State :=
  takeTrap s s.cur.1 s.cur.2
    { cause := cGATE, detail := detail, xaddr := word (immInt .gcall c).toNat, xpc := t.pc }

/-- g0 to g9 with those whose bit of a mask is 0 zeroed. -/
def maskedRegs (g : Vector Word 10) (mask : Nat) : Vector Word 10 :=
  Vector.ofFn fun i => if mask / 2 ^ i.val % 2 = 1 then g[i] else 0

/-! ### The global space (spec/07 R188-R202) -/

/-- Loads and fetch atomics: the access, and whether it is a fetch (R189, R192, R193, R200). -/
def globalLoads : List (Op × AccOp × Bool) :=
  [(.ld, .ld, false), (.faadd, .aadd, true), (.faand, .aand, true), (.faor, .aor, true), (.faxor, .axor, true),
   (.famin, .amin, true), (.famax, .amax, true), (.faminn, .aminn, true), (.famaxn, .amaxn, true),
   (.fafadd, .afadd, true), (.swp, .swp, true), (.cas, .cas, true), (.ldfe, .ldfe, false), (.ldff, .ldff, false)]

/-- Stores, message atomics and full/empty messages (R191, R192, R200). -/
def globalMessages : List (Op × AccOp) :=
  [(.st, .st), (.strel, .st), (.aadd, .aadd), (.aand, .aand), (.aor, .aor), (.axor, .axor), (.amin, .amin), (.amax, .amax),
   (.aminn, .aminn), (.amaxn, .amaxn), (.afadd, .afadd), (.stfe, .stfe), (.stff, .stff), (.feclr, .feclr)]

/-- The address of an access; CAS adds its immediate (R193). -/
def globalAddress (o : Op) (c : Chain) (t : Thread) : Word :=
  if o = .cas then t.scalar c.a + immVal o c else addressOf o c t

/-- The access of a chain: FECLR carries no value, CAS its comparand. -/
def accessOf (o : Op) (c : Chain) (t : Thread) (op : AccOp) (fetch : Bool) : Access :=
  ⟨op, fetch, accessEt o (etCode o c), accessBytes o (etCode o c), if op = .feclr then 0 else t.scalar c.d,
    if o = .cas then t.scalar c.b else 0, c.scope.code, c.nt⟩

/-- The address passes the checks at issue (R188, R200), which give the global address. -/
def Reaches (s : State) (t : Thread) (o : Op) (c : Chain) (op : AccOp) (g : Word) : Prop :=
  issueCheck s (ctxOf s t o c) t op (globalAddress o c t) = .ok g

/-- A packet of the thread at hand to the home of an address, in the class of the chain. -/
def packetFor (s : State) (t : Thread) (c : Chain) (g : Word) (b : Body) : Packet :=
  addressed s s.cur.1 s.cur.2 t.uid (if c.urg then 1 else 0) true g t.dom (s.domEntry s.cur.1 t).priv b

/-- The home core of an address that lies in no DRAM. -/
def homeCore (g : Word) : Option Nat :=
  match regionOf (eaOff g) with
  | .lstore h _ => some h
  | .bstore h _ => some h
  | .config _ => some 1024
  | _ => none

/-- The home of an address is the core at hand, by its endpoint (R3). -/
def AtOwnCore (s : State) (g : Word) : Prop := ∃ k, homeCore g = some k ∧ eaCube g * 2048 + k = s.ep s.cur.1

/-- The address lies in the local store of the core at hand, at an offset. -/
def InOwnStore (s : State) (g : Word) (off : Nat) : Prop := regionOf (eaOff g) = .lstore s.cur.1 off ∧ eaCube g = s.logical

/-- The load is performed in the state `e` with the value `old`: its result is pending (R189), a fetch atomic takes a
sequence number (R197). -/
def loaded (s : State) (t : Thread) (o : Op) (c : Chain) (a : Access) (e : State) (old : Nat) : State :=
  endsIn s t o c (addPend
    (if a.fetch then e.modThread s.cur.1 s.cur.2 fun u => { u with aseq := u.aseq + 1 } else e) s.cur.1 s.cur.2
    (gRes c.d) (some [.g c.d.toNat (fetchValue a old)]))

/-- The state with a message of the thread at hand posted and counted for FENCE in a scope (R198); a message to memory
takes a sequence number (R197, spec/20 R421). -/
def posted (e : State) (p : Packet) (scope : Nat) (numbered : Bool) : State :=
  (e.post p).modHere fun u =>
    { u with sends := u.sends ++ [(e.nextId, scope)], aseq := if numbered then u.aseq + 1 else u.aseq }

/-- The request of a moored thread for an access to DRAM (R194): the thread waits for its answer. -/
def requested (s : State) (t : Thread) (o : Op) (c : Chain) (a : Access) (g : Word) : State :=
  heldIn s t ((if a.fetch then (issuedFor s t o c).modHere fun u => { u with aseq := u.aseq + 1 } else issuedFor s t o c).post
    { packetFor s t c g (.request a) with seq := t.aseq }) (.awaiting s.nextId (resumeOf o c t c.d))

/-- What the slice of this cube makes of a DRAM address for an access of the core at hand (R189, spec/15 R338): the
translation with its home, or its failure, and the state that it leaves. -/
def dramUse (s : State) (t : Thread) (o : Op) (c : Chain) (a : Access) (g : Word) : Except TrapRec (Xl × Nat) × State :=
  translateUse (issuedFor s t o c) g t.dom (s.domEntry s.cur.1 t).priv a.needsR a.needsW s.cur.1

/-! ### Barriers, messages and tasks (spec/07 R203-R210) -/

/-- The barrier that a barrier instruction names. -/
def namedBarrier (s : State) (t : Thread) (o : Op) (c : Chain) : BarName := barName s t c (immInt o c).toNat

/-- A packet of the thread at hand straight to an endpoint, in a class, with its domain, its privilege and the owner tag
of its core. -/
def directFor (s : State) (t : Thread) (dst urg : Nat) (b : Body) : Packet :=
  { directPacket s (s.ep s.cur.1) dst urg t.uid s.cur.2 b with
    dom := t.dom, priv := (s.domEntry s.cur.1 t).priv, key := s.hereCore.owner }

/-- A request of the thread at hand to a barrier unit. -/
def toBarrier (s : State) (t : Thread) (b : BarName) (body : Body) : Packet := toUnit s s.cur.1 s.cur.2 t.uid b body

/-- The arrivals: the instruction, whether it drops, whether it then waits (R204). -/
def arrivals : List (Op × Bool × Bool) := [(.barr, false, false), (.bdrop, true, false), (.baw, false, true)]

/-- The thread has no arrival that is still unreleased or lost. -/
def noArrival (t : Thread) : Prop := ∀ a, t.arrival = some a → a.released = true ∧ a.lost = false

/-- The class of a chain's packets (R269). -/
def classOf (c : Chain) : Nat := if c.urg then 1 else 0

/-- The dwords that the local store of the core at hand holds. -/
def storeDwords (s : State) (off n : Nat) : List Word := dwordsOf n (s.hereCore.lstore.read off (8 * n))

/-- A core with a received message's words stored, their poison noted and the message taken off its queue (R208). -/
def takeMessage (k : CoreSt) (task off : Nat) (m : TaskMsg) (rest : List TaskMsg) : CoreSt :=
  { k with
    lstore := k.lstore.write off (8 * m.words.length) (joinWords m.words), recvq := tset k.recvq task ⟨rest⟩,
    poison := (cleanPoison k 0 off (8 * m.words.length)).poison ++ m.bad.map fun i => (0, off / 8 + i) }

/-! ### Folios (spec/06 R163-R167) -/

/-- The block length, the number of blocks and the base that FOPEN's operand gives. -/
def folioBlock (a : Word) : Nat := bits a 63 48 * 64
def folioCount (a : Word) : Nat := bits a 47 38 + 1
def folioBase (a : Word) : Nat := bits a 21 0

/-- The index of folio slot i of the quire of the core at hand. -/
def folioIndex (s : State) (i : Nat) : Nat := s.cur.1 / 16 * 8 + i

/-- The lock of a folio: the whole buffer, for reading. -/
def folioLock (s : State) (i : Nat) (a : Word) : RangeLock :=
  ⟨.folio (s.cur.1 / 16) i, false, [⟨0, folioBase a, folioCount a * folioBlock a⟩], []⟩

/-! ### Streams, copies and bank-dot (spec/06 R168-R183) -/

/-- The pattern of a descriptor of four dwords. -/
def streamPattern (d : List Word) : Pattern := patternOf (d.getD 0 0) (d.getD 1 0) (d.getD 2 0) (d.getD 3 0)

/-- A lease whose vector register n is zero and has a stream, or none. -/
def leaseStream (t : Thread) (n : Nat) (st : Option Stream) : Option Lease :=
  t.lease.map fun l => { l with
    v := tset l.v n 0, streams := match st with | some x => tset l.streams n x | none => tdel l.streams n }

/-- The copies and their kinds (R172-R174). -/
def copies : List (Op × Nat) := [(.cpyg, 1), (.cpyp, 2), (.cpyd, 3)]

/-- The bytes of the bank-dot vector, and whether they hold poison. -/
def bankVector (s : State) (t : Thread) : List Byte :=
  (List.range (bdVecBytes t.bdcfg)).map fun i => s.hereCore.lstore.byte (bits t.bdcfg 21 0 + i)
def bankPoison (s : State) (t : Thread) : Bool :=
  (poisonIn s.hereCore 0 (bits t.bdcfg 21 0) (bdVecBytes t.bdcfg)).isSome

/-! ### Privileged instructions (spec/07 R222-R227) -/

/-- What SLINV drops of what the slices hold, by mode (R222). -/
def invalidations : List (Nat × (Word → State → State)) :=
  [(0, fun a e => { e with leaves := e.leaves.filter fun l => l.page != eaOff a / 2 ^ pageBits l.level }),
   (1, fun a e => { e with leaves := e.leaves.filter fun l => bits l.d0 56 50 != bits a 6 0 }),
   (2, fun _ e => { e with leaves := [], spaceHeld := [] })]

/-- A system message of the thread at hand, counted for FENCE (R225). -/
def sentSystem (s : State) (t : Thread) (o : Op) (c : Chain) (ep : Nat) (b : Body) : State :=
  ((issuedFor s t o c).send { directFor s t ep 0 b with priv := true }).modHere fun u =>
    { u with sends := u.sends ++ [(s.nextId, 3)] }

/-! ### Events -/

/-- The matrix commands of words and the kind of each (spec/06 R151, R154). -/
def matrixKinds : List ((Nat → Nat → Word → Instr) × Nat) :=
  [(.compute, 1), (.acczero, 2), (.accload, 3), (.accstore, 4)]


/-! ### Parts: statements that an obligation joins -/

/-- R93 (spec/04): each instruction of `aluTwo` that executes answers a next state in which d holds f(x, y), with x and
y by R50; d = zr writes nothing, and nothing else changes. -/
def Claim.AluTwoResult : Prop :=
  ∀ e ∈ aluTwo, ∀ (c : Chain) (s : State) (t : Thread), s.here = some t → executable s t e.1 c = true →
    portless c = true → isQueue c.d = false →
    ∃ u τ, exec (Instr.ofOp e.1 c) s = .next u ∧ u.here = some τ ∧
      ShortResult e.1 c s u t τ (e.2 (operandX c t) (operandY e.1 c t)) 0

/-- R95 (spec/04): each instruction of `aluOne` that executes writes f(a) to d. -/
def Claim.AluOneResult : Prop :=
  ∀ e ∈ aluOne, ∀ (c : Chain) (s : State) (t : Thread), s.here = some t → executable s t e.1 c = true →
    isQueue c.a = false → isQueue c.d = false →
    ∃ u τ, exec (Instr.ofOp e.1 c) s = .next u ∧ u.here = some τ ∧
      ShortResult e.1 c s u t τ (e.2 (etCode e.1 c) (t.scalar c.a)) 0

/-- R97 (spec/04): each compare that executes writes f(a, s) to the predicate d. -/
def Claim.CompareResult : Prop :=
  ∀ e ∈ compares, ∀ (c : Chain) (s : State) (t : Thread), s.here = some t → executable s t e.1 c = true →
    portless c = true →
    ∃ u τ, exec (Instr.ofOp e.1 c) s = .next u ∧ u.here = some τ ∧
      PredResult e.1 c s u t τ (e.2 (t.scalar c.a) (secondOf e.1 c t)) 0

/-- R98 (spec/04): PAND, POR and PXOR write p op q, PNOT writes NOT pa, to the predicate d. -/
def Claim.PredicateOperations : Prop :=
  ∀ (c : Chain) (s : State) (t : Thread), s.here = some t →
    (∀ e ∈ predTwo, executable s t e.1 c = true →
      ∃ u τ, exec (Instr.ofOp e.1 c) s = .next u ∧ u.here = some τ ∧
        PredResult e.1 c s u t τ (e.2 (predP c t) (predQ c t)) 0) ∧
    (executable s t .pnot c = true →
      ∃ u τ, exec (.pnot c) s = .next u ∧ u.here = some τ ∧
        PredResult .pnot c s u t τ (!pwPred t.pw c.a.toNat) 0)

/-- R96, R99, R100 (spec/04): MOVI, ADDI, ANDI, RDPW and SEL write d; RDPW reads the predicate word as it stood before
its issue cleared PP. -/
def Claim.MoveResult : Prop :=
  ∀ e ∈ moves, ∀ (c : Chain) (s : State) (t : Thread), s.here = some t → executable s t e.1 c = true →
    isQueue c.a = false → isQueue c.b = false → isQueue c.d = false →
    ∃ u τ, exec (Instr.ofOp e.1 c) s = .next u ∧ u.here = some τ ∧ ShortResult e.1 c s u t τ (e.2 c t) 0

/-- R109 (spec/04): RDCYC writes the cycle counter of the core, as its issue has left it. -/
def Claim.CycleCounterRead : Prop :=
  ∀ (c : Chain) (s : State) (t : Thread), s.here = some t → executable s t .rdcyc c = true → isQueue c.d = false →
    ∃ u τ, exec (.rdcyc c) s = .next u ∧ u.here = some τ ∧
      ShortResult .rdcyc c s u t τ (word (u.cyc s.cur.1)) 0 ∧ u.cyc s.cur.1 = issueCycle s s.cur.1 t ∧
      s.cyc s.cur.1 < u.cyc s.cur.1

/-- R99, R115, R117 (spec/04): WRPW writes the whole predicate word but p0, FCLRF clears the sticky flags that its mask
names, FMT sets PP and FSEL. -/
def Claim.PredicateWordWrites : Prop :=
  ∀ (c : Chain) (s : State) (t : Thread), s.here = some t →
    (executable s t .wrpw c = true → isQueue c.a = false → wrpwBad (t.scalar c.a) = false →
      ∃ u τ, exec (.wrpw c) s = .next u ∧ u.here = some τ ∧ PwResult .wrpw c s u t τ (t.scalar c.a ||| 1)) ∧
    (executable s t .fclrf c = true →
      ∃ u τ, exec (.fclrf c) s = .next u ∧ u.here = some τ ∧
        PwResult .fclrf c s u t τ (clearPP t.pw &&& ~~~ (word ((immInt .fclrf c).toNat * 2 ^ 16)))) ∧
    (executable s t .fmt c = true →
      ∃ u τ, exec (.fmt c) s = .next u ∧ u.here = some τ ∧
        PwResult .fmt c s u t τ (setPP t.pw (BitVec.ofNat 12 (immInt .fmt c).toNat)))

/-- R101, R102, R106 (spec/02, spec/04): NOP goes on at the next chain; BT and BF go to their target where the predicate
d is 1, or 0, and else to the next chain; CALL goes to its target and writes the next address to d. -/
def Claim.RelativeBranches : Prop :=
  ∀ (c : Chain) (s : State) (t : Thread), s.here = some t →
    (executable s t .nop c = true →
      ∃ u τ, exec (.nop c) s = .next u ∧ u.here = some τ ∧ FlowResult c s u t τ (nextPc .nop c t) []) ∧
    (executable s t .bt c = true →
      ∃ u τ, exec (.bt c) s = .next u ∧ u.here = some τ ∧
        FlowResult c s u t τ (if pwPred t.pw c.d.toNat then relativeTarget .bt c t else nextPc .bt c t) []) ∧
    (executable s t .bf c = true →
      ∃ u τ, exec (.bf c) s = .next u ∧ u.here = some τ ∧
        FlowResult c s u t τ (if pwPred t.pw c.d.toNat then nextPc .bf c t else relativeTarget .bf c t) []) ∧
    (executable s t .call c = true → isQueue c.d = false →
      ∃ u τ, exec (.call c) s = .next u ∧ u.here = some τ ∧
        FlowResult c s u t τ (relativeTarget .call c t) [c.d.toNat] ∧
        (c.d.toNat < 10 → τ.greg c.d.toNat = word (nextPc .call c t)))

/-- R102 (spec/04): JR and CALLR go to a[17:0] where a is even, CALLR with the next address in d; where a is odd they
take ALIGN with a in xaddr and write nothing else. -/
def Claim.RegisterBranches : Prop :=
  ∀ (c : Chain) (s : State) (t : Thread), s.here = some t →
    (executable s t .jr c = true → bit (t.scalar c.a) 0 = false →
      ∃ u τ, exec (.jr c) s = .next u ∧ u.here = some τ ∧ FlowResult c s u t τ ((t.scalar c.a).toNat % 2 ^ 18) []) ∧
    (executable s t .callr c = true → bit (t.scalar c.a) 0 = false → isQueue c.d = false →
      ∃ u τ, exec (.callr c) s = .next u ∧ u.here = some τ ∧
        FlowResult c s u t τ ((t.scalar c.a).toNat % 2 ^ 18) [c.d.toNat] ∧
        (c.d.toNat < 10 → τ.greg c.d.toNat = word (nextPc .callr c t))) ∧
    (∀ o : Op, o = .jr ∨ o = .callr → executable s t o c = true → bit (t.scalar c.a) 0 = true →
      exec (Instr.ofOp o c) s =
        .next (takeTrap s s.cur.1 s.cur.2 { cause := cALIGN, xaddr := t.scalar c.a, xpc := t.pc }))

/-- R110, R111 (spec/04): FADD, FSUB, FMUL, FMIN and FMAX that execute write the result of f on the values x and y in ef
to d and OR the exceptions of f and of the writing into the sticky flags. -/
def Claim.FloatTwoResult : Prop :=
  ∀ e ∈ fpTwo, ∀ (c : Chain) (s : State) (t : Thread), s.here = some t → executable s t e.1 c = true →
    portless c = true → isQueue c.d = false → fpFormatsOk e.1 c t = true →
    ∃ u τ, exec (Instr.ofOp e.1 c) s = .next u ∧ u.here = some τ ∧
      ShortResult e.1 c s u t τ
        (fpWritten e.1 c t (e.2 (fctlOf t.pw).mode (fpX e.1 c t) (fpY e.1 c t))).1
        (fpWritten e.1 c t (e.2 (fctlOf t.pw).mode (fpX e.1 c t) (fpY e.1 c t))).2

/-- R110 (spec/04): FMA writes d + a × b, FMS d − a × b, with one rounding. -/
def Claim.FloatMultiplyAdd : Prop :=
  ∀ e ∈ [(Op.fma, false), (Op.fms, true)], ∀ (c : Chain) (s : State) (t : Thread), s.here = some t →
    executable s t e.1 c = true → isQueue c.a = false → isQueue c.b = false → isQueue c.d = false →
    fselFmtOk (fpFmtA e.1 c t) = true → fselFmtOk (fpFmtB e.1 c t) = true →
    ∃ u τ, exec (Instr.ofOp e.1 c) s = .next u ∧ u.here = some τ ∧
      ShortResult e.1 c s u t τ
        (fpWritten e.1 c t (fusedOf e.2 e.1 c t)).1 (fpWritten e.1 c t (fusedOf e.2 e.1 c t)).2

/-- R110 (spec/04): FDIV and FSQRT are long: the result and its exceptions are pending for d and the sticky flags. -/
def Claim.FloatLongResult : Prop :=
  ∀ (c : Chain) (s : State) (t : Thread), s.here = some t → isQueue c.d = false →
    (executable s t .fdiv c = true → portless c = true → fpFormatsOk .fdiv c t = true →
      ∃ u τ, exec (.fdiv c) s = .next u ∧ u.here = some τ ∧
        LongResult .fdiv c s u t τ (gRes c.d ++ [.flags])
          (longFloat .fdiv c t (fdivX (fpX .fdiv c t) (fpY .fdiv c t)))) ∧
    (executable s t .fsqrt c = true → isQueue c.a = false → fselFmtOk (fpFmtA .fsqrt c t) = true →
      ∃ u τ, exec (.fsqrt c) s = .next u ∧ u.here = some τ ∧
        LongResult .fsqrt c s u t τ (gRes c.d ++ [.flags])
          (longFloat .fsqrt c t (fsqrtX (fpValue t (fpFmtA .fsqrt c t) c.a))))

/-- R112 (spec/04): each float compare that executes writes its relation of a and b to the predicate d; NV is set by a
NaN, in FCMPEQ and FCMPUN by a signalling NaN only. -/
def Claim.FloatCompareResult : Prop :=
  ∀ e ∈ fpCompares, ∀ (c : Chain) (s : State) (t : Thread), s.here = some t → executable s t e.1 c = true →
    isQueue c.a = false → isQueue c.b = false → fselFmtOk (fpFmtA e.1 c t) = true →
    fselFmtOk (fpFmtB e.1 c t) = true →
    ∃ u τ, exec (Instr.ofOp e.1 c) s = .next u ∧ u.here = some τ ∧
      PredResult e.1 c s u t τ
        (e.2.2 (fpValue t (fpFmtA e.1 c t) c.a) (fpValue t (fpFmtB e.1 c t) c.b))
        (compareFlags e.2.1 (fpValue t (fpFmtA e.1 c t) c.a) (fpValue t (fpFmtB e.1 c t) c.b))

/-- R81 (spec/03): an FSEL that names format 7 for a source the instruction reads makes it ILLOP: for a or b of FADD, FSUB,
FMUL, FMIN, FMAX and FDIV (b with XREG only), of FMA, FMS and the compares, and for the one source of FSQRT and of the
instructions of `fpOne` that honour AV. -/
def Claim.FormatRefused : Prop :=
  ∀ (c : Chain) (s : State) (t : Thread), s.here = some t →
    (∀ o ∈ [Op.fadd, .fsub, .fmul, .fmin, .fmax, .fdiv], executable s t o c = true → fpFormatsOk o c t = false →
      exec (Instr.ofOp o c) s = .next (takeTrap s s.cur.1 s.cur.2 { cause := cILLOP, xpc := t.pc })) ∧
    (∀ o ∈ [Op.fma, .fms, .fcmpeq, .fcmplt, .fcmple, .fcmpun], executable s t o c = true →
      fselFmtOk (fpFmtA o c t) = false ∨ fselFmtOk (fpFmtB o c t) = false →
      exec (Instr.ofOp o c) s = .next (takeTrap s s.cur.1 s.cur.2 { cause := cILLOP, xpc := t.pc })) ∧
    (executable s t .fsqrt c = true → fselFmtOk (fpFmtA .fsqrt c t) = false →
      exec (.fsqrt c) s = .next (takeTrap s s.cur.1 s.cur.2 { cause := cILLOP, xpc := t.pc })) ∧
    (∀ e ∈ fpOne, executable s t e.1 c = true → fselFmtOk (fmtA t.pw e.2.2.1 (e.2.1 (etCode e.1 c))) = false →
      exec (Instr.ofOp e.1 c) s = .next (takeTrap s s.cur.1 s.cur.2 { cause := cILLOP, xpc := t.pc }))

/-- R129, R126 (spec/05): each instruction of `vecIntTwo` that executes makes a result pending for the vector register d
whose active elements are f(x[i], y[i]) and whose others are as mask control says. -/
def Claim.VectorIntegerTwo : Prop :=
  ∀ e ∈ vecIntTwo, ∀ (c : Chain) (s : State) (t : Thread), s.here = some t → executable s t e.1 c = true →
    streamless e.1 c t = true →
    ∃ u τ v, exec (Instr.ofOp e.1 c) s = .next u ∧ u.here = some τ ∧
      LongResult e.1 c s u t τ [.v c.vd] [.v c.vd v, .flags 0] ∧
      LanesAre e.1 c t (1024 / etWidth (etCode e.1 c)) (etWidth (etCode e.1 c)) (vecReg t c.vd)
        (fun i => e.2 (etCode e.1 c) (lane (etWidth (etCode e.1 c)) (vecX c t) i)
          (lane (etWidth (etCode e.1 c)) (vecY c t) i)) v.toNat

/-- R129, R135, R126 (spec/05): VIABS, VINEG, VIMAD, VIOTA and VMOV likewise; a mask bit of VMOV governs a byte. -/
def Claim.VectorIntegerOne : Prop :=
  ∀ e ∈ vecIntOne, ∀ (c : Chain) (s : State) (t : Thread), s.here = some t → executable s t e.1 c = true →
    streamless e.1 c t = true →
    ∃ u τ v, exec (Instr.ofOp e.1 c) s = .next u ∧ u.here = some τ ∧
      LongResult e.1 c s u t τ [.v c.vd] [.v c.vd v, .flags 0] ∧
      LanesAre e.1 c t (1024 / e.2.1 (etCode e.1 c)) (e.2.1 (etCode e.1 c)) (vecReg t c.vd)
        (fun i => e.2.2 (etCode e.1 c) c t i) v.toNat

/-- R135 (spec/05): VPERM, VBCAST and VSPLATI make every element of d pending; VINS writes one element of d at once, VEXT
extracts one into a scalar register. -/
def Claim.VectorMoves : Prop :=
  ∀ (c : Chain) (s : State) (t : Thread), s.here = some t → isQueue c.a = false →
    (∀ e ∈ vecMoves, executable s t e.1 c = true → streamless e.1 c t = true →
      ∃ u τ v, exec (Instr.ofOp e.1 c) s = .next u ∧ u.here = some τ ∧
        LongResult e.1 c s u t τ [.v c.vd] [.v c.vd v, .flags 0] ∧
        ∀ i, i < 1024 / etWidth (etCode e.1 c) → lane (etWidth (etCode e.1 c)) v.toNat i =
          e.2 (etWidth (etCode e.1 c)) c t i % 2 ^ etWidth (etCode e.1 c)) ∧
    (executable s t .vins c = true →
      ∃ u τ v, exec (.vins c) s = .next u ∧ u.here = some τ ∧ LeaseResult .vins c s u t τ (leaseVec t c.vd v) ∧
        ∀ i, i < 1024 / etWidth (etCode .vins c) → lane (etWidth (etCode .vins c)) v.toNat i =
          (if i = (immInt .vins c).toNat then (t.scalar c.a).toNat
            else lane (etWidth (etCode .vins c)) (vecReg t c.vd) i) % 2 ^ etWidth (etCode .vins c)) ∧
    (executable s t .vext c = true → isQueue c.d = false →
      ∃ u τ, exec (.vext c) s = .next u ∧ u.here = some τ ∧
        ShortResult .vext c s u t τ (extendTo64 (etCode .vext c)
          (lane (etWidth (etCode .vext c)) (vecReg t c.va) (immInt .vext c).toNat)) 0)

/-- R132 (spec/05): MAND, MOR, MXOR, MNOT and MALL write the mask d at once; MPOP writes the number of ones of the mask a
to a scalar register. -/
def Claim.MaskOperations : Prop :=
  ∀ (c : Chain) (s : State) (t : Thread), s.here = some t →
    (∀ e ∈ maskTwo, executable s t e.1 c = true →
      ∃ u τ, exec (Instr.ofOp e.1 c) s = .next u ∧ u.here = some τ ∧
        LeaseResult e.1 c s u t τ (leaseMask t c.d.toNat
          (if c.hasReg then e.2 (t.mask c.a.toNat) (t.mask c.b.toNat) else e.2 (t.mask c.d.toNat) (t.mask c.a.toNat)))) ∧
    (executable s t .mnot c = true →
      ∃ u τ, exec (.mnot c) s = .next u ∧ u.here = some τ ∧
        LeaseResult .mnot c s u t τ (leaseMask t c.d.toNat (~~~ (t.mask c.a.toNat)))) ∧
    (executable s t .mall c = true →
      ∃ u τ, exec (.mall c) s = .next u ∧ u.here = some τ ∧
        LeaseResult .mall c s u t τ (leaseMask t c.d.toNat (BitVec.allOnes 128))) ∧
    (executable s t .mpop c = true → isQueue c.d = false →
      ∃ u τ, exec (.mpop c) s = .next u ∧ u.here = some τ ∧
        ShortResult .mpop c s u t τ
          (word ((List.range 128).filter fun i => bit (t.mask c.a.toNat) i).length) 0)

/-- R131 (spec/05): each integer compare makes a mask pending whose bit i, where active, is the relation of a[i] and
b[i]. -/
def Claim.VectorIntegerCompare : Prop :=
  ∀ e ∈ vecIntCompares, ∀ (c : Chain) (s : State) (t : Thread), s.here = some t → executable s t e.1 c = true →
    streamless e.1 c t = true →
    ∃ u τ v, exec (Instr.ofOp e.1 c) s = .next u ∧ u.here = some τ ∧
      LongResult e.1 c s u t τ [.m c.d.toNat] [.m c.d.toNat v, .flags 0] ∧
      LanesAre e.1 c t (1024 / etWidth (etCode e.1 c)) 1 (t.mask c.d.toNat).toNat
        (fun i => if e.2 (intOf (etCode e.1 c) (lane (etWidth (etCode e.1 c)) (vecReg t c.va) i))
          (intOf (etCode e.1 c) (lane (etWidth (etCode e.1 c)) (vecReg t c.vb) i)) then 1 else 0) v.toNat

/-- R131 (spec/05): each float compare makes a mask pending whose bit i, where active, is the relation of a[i] and
b[i], and the exceptions of the active elements. -/
def Claim.VectorFloatCompare : Prop :=
  ∀ e ∈ vecFloatCompares, ∀ (c : Chain) (s : State) (t : Thread) (n : Nat), s.here = some t →
    executable s t e.1 c = true → streamless e.1 c t = true →
    fselFmtOk (fpFmtA e.1 c t) = true → fselFmtOk (fpFmtB e.1 c t) = true →
    laneCount (max (fw (fpFmtA e.1 c t)) (fw (fpFmtB e.1 c t))) = some n →
    ∃ u τ v, exec (Instr.ofOp e.1 c) s = .next u ∧ u.here = some τ ∧
      LongResult e.1 c s u t τ [.m c.d.toNat, .flags]
        [.m c.d.toNat v, .flags (lanesFlags e.1 c t n fun i => compareFlags e.2.1
          (vecValue t (fpFmtA e.1 c t) (vecReg t c.va) i) (vecValue t (fpFmtB e.1 c t) (vecReg t c.vb) i))] ∧
      LanesAre e.1 c t n 1 (t.mask c.d.toNat).toNat
        (fun i => if e.2.2 (vecValue t (fpFmtA e.1 c t) (vecReg t c.va) i)
          (vecValue t (fpFmtB e.1 c t) (vecReg t c.vb) i) then 1 else 0) v.toNat

/-- R133 (spec/05): VIRSUM, VIRMIN and VIRMAX make the fold of the active elements of a pending for the scalar d. -/
def Claim.VectorIntegerReduction : Prop :=
  ∀ e ∈ vecIntReductions, ∀ (c : Chain) (s : State) (t : Thread), s.here = some t → executable s t e.1 c = true →
    streamless e.1 c t = true → isQueue c.d = false →
    ∃ u τ, exec (Instr.ofOp e.1 c) s = .next u ∧ u.here = some τ ∧
      LongResult e.1 c s u t τ (gRes c.d) [.g c.d.toNat (extendTo64 (etCode e.1 c) (wrapTo (etWidth (etCode e.1 c))
        ((activeElements e.1 c t (vecReg t c.va)).foldl e.2.1 (e.2.2 (etCode e.1 c))))), .flags 0]

/-- R134 (spec/05): VRSUM, VRMIN and VRMAX make the leaf-order reduction of the active elements of a and its exceptions
pending for the scalar d; VRSUM of none is +0, VRMIN and VRMAX of none NaN. -/
def Claim.VectorFloatReduction : Prop :=
  ∀ e ∈ vecFloatReductions, ∀ (c : Chain) (s : State) (t : Thread) (n code : Nat), s.here = some t →
    executable s t e.1 c = true → streamless e.1 c t = true → isQueue c.d = false →
    code = fmtA t.pw true 1 → fselFmtOk code = true → laneCount (fw code) = some n →
    ∃ u τ, exec (Instr.ofOp e.1 c) s = .next u ∧ u.here = some τ ∧
      LongResult e.1 c s u t τ (gRes c.d ++ [.flags])
        [.g c.d.toNat (word (reduced e.1 c s t e.2.1 e.2.2 code n).1), .flags (reduced e.1 c s t e.2.1 e.2.2 code n).2]

/-- R127, R130 (spec/05): each instruction of `vecFloatTwo` computes f on the values of the elements, as many as the
widest format allows, and makes their codes in ef and the exceptions of the active ones pending. -/
def Claim.VectorFloatTwo : Prop :=
  ∀ e ∈ vecFloatTwo, ∀ (c : Chain) (s : State) (t : Thread) (n : Nat), s.here = some t → executable s t e.1 c = true →
    streamless e.1 c t = true → fselFmtOk (vecFmtX e.1 c t) = true → fselFmtOk (vecFmtY e.1 c t) = true →
    laneCount (max (fw (etCode e.1 c)) (max (fw (vecFmtX e.1 c t)) (fw (vecFmtY e.1 c t)))) = some n →
    ∃ u τ v, exec (Instr.ofOp e.1 c) s = .next u ∧ u.here = some τ ∧
      LongResult e.1 c s u t τ [.v c.vd, .flags]
        [.v c.vd v, .flags (lanesFlags e.1 c t n fun i => (vecWritten e.1 c t
          (e.2 (fctlOf t.pw).mode (vecValue t (vecFmtX e.1 c t) (vecX c t) i)
            (vecValue t (vecFmtY e.1 c t) (vecY c t) i))).2)] ∧
      LanesAre e.1 c t n (fw (etCode e.1 c)) (vecReg t c.vd) (fun i => (vecWritten e.1 c t
        (e.2 (fctlOf t.pw).mode (vecValue t (vecFmtX e.1 c t) (vecX c t) i)
          (vecValue t (vecFmtY e.1 c t) (vecY c t) i))).1) v.toNat

/-- R127, R130, R139 (spec/05): VSQRT, VABS, VNEG, VCVT and VCVTI likewise of one source. -/
def Claim.VectorFloatOne : Prop :=
  ∀ e ∈ vecFloatOne, ∀ (c : Chain) (s : State) (t : Thread) (n code w : Nat), s.here = some t →
    executable s t e.1 c = true → streamless e.1 c t = true → code = fmtA t.pw e.2.2.1 (e.2.1 (etCode e.1 c)) →
    w = e.2.2.2.1 (etCode e.1 c) → fselFmtOk code = true → laneCount (max w (fw code)) = some n →
    ∃ u τ v, exec (Instr.ofOp e.1 c) s = .next u ∧ u.here = some τ ∧
      LongResult e.1 c s u t τ [.v c.vd, .flags]
        [.v c.vd v, .flags (lanesFlags e.1 c t n fun i =>
          (e.2.2.2.2 (fctlOf t.pw) (etCode e.1 c) code (lane (fw code) (vecReg t c.va) i)).2)] ∧
      LanesAre e.1 c t n w (vecReg t c.vd)
        (fun i => (e.2.2.2.2 (fctlOf t.pw) (etCode e.1 c) code (lane (fw code) (vecReg t c.va) i)).1) v.toNat

/-- R130, R139 (spec/05): VFMA writes d[i] + a[i] × b[i] with one rounding; VCVTF writes signed integers of the width of
ef, and honours no overflow mode. -/
def Claim.VectorFloatFused : Prop :=
  ∀ (c : Chain) (s : State) (t : Thread) (n : Nat), s.here = some t →
    (executable s t .vfma c = true → streamless .vfma c t = true → fselFmtOk (fpFmtA .vfma c t) = true → fselFmtOk (fpFmtB .vfma c t) = true →
      laneCount (max (fw (etCode .vfma c)) (max (fw (fpFmtA .vfma c t)) (fw (fpFmtB .vfma c t)))) = some n →
      ∃ u τ v, exec (.vfma c) s = .next u ∧ u.here = some τ ∧
        LongResult .vfma c s u t τ [.v c.vd, .flags]
          [.v c.vd v, .flags (lanesFlags .vfma c t n fun i => (fusedLane c t i).2)] ∧
        LanesAre .vfma c t n (fw (etCode .vfma c)) (vecReg t c.vd) (fun i => (fusedLane c t i).1) v.toNat) ∧
    (executable s t .vcvtf c = true → streamless .vcvtf c t = true → n = 1024 / fw (etCode .vcvtf c) →
      ∃ u τ v, exec (.vcvtf c) s = .next u ∧ u.here = some τ ∧
        LongResult .vcvtf c s u t τ [.v c.vd, .flags]
          [.v c.vd v, .flags (lanesFlags .vcvtf c t n fun i => (integerLane c t i).2)] ∧
        LanesAre .vcvtf c t n (fw (etCode .vcvtf c)) (vecReg t c.vd) (fun i => (integerLane c t i).1) v.toNat)

/-- R104 (spec/04), R136 (spec/05): LDL writes the bytes at its address, extended, to d; VLD makes a vector register
pending; VLDM writes a mask. -/
def Claim.WindowLoads : Prop :=
  ∀ (c : Chain) (s : State) (t : Thread) (off : Nat), s.here = some t → portless c = true →
    (executable s t .ldl c = true → isQueue c.d = false →
      Loadable s t (addressOf .ldl c t) (etBytes (etCode .ldl c)) (etBytes (etCode .ldl c)) off →
      ∃ u τ, exec (.ldl c) s = .next u ∧ u.here = some τ ∧
        ShortResult .ldl c s u t τ
          (extendTo64 (etCode .ldl c) (s.hereCore.lstore.read off (etBytes (etCode .ldl c)))) 0) ∧
    (executable s t .vld c = true → streamless .vld c t = true → Loadable s t (addressOf .vld c t) 128 8 off →
      ∃ u τ, exec (.vld c) s = .next u ∧ u.here = some τ ∧
        LongResult .vld c s u t τ [.v c.vd]
          [.v c.vd (BitVec.ofNat 1024 (s.hereCore.lstore.read off 128)), .flags 0]) ∧
    (executable s t .vldm c = true → Loadable s t (addressOf .vldm c t) 16 8 off →
      ∃ u τ, exec (.vldm c) s = .next u ∧ u.here = some τ ∧
        LeaseResult .vldm c s u t τ
          (leaseMask t c.d.toNat (BitVec.ofNat 128 (s.hereCore.lstore.read off 16))))

/-- R137 (spec/05): VLDS and VGATH make a vector register pending whose active elements are those at their addresses. -/
def Claim.WindowGathers : Prop :=
  ∀ (c : Chain) (s : State) (t : Thread) (off : Nat → Nat), s.here = some t →
    (executable s t .vlds c = true → streamless .vlds c t = true → isQueue c.b = false →
      (∀ i, i < 16 → Loadable s t (strideAddress c t i) 8 8 (off i)) →
      ∃ u τ v, exec (.vlds c) s = .next u ∧ u.here = some τ ∧
        LongResult .vlds c s u t τ [.v c.vd] [.v c.vd v, .flags 0] ∧
        LanesAre .vlds c t 16 64 (vecReg t c.vd) (fun i => s.hereCore.lstore.read (off i) 8) v.toNat) ∧
    (executable s t .vgath c = true → streamless .vgath c t = true →
      (∀ i, i < 1024 / etWidth (etCode .vgath c) → laneActive .vgath c t i = true →
        Loadable s t (indexAddress .vgath c t i) (etBytes (etCode .vgath c)) (etBytes (etCode .vgath c)) (off i)) →
      ∃ u τ v, exec (.vgath c) s = .next u ∧ u.here = some τ ∧
        LongResult .vgath c s u t τ [.v c.vd] [.v c.vd v, .flags 0] ∧
        LanesAre .vgath c t (1024 / etWidth (etCode .vgath c)) (etWidth (etCode .vgath c)) (vecReg t c.vd)
          (fun i => s.hereCore.lstore.read (off i) (etBytes (etCode .vgath c))) v.toNat)

/-- R104 (spec/04), R136 (spec/05): STL, VST and VSTM store the low bytes of d, the vector register d and the mask d at
the address, and change no other byte of any memory. -/
def Claim.WindowStores : Prop :=
  ∀ (c : Chain) (s : State) (t : Thread) (off : Nat), s.here = some t → portless c = true →
    (executable s t .stl c = true → isQueue c.d = false →
      Storable s t (addressOf .stl c t) (etBytes (etCode .stl c)) (etBytes (etCode .stl c)) off →
      ∃ u τ, exec (.stl c) s = .next u ∧ u.here = some τ ∧
        StoreResult .stl c s u t τ (storedBytes s off (etBytes (etCode .stl c)) (t.scalar c.d).toNat)
          (storedPoison s off (etBytes (etCode .stl c))) fun a => off ≤ a ∧ a < off + etBytes (etCode .stl c)) ∧
    (executable s t .vst c = true → streamless .vst c t = true → Storable s t (addressOf .vst c t) 128 8 off →
      ∃ u τ, exec (.vst c) s = .next u ∧ u.here = some τ ∧
        StoreResult .vst c s u t τ (storedBytes s off 128 (vecReg t c.vd)) (storedPoison s off 128)
          fun a => off ≤ a ∧ a < off + 128) ∧
    (executable s t .vstm c = true → Storable s t (addressOf .vstm c t) 16 8 off →
      ∃ u τ, exec (.vstm c) s = .next u ∧ u.here = some τ ∧
        StoreResult .vstm c s u t τ (storedBytes s off 16 (t.mask c.d.toNat).toNat) (storedPoison s off 16)
          fun a => off ≤ a ∧ a < off + 16)

/-- R137 (spec/05): VSTS and VSCAT store the active elements of d at their addresses in increasing index, and change no
other byte of any memory. -/
def Claim.WindowScatters : Prop :=
  ∀ (c : Chain) (s : State) (t : Thread) (off : Nat → Nat), s.here = some t →
    (executable s t .vsts c = true → streamless .vsts c t = true → isQueue c.b = false →
      (∀ i, i < 16 → Storable s t (strideAddress c t i) 8 8 (off i)) →
      ∃ u τ p, exec (.vsts c) s = .next u ∧ u.here = some τ ∧
        StoreResult .vsts c s u t τ (storedLanes s (fun _ => true) off 8 16 (vecReg t c.vd)) p
          (InLanes (fun _ => true) off 8 16)) ∧
    (executable s t .vscat c = true → streamless .vscat c t = true →
      (∀ i, i < 1024 / etWidth (etCode .vscat c) → laneActive .vscat c t i = true →
        Storable s t (indexAddress .vscat c t i) (etBytes (etCode .vscat c)) (etBytes (etCode .vscat c)) (off i)) →
      ∃ u τ p, exec (.vscat c) s = .next u ∧ u.here = some τ ∧
        StoreResult .vscat c s u t τ
          (storedLanes s (laneActive .vscat c t) off (etBytes (etCode .vscat c)) (1024 / etWidth (etCode .vscat c))
            (vecReg t c.vd)) p
          (InLanes (laneActive .vscat c t) off (etBytes (etCode .vscat c)) (1024 / etWidth (etCode .vscat c))))

/-- R211, R212, R213, R214 (spec/07), R347 (spec/15): GCALL pushes the next pc, the domain and the predicate word, keeps
the registers that the entry names and goes to the entry's pc in its domain; GRET restores them and keeps the registers
that its immediate names; GRET in a handler entered inside the call leaves the handler too, with the cause in g0. -/
def Claim.GateCalls : Prop :=
  ∀ (c : Chain) (s : State) (t : Thread), s.here = some t →
    (executable s t .gcall c = true → (immInt .gcall c).toNat < (s.domEntry s.cur.1 t).gtn →
      (calledGate c s t).ok = true → (calledGate c s t).admits t.dom = true → t.gates.length < 4 →
      (calledDom c s t).ok = true → (calledGate c s t).window (calledDom c s t) = true →
      exec (.gcall c) s = .next (goesTo s t .gcall c
        (((issuedFor s t .gcall c).modHereCore fun k => useDom k (bits (calledGate c s t).w0 55 44)).modHere fun u =>
          { u with
            gates := ⟨nextPc .gcall c t, t.dom, clearPP t.pw⟩ :: t.gates, g := maskedRegs t.g (bits (calledGate c s t).w0 9 0),
            pw := gatePw (clearPP t.pw), dom := bits (calledGate c s t).w0 55 44,
            leaseGate := if t.lease.isSome = true ∧ t.leaseGate = 0 then t.gates.length + 1 else t.leaseGate })
        (bits (calledGate c s t).w0 43 26))) ∧
    (executable s t .gret c = true → ∀ f rest, t.gates = f :: rest →
      (t.inHandler = false ∨ t.gates.length ≠ t.entryDepth → exec (.gret c) s = .next (goesTo s t .gret c
        (((issuedFor s t .gret c).modHereCore fun k => useDom k f.dom).modHere fun u =>
          { u with gates := rest, dom := f.dom, pw := f.pw, g := maskedRegs t.g (immInt .gret c).toNat,
                   leaseGate := if t.leaseGate = t.gates.length then 0 else t.leaseGate }) f.next)) ∧
      (t.inHandler = true → t.gates.length = t.entryDepth → exec (.gret c) s = .next (goesTo s t .gret c
        (((issuedFor s t .gret c).modHereCore fun k => useDom k f.dom).modHere fun u =>
          { u with gates := rest, dom := f.dom, pw := f.pw, inHandler := false,
                   g := (Vector.replicate 10 0).set 0 (word (2 ^ 63 + bits t.xcause 31 0)),
                   leaseGate := if t.leaseGate = t.gates.length then 0 else t.leaseGate }) f.next)))

/-- R211, R217 (spec/07), R347 (spec/15): a GCALL that fails takes GATE with its detail, in the order of R347, and has no
other effect. -/
def Claim.GateRefused : Prop :=
  ∀ (c : Chain) (s : State) (t : Thread), s.here = some t → executable s t .gcall c = true →
    ((s.domEntry s.cur.1 t).gtn ≤ (immInt .gcall c).toNat ∨ (calledGate c s t).ok = false →
      exec (.gcall c) s = .next (gateTrap c s t 1)) ∧
    ((immInt .gcall c).toNat < (s.domEntry s.cur.1 t).gtn → (calledGate c s t).ok = true →
      ((calledGate c s t).admits t.dom = false → exec (.gcall c) s = .next (gateTrap c s t 2)) ∧
      ((calledGate c s t).admits t.dom = true →
        (4 ≤ t.gates.length → exec (.gcall c) s = .next (gateTrap c s t 3)) ∧
        (t.gates.length < 4 →
          ((calledDom c s t).ok = false → exec (.gcall c) s = .next (gateTrap c s t 7)) ∧
          ((calledDom c s t).ok = true → (calledGate c s t).window (calledDom c s t) = false →
            exec (.gcall c) s = .next (gateTrap c s t 6)))))

/-- R27, R34 (spec/01): an instruction of `aluOne` whose source is a queue port takes the port's oldest entry and makes
its result pending; d = zr writes nothing. -/
def Claim.QueuePortReads : Prop :=
  ∀ e ∈ aluOne, ∀ (c : Chain) (s : State) (t : Thread) (v : Word) (rest : List Word), s.here = some t →
    executable s t e.1 c = true → isQueue c.d = false →
    (c.a = 12 → t.q0 = v :: rest → exec (Instr.ofOp e.1 c) s = .next (endsIn s t e.1 c (addPend
      ((issuedFor s t e.1 c).modHere fun u => { u with q0 := rest, out0 := t.out0 - 1 }) s.cur.1 s.cur.2 (gRes c.d)
      (some [.g c.d.toNat (e.2 (etCode e.1 c) v), .flags 0])))) ∧
    (c.a = 13 → t.q1 = v :: rest → exec (Instr.ofOp e.1 c) s = .next (endsIn s t e.1 c (addPend
      ((issuedFor s t e.1 c).modHere fun u => { u with q1 := rest, out1 := t.out1 - 1 }) s.cur.1 s.cur.2 (gRes c.d)
      (some [.g c.d.toNat (e.2 (etCode e.1 c) v), .flags 0])))) ∧
    (c.a = 14 → recvTaken s.hereCore s.cur.2 t.task = false → ∀ q, popRecv (tgetD s.hereCore.recvq t.task {}) = some (v, q) →
      exec (Instr.ofOp e.1 c) s = .next (endsIn s t e.1 c (addPend
        (replay ((issuedFor s t e.1 c).modHereCore fun k => { k with recvq := tset k.recvq t.task q }) t.task)
        s.cur.1 s.cur.2 (gRes c.d) (some [.g c.d.toNat (e.2 (etCode e.1 c) v), .flags 0])))) ∧
    (c.a = 15 → ∀ id q, t.q3 = (id, some v) :: q → exec (Instr.ofOp e.1 c) s = .next (endsIn s t e.1 c (addPend
      ((issuedFor s t e.1 c).modHere fun u => { u with q3 := q }) s.cur.1 s.cur.2 (gRes c.d)
      (some [.g c.d.toNat (e.2 (etCode e.1 c) v), .flags 0]))))

/-- R27 (spec/01), R145 (spec/06), R207 (spec/07): an instruction of `aluOne` whose destination is a queue port hands its
result to the unit of the port. -/
def Claim.QueuePortWrites : Prop :=
  ∀ e ∈ aluOne, ∀ (c : Chain) (s : State) (t : Thread), s.here = some t → executable s t e.1 c = true →
    isQueue c.a = false → isQueue c.d = true →
    (∀ u, pushPort (issuedFor s t e.1 c) s.cur.1 s.cur.2 (c.d.toNat - 12) (e.2 (etCode e.1 c) (t.scalar c.a)) = some u →
      exec (Instr.ofOp e.1 c) s = .next (endsIn s t e.1 c u)) ∧
    (c.d = 14 → exec (Instr.ofOp e.1 c) s = .next (endsIn s t e.1 c
      ((issuedFor s t e.1 c).modHere fun u => { u with stage := t.stage ++ [e.2 (etCode e.1 c) (t.scalar c.a)] })))

/-- A chain passes what stands before its queue ports: its words and fields, its span and its guard. -/
def reachesPorts (s : State) (t : Thread) (o : Op) (c : Chain) : Bool :=
  t.isReady && (chainErr o c).isNone && (threadErr s s.cur.1 t o c).isNone && !hazard t.span o c &&
  guardHolds t.pw o c && !guardParity t c

/-- R27 (spec/01), R38: a chain whose source is an empty queue port, or whose destination is one without room, blocks
before it executes, whatever else its execution would find, and has no effect. -/
def Claim.QueuePortsBlock : Prop :=
  ∀ e ∈ aluOne, ∀ (c : Chain) (s : State) (t : Thread), s.here = some t → reachesPorts s t e.1 c = true →
    ((c.a = 12 ∧ t.q0 = []) ∨ (c.a = 13 ∧ t.q1 = []) ∨
        (c.a = 14 ∧ ((tgetD s.hereCore.recvq t.task {}).msgs = [] ∨ recvTaken s.hereCore s.cur.2 t.task = true)) ∨
        (c.a = 15 ∧ (t.q3 = [] ∨ ∃ id q, t.q3 = (id, none) :: q)) →
      exec (Instr.ofOp e.1 c) s = .next (blockAt s (ctxOf s t e.1 c) (.pop (c.a.toNat - 12)))) ∧
    (isQueue c.a = false → (c.d = 12 ∧ t.half.isSome = true ∧ matrixRoom s.hereCore t = false) ∨
        (c.d = 13 ∧ copyRoom s.hereCore t = false) ∨ (c.d = 14 ∧ 16 ≤ t.stage.length) →
      exec (Instr.ofOp e.1 c) s = .next (blockAt s (ctxOf s t e.1 c) (.push (c.d.toNat - 12))))

/-- R189, R192, R193, R194 (spec/07): a load or fetch atomic of DRAM that the core at hand is not the home of, or of
another cube: a moored thread asks the home with a request and waits for its answer, a free thread departs for the home.
Of a word of another core's store or of the configuration region a free thread departs, and a moored one takes MOORED. CAS
likewise. -/
def Claim.GlobalLoadsAway : Prop :=
  ∀ e ∈ globalLoads, ∀ (c : Chain) (s : State) (t : Thread) (g : Word), s.here = some t → executable s t e.1 c = true →
    isQueue c.b = false → Reaches s t e.1 c e.2.1 g → t.atHome = none →
    ∀ a, a = accessOf e.1 c t e.2.1 e.2.2 →
    (regionOf (eaOff g) = .dram →
      (eaCube g ≠ s.logical ∨ (∀ xl, (dramUse s t e.1 c a g).1 ≠ .ok (xl, s.cur.1))) →
      (t.moored = true → exec (Instr.ofOp e.1 c) s = .next (requested s t e.1 c a g)) ∧
      (t.moored = false → exec (Instr.ofOp e.1 c) s =
        .next (heldIn s t (issuedFor s t e.1 c) (.departing 0 g (if c.urg then 1 else 0) a.needsW)))) ∧
    ((homeCore g).isSome = true → ¬ AtOwnCore s g → t.moored = false →
      exec (Instr.ofOp e.1 c) s =
        .next (heldIn s t (issuedFor s t e.1 c) (.departing 0 g (if c.urg then 1 else 0) a.needsW))) ∧
    ((homeCore g).isSome = true → ¬ AtOwnCore s g → t.moored = true → exec (Instr.ofOp e.1 c) s =
      .next (takeTrap s s.cur.1 s.cur.2 { cause := cMOORED, remote := true, xaddr := g, xpc := t.pc }))

/-- R189, R192, R193, R201 (spec/07), R34 (spec/01): a load or fetch atomic whose home is the thread's own core, with no
message of the thread to it outstanding, is performed at once and its result is pending, in a store of the core and in
DRAM; LDFE and LDFF sleep at the word; a thread that a ferry has brought to the home of a DRAM address performs its load
there. Where a message of the thread is outstanding the chain blocks (spec/09 R274). -/
def Claim.GlobalLoadsAtHome : Prop :=
  ∀ e ∈ globalLoads, ∀ (c : Chain) (s : State) (t : Thread) (g : Word), s.here = some t → executable s t e.1 c = true →
    isQueue c.b = false → Reaches s t e.1 c e.2.1 g →
    ∀ a, a = accessOf e.1 c t e.2.1 e.2.2 → ∀ priv, priv = (s.domEntry s.cur.1 t).priv →
    (AtOwnCore s g → t.atHome = none → ownPending s s.cur.1 t = false → e.2.1 ≠ .ldfe → e.2.1 ≠ .ldff →
      ∀ old u, performHere (issuedFor s t e.1 c) s.cur.1 t.dom priv a g none = .ok (old, u) →
      exec (Instr.ofOp e.1 c) s = .next (loaded s t e.1 c a u old)) ∧
    (∀ xl, t.atHome = none → regionOf (eaOff g) = .dram → eaCube g = s.logical →
      (dramUse s t e.1 c a g).1 = .ok (xl, s.cur.1) → ownPending (dramUse s t e.1 c a g).2 s.cur.1 t = false →
      homeWrite a g (some xl) = none → ∀ old u,
      performHere (dramUse s t e.1 c a g).2 s.cur.1 t.dom priv a g (some xl) = .ok (old, u) →
      exec (Instr.ofOp e.1 c) s = .next (loaded s t e.1 c a u old)) ∧
    (∀ xl, t.atHome = some (g, xl) → regionOf (eaOff g) = .dram → ownPending s s.cur.1 t = false →
      homeWrite a g (some xl) = none → ∀ old u,
      performHere (issuedFor s t e.1 c) s.cur.1 t.dom priv a g (some xl) = .ok (old, u) →
      exec (Instr.ofOp e.1 c) s = .next (loaded s t e.1 c a u old)) ∧
    (AtOwnCore s g → t.atHome = none → ownPending s s.cur.1 t = false → ∀ h off, regionOf (eaOff g) = .lstore h off →
      e.2.1 = .ldfe ∨ e.2.1 = .ldff → feCheck s s.cur.1 t.dom (e.2.1 == .ldfe) off g = none →
      exec (Instr.ofOp e.1 c) s = .next (feThread ((issuedFor s t e.1 c).modHere fun u => { u with pw := t.pw })
        s.cur.1 s.cur.2 (if e.2.1 = .ldfe then 0 else 1) off (resumeOf e.1 c t c.d) 0 g)) ∧
    (AtOwnCore s g → ownPending s s.cur.1 t = true →
      exec (Instr.ofOp e.1 c) s = .next (blockAt s (ctxOf s t e.1 c) .ownMessages))

/-- R189, R192 (spec/07), R105: what a home performs on a word of its local store whose domain, locks and poison admit
it: the old bytes are returned and the new value is stored; a load stores nothing. -/
def Claim.HomeLocalStore : Prop :=
  ∀ (s : State) (dom : Nat) (priv : Bool) (a : Access) (g : Word) (h off : Nat), regionOf (eaOff g) = .lstore h off →
    ownerOk (s.useSpace s.cur.1 dom) s.cur.1 dom = true →
    threadConflict s.hereCore a.op.isWrite ⟨0, off, a.n⟩ = false → s.hereCore.poison.contains (0, off / 8) = false →
    ∃ u, performHere s s.cur.1 dom priv a g none = .ok (s.hereCore.lstore.read off a.n, u) ∧
      (a.op = .ld → u = s.useSpace s.cur.1 dom) ∧
      (a.op ≠ .ld → u = (s.useSpace s.cur.1 dom).withStore (s.hereCore.lstore.write off a.n
        (atomValue a.op a.et a.n (s.hereCore.lstore.read off a.n) a.val.toNat a.cmp.toNat))
        (cleanPoison s.hereCore 0 off a.n).poison)

/-- R192, R193 (spec/07): the values of the atomics on words of 1, 2, 4 or 8 bytes: sums wrap, minima and maxima compare
as signed or natural numbers, SWP takes the operand, CAS takes it where the word equals the comparand. -/
def Claim.AtomicValues : Prop :=
  ∀ (n mem v cmp et : Nat), n = 1 ∨ n = 2 ∨ n = 4 ∨ n = 8 → mem < 2 ^ (8 * n) → v < 2 ^ (8 * n) → cmp < 2 ^ (8 * n) →
    atomValue .aadd et n mem v cmp = (BitVec.ofNat (8 * n) mem + BitVec.ofNat (8 * n) v).toNat ∧
    atomValue .aand et n mem v cmp = mem &&& v ∧ atomValue .aor et n mem v cmp = mem ||| v ∧
    atomValue .axor et n mem v cmp = mem ^^^ v ∧ atomValue .swp et n mem v cmp = v ∧
    atomValue .aminn et n mem v cmp = min mem v ∧ atomValue .amaxn et n mem v cmp = max mem v ∧
    atomValue .amin et n mem v cmp =
      (if (BitVec.ofNat (8 * n) v).slt (BitVec.ofNat (8 * n) mem) then v else mem) ∧
    atomValue .amax et n mem v cmp =
      (if (BitVec.ofNat (8 * n) mem).slt (BitVec.ofNat (8 * n) v) then v else mem) ∧
    atomValue .cas et n mem v cmp = (if mem = cmp then v else mem)

/-- R203, R204, R206 (spec/07): BINIT of 1 to 2^26 participants, and BARR, BDROP and BAW of a thread without an unreleased
arrival, ask the unit of the barrier with the sticky flags and wait for its answer; BINIT of another number is ILLOP, an
arrival beside an unreleased one BOVER with detail 1, BAW beside a lost one BOVER with detail 4. -/
def Claim.BarrierArrivals : Prop :=
  ∀ (c : Chain) (s : State) (t : Thread), s.here = some t →
    (executable s t .binit c = true → isQueue c.a = false → 0 < (t.scalar c.a).toNat → (t.scalar c.a).toNat ≤ 2 ^ 26 →
      exec (.binit c) s = .next (heldIn s t ((issuedFor s t .binit c).send
        (toBarrier s t (namedBarrier s t .binit c) (.barInit (namedBarrier s t .binit c) (t.scalar c.a).toNat)))
        (.awaiting s.nextId { resumeOf .binit c t 10 with fixed := true }))) ∧
    (executable s t .binit c = true → isQueue c.a = false → t.scalar c.a = 0 ∨ 2 ^ 26 < (t.scalar c.a).toNat →
      exec (.binit c) s = .next (takeTrap s s.cur.1 s.cur.2 { cause := cILLOP, xpc := t.pc })) ∧
    (∀ e ∈ arrivals, executable s t e.1 c = true → t.rs = false → noArrival t →
      exec (Instr.ofOp e.1 c) s = .next (heldIn s t (((issuedFor s t e.1 c).send
        (toBarrier s t (namedBarrier s t e.1 c)
          (.barArrive (namedBarrier s t e.1 c) (pwFlags t.pw) e.2.1))).modHere fun u => { u with rs := e.2.2 })
        (.awaiting s.nextId ⟨nextPc e.1 c t, c.marker, c.d, none, true⟩))) ∧
    (∀ e ∈ arrivals, executable s t e.1 c = true → t.rs = false → ∀ a, t.arrival = some a →
      (a.released = false → a.lost = false ∨ e.1 ≠ .baw → exec (Instr.ofOp e.1 c) s = .next (takeTrap s s.cur.1 s.cur.2
        { cause := cBOVER, detail := 1, xaddr := barAddr (namedBarrier s t e.1 c), xpc := t.pc })) ∧
      (e.1 = .baw → a.lost = true → exec (Instr.ofOp e.1 c) s = .next (takeTrap s s.cur.1 s.cur.2
        { cause := cBOVER, detail := 4, xaddr := barAddr (namedBarrier s t e.1 c), xpc := t.pc })))

/-- R204, R205, R253 (spec/07, spec/08): BWAIT, and BAW once it has arrived, returns the phase and the flags of the
released arrival; it waits for one that is not released, asking the unit where its core is outside the barrier's scope;
it is ILLOP without an arrival at the barrier and BOVER for a lost one. -/
def Claim.BarrierWaits : Prop :=
  ∀ o : Op, o = .bwait ∨ o = .baw → ∀ (c : Chain) (s : State) (t : Thread), s.here = some t → executable s t o c = true →
    (o = .baw → t.rs = true) → isQueue c.d = false →
    (∀ a, t.arrival = some a → a.bar = namedBarrier s t o c → a.lost = false → a.released = true →
      exec (Instr.ofOp o c) s = .next (endsIn s t o c (withReg s ((issuedFor s t o c).modHere fun u => { u with rs := false })
        c.d (word (a.phase.toNat * 2 ^ 32 + a.fa.toNat))))) ∧
    (∀ a, t.arrival = some a → a.bar = namedBarrier s t o c → a.lost = false → a.released = false →
      exec (Instr.ofOp o c) s = .next (heldIn s t
        (if inBarScope s s.cur.1 (namedBarrier s t o c) then issuedFor s t o c
         else (issuedFor s t o c).send
          (toBarrier s t (namedBarrier s t o c) (.barQuery (namedBarrier s t o c) a.phase a.short)))
        (.blocked (.barrierRelease ⟨nextPc o c t, c.marker, c.d, none, false⟩) (issueCycle s s.cur.1 t)))) ∧
    ((∀ a, t.arrival = some a → a.bar ≠ namedBarrier s t o c) →
      exec (Instr.ofOp o c) s = .next (takeTrap s s.cur.1 s.cur.2 { cause := cILLOP, xpc := t.pc })) ∧
    (∀ a, t.arrival = some a → a.bar = namedBarrier s t o c → a.lost = true →
      exec (Instr.ofOp o c) s = .next (takeTrap s s.cur.1 s.cur.2
        { cause := cBOVER, detail := 4, xaddr := barAddr (namedBarrier s t o c), xpc := t.pc }))

/-- R27 (spec/01), R122 (spec/05), R144, R145, R150, R151, R154, R176 (spec/06): pushes and pops of the queue ports, the
end of a block and the grant of a lease, as steps of their own. A thread whose block has ended is ready and issues in its
turn; a lease that is granted completes its chain. -/
def Claim.QueueEvents : Prop :=
  ∀ (s : State) (core slot : Nat) (w : Word) (t : Thread), s.thread? core slot = some t →
    (t.isReady = true → t.half = none → exec (.matrixWord0Push core slot w) s =
      .next (s.setThread core slot { t with half := some w })) ∧
    (∀ e ∈ matrixKinds, ∀ w0, t.isReady = true → t.half = some w0 → bits w0 63 60 = e.2 →
      (s.core core).slice.order.length < 16 → t.out0 < 16 → exec (e.1 core slot w) s =
        .next (enterMatrix (s.setThread core slot { t with half := none }) core slot { t with half := none } .words w0 w
          true)) ∧
    (t.isReady = true → (s.core core).copies.length < 32 → t.out1 < 16 →
      ∃ op : CopyOp, op.uid = t.uid ∧ op.slot = slot ∧ op.seq = t.cseq ∧
        exec (.copyDescriptorPush core slot w) s = .next (enterCopy s core slot op)) ∧
    (∀ d, t.isReady = true →
      (∀ v rest, t.q0 = v :: rest → exec (.queuePortPop core slot 12 d) s = .next (addPend
        (s.setThread core slot { t with q0 := rest, out0 := t.out0 - 1 }) core slot (gRes d) (some [.g d.toNat v]))) ∧
      (∀ v rest, t.q1 = v :: rest → exec (.queuePortPop core slot 13 d) s = .next (addPend
        (s.setThread core slot { t with q1 := rest, out1 := t.out1 - 1 }) core slot (gRes d) (some [.g d.toNat v]))) ∧
      (∀ v id rest, t.q3 = (id, some v) :: rest → exec (.queuePortPop core slot 15 d) s = .next (addPend
        (s.setThread core slot { t with q3 := rest }) core slot (gRes d) (some [.g d.toNat v]))) ∧
      (t.q0 = [] → exec (.queuePortPop core slot 12 d) s =
        .next (s.setThread core slot { t with status := .blocked (.pop 0) (s.core core).cyc })) ∧
      (t.q1 = [] → exec (.queuePortPop core slot 13 d) s =
        .next (s.setThread core slot { t with status := .blocked (.pop 1) (s.core core).cyc })) ∧
      (∀ v u, popPort s core slot 2 = some (v, u) → exec (.queuePortPop core slot 14 d) s =
        .next (addPend u core slot (gRes d) (some [.g d.toNat v]))) ∧
      (popPort s core slot 2 = none → exec (.queuePortPop core slot 14 d) s =
        .next (s.setThread core slot { t with status := .blocked (.pop 2) (s.core core).cyc })) ∧
      (t.q3 = [] → exec (.queuePortPop core slot 15 d) s =
        .next (s.setThread core slot { t with status := .blocked (.pop 3) (s.core core).cyc }))) ∧
    (∀ wt since, t.status = .blocked wt since → t.stops = [] → canProceed s core slot t wt = true →
      exec (.blockRelease core slot) s = .next (s.modThread core slot fun u => { u with status := .ready })) ∧
    (∀ n r since rest, t.status = .blocked (.lease n r) since → t.stops = [] → (s.core core).leaseq = slot :: rest →
      leaseRoom (s.core core) n = true → exec (.leaseGrant core) s = .next (completeChain
        ((s.modCore core fun k => { k with leaseq := rest }).modThread core slot (·.leased n)) core slot r none))

/-- R35 (spec/01), R107 (spec/04), R215 (spec/07): a long result lands and its thread, once nothing of it is pending, is
no longer parked; an exiting thread with every result known leaves its slot; a trap that waited is taken once every
result is known; the last beat of a strip hands it over (R170). R178, R205, R208: a wait whose count, message or release
has come completes its chain. R178, R202: a wait in a mailbox or on a word ends in its trap after the limit, and a queued STFE message
is acknowledged as failed. -/
def Claim.WaitEvents : Prop :=
  ∀ (s : State) (core slot : Nat) (t : Thread), s.thread? core slot = some t →
    (t.status ≠ .exiting → ∀ p ws, (t.pend.find? fun q => q.writes.isSome) = some p → p.writes = some ws →
      exec (.resultReturn core slot) s = .next (settle (s.setThread core slot
        { t.writes ws with pend := t.pend.filter fun q => q.id != p.id }) core slot)) ∧
    (t.status = .exiting → t.allKnown = true → exec (.resultReturn core slot) s = .next (endThread s core slot)) ∧
    (∀ q rest, t.status ≠ .exiting → (∀ p ∈ t.pend, p.writes = none) → t.beats = q :: rest →
      exec (.resultReturn core slot) s = .next ((s.setThread core slot { t with beats := rest }).modCore core fun k =>
        { k with sinkq := k.sinkq ++ [q] })) ∧
    (∀ x, t.status = .trapWait x → t.allKnown = true →
      exec (.trapEntry core slot) s = .next (takeTrap s core slot x)) ∧
    (∀ w kind since a d ea, t.status = .sleeping w kind since a d ea → (s.core core).fewlim ≠ 0 →
      since + (s.core core).fewlim.toNat < (s.core core).cyc → exec (.feSleepExpire core slot) s =
        .next (takeTrap ((s.modCore core fun k => leaveFeSlot k slot).modThread core slot fun u =>
          { u with status := .ready }) core slot { cause := cFETIME, remote := true, xaddr := ea, xpc := t.pc })) ∧
    (∀ g mb e r since, t.status = .blocked (.mailbox g mb e r) since → (s.core core).mwlim ≠ 0 →
      since + (s.core core).mwlim.toNat < (s.core core).cyc → mailReached (s.core core) g mb e = false →
      exec (.mwaitTimeout core slot) s =
        .next (takeTrap (s.modThread core slot fun u => { u with status := .ready }) core slot
          { cause := cMWTIME, xaddr := word mb, xpc := t.pc })) ∧
    (∀ g mb e r since, t.status = .blocked (.mailbox g mb e r) since → t.stops = [] →
      mailReached (s.core core) g mb e = true →
      exec (.blockRelease core slot) s = .next (completeChain (takeMail s core g mb e) core slot r none)) ∧
    (∀ o r since hdr u, t.status = .blocked (.recv o r) since → t.stops = [] →
      receiveAt s core t.task o = some (.ok (hdr, u)) →
      exec (.blockRelease core slot) s = .next (completeChain u core slot r (some hdr))) ∧
    (∀ r since a, t.status = .blocked (.barrierRelease r) since → t.stops = [] → t.arrival = some a → a.lost = false →
      a.released = true → exec (.blockRelease core slot) s =
        .next (completeChain (s.setThread core slot { t with rs := false }) core slot r (some (releasedWord a)))) ∧
    (∀ id p, expiredStfe (s.core core) = some id → s.packet? id = some p → exec (.stfeQueueExpire core) s =
      .next (acknowledge ((s.modCore core fun k => leaveFe k (.storeMsg id)).dropPacket id) p (some ⟨cFETIME, 1, p.addr⟩)))

/-- R147, R169, R170, R175, R176, R177, R185 (spec/06), R332, R345 (spec/15): the steps of a copy: its locks are
registered home after home and its chunk begins; a piece is read at its source and lands at its destination, where a
packet with the wrong key is dropped; a faulted copy sends its message, goes on or is abandoned; a copy that is done
posts its entry. A row command writes its row, counts 256 and posts. The strips of streams register home after home and
are then asked for, or sent; a translation that fails stops them. -/
def Claim.CopyEvents : Prop :=
  ∀ (s : State) (core id : Nat),
    (∀ op, s.copyOp? core id = some op → core ≠ slicePort →
      (∀ v ls h k, op.phase = .register → chunkLocks s core id op = (.ok ls, v) → nextHome ls op.homes = some h →
        registerAll (v.core h) ((ls.filter fun l => l.1 == h).map (·.2)) = some k → ∀ o, o = { op with homes := op.homes ++ [h] } →
        (nextHome ls o.homes ≠ none →
          exec (.rangeLockRegister core id) s = .next ((v.setCore h k).setCopyOp core id o)) ∧
        (nextHome ls o.homes = none →
          exec (.rangeLockRegister core id) s = .next (beginChunk (v.setCore h k) core id o))) ∧
      (∀ v ls, op.phase = .register → chunkLocks s core id op = (.ok ls, v) → nextHome ls op.homes = none →
        exec (.rangeLockRegister core id) s = .next (beginChunk v core id op)) ∧
      (∀ v t, op.phase = .register → chunkLocks s core id op = (.error t, v) → exec (.rangeLockRegister core id) s =
        .next (v.setCopyOp core id { op with phase := .faulted t.cause t.detail t.xaddr op.entry false })) ∧
      (∀ code, op.phase = .done code → (∀ p ∈ op.flying, p ∈ op.stuck) → op.kind ≤ 3 ∨ code ≠ 0 → exec (.copyComplete core id) s =
        .next (((releaseEverywhere s (.copy core id)).modCore core fun k => { k with copies := tdel k.copies id }).modThread
          core op.slot fun t => if t.uid == op.uid && !op.detached then { t with q1 := t.q1 ++ [word (op.kind * 2 ^ 60 +
            code * 2 ^ 56 + flagBit op.path 55 + op.tag * 2 ^ 48 + op.words % 2 ^ 32 * 2 ^ 16 + op.seq.toNat)] } else t)) ∧
      (∀ cause detail addr entry, op.phase = .faulted cause detail addr entry false →
        exec (.copyFault core id) s = .next (engineFault (s.setCopyOp core id
          { op with phase := .faulted cause detail addr entry true }) core 1 op.dom op.task ⟨cause, detail, addr⟩
          (resumeAddr s core entry))) ∧
      (∀ cause detail addr entry, op.phase = .faulted cause detail addr entry true →
        (op.flying = [] → exec (.copyResume core id) s = .next (s.setCopyOp core id { op with phase := .register })) ∧
        (op.flying ≠ [] → op.kind ≤ 3 → exec (.copyResume core id) s =
          .next (sendReads (s.setCopyOp core id { op with phase := .moving, stuck := [] }) core id op op.stuck)) ∧
        exec (.copyAbandon core id) s = .next (s.setCopyOp core id { op with phase := .done 1 })) ∧
      (∀ v dst, op.kind = 5 → op.phase = .moving → op.flying = [] →
        rowLines core op.dom op.priv op.dst true (List.range 64) s = (.ok dst, v) →
        ∃ path, exec (.rowCommandPerform core id) s =
          .next ((dst.foldl (fun u y => u.setDramLine (y.1.pa / 32) y.1.key 0 0) (prepareRow v [] dst)).setCopyOp core id
            { op with path := path, words := 256, phase := .done 0 })) ∧
      (∀ v w src dst x y, op.kind = 4 → op.phase = .moving → op.flying = [] →
        rowLines core op.dom op.priv op.src false (List.range 64) s = (.ok src, v) →
        rowLines core op.dom op.priv op.dst true (List.range 64) v = (.ok dst, w) →
        src.head? = some x → dst.head? = some y →
        ∀ inArray, inArray = (sameArray x.1.pa y.1.pa && x.1.elided.isNone && x.1.key == y.1.key) →
        exec (.rowCommandPerform core id) s = .next (((src.zip dst).foldl (fun u z => if inArray then
            cloneLine u (z.1.1.pa / 32) (z.2.1.pa / 32) else bufferLine u z.1.1 z.2.1) (prepareRow w src dst)).setCopyOp
          core id { op with path := !inArray, words := 256, phase := .done 0 })) ∧
      (3 < op.kind → op.phase = .done 0 → mailRoom (s.core core) op.group = true → exec (.rowCommandComplete core id) s =
        .next (postCopy (s.modCore core fun k => addMail k op.group op.tag 256) core id op 0))) ∧
    (∀ pkt p g q, arriving s pkt = some p → epCore p.dst < 1028 → handledAt s (epCore p.dst) p = true →
      (∀ r u, p.body = .engineRead g q → readPiece (s.useSpace (epCore p.dst) p.dom) (epCore p.dst) p g q.len = some (.ok (r, u)) →
        exec (.engineRead pkt) s = .next (engineAnswer (settlePiece ((u.dropPacket pkt).countPacket p (epCore p.dst))
          (epCore p.dst) g false q) p g (.engineData g q r.1 r.2))) ∧
      (∀ t, p.body = .engineRead g q → readPiece (s.useSpace (epCore p.dst) p.dom) (epCore p.dst) p g q.len = some (.error t) →
        exec (.engineRead pkt) s = .next (engineAnswer ((s.dropPacket pkt).countPacket p (epCore p.dst)) p g
          (.engineAck g q 0 1 (some (failureOf { t with xaddr := p.addr }))))) ∧
      (∀ c o data bad, p.body = .landed g q data bad → regionOf (eaOff p.addr) = .lstore c o →
        (p.key ≠ (s.core (epCore p.dst)).owner → exec (.landedPacket pkt) s = .next (engineAnswer (settlePiece
          ((s.dropPacket p.id).countPacket p (epCore p.dst)) (epCore p.dst) g true q) p g (.engineAck g q 0 2 none))) ∧
        (p.key = (s.core (epCore p.dst)).owner → g.count = false →
          engineConflict (s.core (epCore p.dst)) (freeOwner s g) true [⟨0, o, q.len⟩] = false →
          exec (.landedPacket pkt) s = .next (engineAnswer (settlePiece (((s.setCore (epCore p.dst)
              (landStore (s.core (epCore p.dst)) 0 o data bad)).dropPacket p.id).countPacket p (epCore p.dst)) (epCore p.dst)
            g true q) p g (.engineAck g q (q.len / 8) 0 none))))) ∧
    (∀ slot v t l st ps u, s.thread? core slot = some t → t.lease = some l → tget l.streams v = some st →
      nextStrip st = some ps →
      ∀ begun : State → List Nat → Bool → State, begun = (fun e homes asked => modStream e core slot v st.op fun x =>
        { x with coming := ps.map fun p => (p, none), homes := homes, asked := asked }) →
      (∀ x, pieceLocks (.stream st.op) st.dom st.priv core true false ps [] s = (.error x, u) →
        exec (.streamStripFetch core slot v) s =
          .next (stopStrip (begun u st.homes false) core slot v st.op none (failureOf x))) ∧
      (∀ ls, pieceLocks (.stream st.op) st.dom st.priv core true false ps [] s = (.ok ls, u) →
        (nextHome ls st.homes = none → exec (.streamStripFetch core slot v) s =
          .next (askStrip (begun u st.homes true) core slot v t st ps)) ∧
        (∀ h k, nextHome ls st.homes = some h →
          registerAll (u.core h) ((ls.filter fun l => l.1 == h).map (·.2)) = some k →
          (nextHome ls (st.homes ++ [h]) ≠ none → exec (.streamStripFetch core slot v) s =
            .next (begun (u.setCore h k) (st.homes ++ [h]) false)) ∧
          (nextHome ls (st.homes ++ [h]) = none → exec (.streamStripFetch core slot v) s =
            .next (askStrip (begun (u.setCore h k) (st.homes ++ [h]) true) core slot v t st ps))))) ∧
    (∀ q0 q e u, nextSink s core [] (s.core core).sinkq = some q0 → beginSink s core q0 = (q, e) →
      ∀ ps, ps = stripPieces q.addr →
      ∀ sent : State → State, sent = (fun v =>
        sendSink (modSink v core q.id fun x => { x with flying := some ps }) core q q.id ps) →
      (∀ x, pieceLocks (.stream q.id) q.dom q.priv core false true ps [] e = (.error x, u) →
        exec (.streamStripWrite core) s = .next (stopSink u core q.id none (failureOf x))) ∧
      (∀ ls, pieceLocks (.stream q.id) q.dom q.priv core false true ps [] e = (.ok ls, u) →
        (nextHome ls q.homes = none → exec (.streamStripWrite core) s = .next (sent u)) ∧
        (∀ h k v, nextHome ls q.homes = some h →
          registerAll (u.core h) ((ls.filter fun l => l.1 == h).map (·.2)) = some k →
          v = modSink (u.setCore h k) core q.id (fun x => { x with homes := x.homes ++ [h] }) →
          (nextHome ls (q.homes ++ [h]) ≠ none → exec (.streamStripWrite core) s = .next v) ∧
          (nextHome ls (q.homes ++ [h]) = none → exec (.streamStripWrite core) s = .next (sent v)))))

/-- R180, R181, R182 (spec/06): a bank-dot request at its home whose run is in its row and pinned registers a read lock on
the run, is then computed and answered, and releases the lock; a run that is not is answered with code 4, an unpinned one with code 3. The answer of the oldest request of
a q3 queue takes its place there. -/
def Claim.BankDotEvents : Prop :=
  ∀ (s : State) (pkt : Nat) (p : Packet),
    (∀ cfg vec ticket n bad x, arriving s pkt = some p → p.body = .bdot cfg vec ticket n bad → p.xl = some x →
      epCore p.dst < 1028 → ∀ e, e = s.countPacket p (epCore p.dst) →
      (bdBad cfg x.pa = true → exec (.bankDotPerform pkt) s = .next (bdotDone e p (epCore p.dst) ticket (bdFailure 4))) ∧
      (bdBad cfg x.pa = false → x.elided = none → x.pinned = false →
        exec (.bankDotPerform pkt) s = .next (bdotDone e p (epCore p.dst) ticket (bdFailure 3))) ∧
      (bdBad cfg x.pa = false → x.elided = none → x.pinned = true →
        ∀ u, u = ((bdReads cfg x.pa).map fun r => r.1 / 32).foldl (fun v l => cleanLine v (epCore p.dst) l) e →
        ∀ k, registerLock (u.core (epCore p.dst)) ⟨.packet pkt, false, [⟨2, x.pa, bdRun cfg⟩], []⟩ = some k →
          exec (.bankDotPerform pkt) s = .next ((u.setCore (epCore p.dst) k).modPacket pkt fun q => { q with stage := .queued }))) ∧
    (∀ cfg vec ticket n bad x, s.packet? pkt = some p → p.stage = .queued → p.body = .bdot cfg vec ticket n bad →
      p.xl = some x → bad = false → p.bad = [] → failedColumn s x.pa = false →
      (∀ r ∈ bdReads cfg x.pa, bdPoison s x r.1 = false) →
      exec (.bankDotPerform pkt) s = .next (bdotDone (grantColumn s x.pa) p (epCore p.dst) ticket
        (word ((bdDot s cfg x vec).2.toNat * 2 ^ 59 + (bdDot s cfg x vec).1)))) ∧
    (∀ core slot t ticket v, s.thread? core slot = some t → (t.q3.find? fun e => e.2.isNone).map (·.1) = some ticket →
      (s.net.find? fun q => q.uid == t.uid && (match q.body with | .reply r _ _ => r == ticket | _ => false)) = some p →
      arriving s p.id = some p → p.body = .reply ticket v none → p.bad = [] →
      exec (.bdotqResultDeliver core slot) s = .next ((s.dropPacket p.id).setThread core slot
        { t with q3 := t.q3.map fun e => if e.1 == ticket then (e.1, some v) else e }))

/-- R203, R204, R206 (spec/07), R253 (spec/08): a barrier unit counts an arrival and releases its phase with the last; it
takes a new count where nobody has arrived; it answers a query with the release that its history holds, and a core repeats
a query that found no room. An answer of acceptance gives the thread its arrival record; a release marks the records it
reaches and completes the waits that it ends. -/
def Claim.BarrierEvents : Prop :=
  ∀ (s : State) (pkt : Nat) (p : Packet) (b : BarName),
    (atUnit s pkt = some p → ∀ e, e = s.dropPacket pkt →
      (∀ fl drop, p.body = .barArrive b fl drop → (s.bar b).e ≠ 0 →
        ∀ w : Barrier, w = { s.bar b with
          a := (s.bar b).a + 1, fa := (s.bar b).fa ||| fl, d := if drop then (s.bar b).d + 1 else (s.bar b).d } →
        ∀ u, u = e.send (directPacket e (e.ep barrierPort) p.src 2 p.uid p.slot (.barAnswer b pkt (some (s.bar b).phase) none)) →
        (w.a ≠ w.e → exec (.barrierUnitArrival pkt) s = .next (u.setBar b w)) ∧
        (w.a = w.e → exec (.barrierUnitArrival pkt) s = .next (releasePhase u b w))) ∧
      (∀ n, p.body = .barInit b n → (s.bar b).a = 0 → (s.bar b).d = 0 → ∀ u, u = e.setBar b { e := n } →
        exec (.barrierUnitInit pkt) s =
          .next (u.send (directPacket u (u.ep barrierPort) p.src 2 p.uid p.slot (.barAnswer b pkt none none)))) ∧
      (∀ low short ph, p.body = .barQuery b low short → ph = (if short then wholePhase (s.bar b).phase low else low) →
        (∀ h, ((s.bar b).history.find? fun h => h.1 == ph) = some h → exec (.barrierQuery pkt) s =
          .next (e.send (directPacket e (e.ep barrierPort) p.src 2 p.uid p.slot (.barRelease b ph h.2)))) ∧
        (((s.bar b).history.find? fun h => h.1 == ph) = none →
          (0 ≤ (ph - (s.bar b).phase).toInt → (s.bar b).waiters.length < 64 → exec (.barrierQuery pkt) s =
            .next (e.setBar b { s.bar b with waiters := (s.bar b).waiters ++ [(p.src, p.uid, ph)] })) ∧
          (0 ≤ (ph - (s.bar b).phase).toInt → 64 ≤ (s.bar b).waiters.length → exec (.barrierQuery pkt) s =
            .next (e.send (directPacket e (e.ep barrierPort) p.src 2 p.uid p.slot (.barReply b low true)))) ∧
          ((ph - (s.bar b).phase).toInt < 0 → exec (.barrierQuery pkt) s =
            .next (e.send (directPacket e (e.ep barrierPort) p.src 2 p.uid p.slot (.barReply b low false))))))) ∧
    (arriving s pkt = some p →
      (∀ ref n core slot t r, p.body = .barAnswer b ref (some n) none →
        awaiter (s.dropPacket pkt) p.uid ref = some (core, slot, t, r) → t.rs = false → exec (.barrierAnswer pkt) s =
          .next (completeChain ((s.dropPacket pkt).setThread core slot
            { t with arrival := some { bar := b, phase := n, released := false, fa := 0 } }) core slot r none)) ∧
      (∀ ref core slot t r, p.body = .barAnswer b ref none none →
        awaiter (s.dropPacket pkt) p.uid ref = some (core, slot, t, r) →
        exec (.barrierAnswer pkt) s = .next (completeChain (s.dropPacket pkt) core slot r none)) ∧
      (∀ n fa u, p.body = .barRelease b n fa → epCore p.dst < 1028 → u = ((s.dropPacket pkt).modCore (epCore p.dst) fun k =>
          { k with
            threads := (k.threads.map fun t => (t.1, releaseRecord b n fa t.2)),
            rel := (if inBarScope s (epCore p.dst) b && p.uid == 0 then k.rel.filter (fun x => x.bar != b) ++ [⟨b, n, fa⟩]
              else k.rel) }) → exec (.barrierReleaseDeliver pkt) s = .next ((u.core (epCore p.dst)).threads.foldl (fun e t =>
          match t.2.status with | .blocked (.barrierRelease _) _ => tryFinish e (epCore p.dst) t.1 | _ => e) u))) ∧
    (∀ core slot t a n, s.thread? core slot = some t → t.arrival = some a → a.retry = some n → a.released = false →
      n + 1024 ≤ (s.core core).cyc → ∀ u, u = s.setThread core slot { t with arrival := some { a with retry := none } } →
      exec (.barrierQueryRetry core slot) s =
        .next (u.send (toUnit u core slot t.uid a.bar (.barQuery a.bar a.phase a.short))))

/-- R238, R239, R243, R245 (spec/08): a thread whose waits are over leaves its core as a ferry, or takes the trap of its
fault record; a ferry that arrives enters the inbox, or the spill ring where the inbox is full; the oldest is seated in
the lowest free slot, from the words of its ring slot where it was spilled, and a bounced one takes its trap there. -/
def Claim.FerryEvents : Prop :=
  ∀ (s : State) (core : Nat),
    (∀ slot t kind addr urg write, s.thread? core slot = some t → t.status = .departing kind addr urg write →
      t.stops = [] → t.pend = [] → t.out0 = t.q0.length → t.out1 = t.q1.length → (∀ e ∈ t.q3, e.2.isSome = true) →
      t.sends = [] → t.beats = [] →
      (bit t.frec 63 = true → exec (.ferryDepart core slot) s =
        .next (takeTrap (s.setThread core slot { t with status := .ready }) core slot (recordTrap t t.pc))) ∧
      (bit t.frec 63 = false → exec (.ferryDepart core slot) s = .next ((s.delThread core slot).post
        { addressed s core slot t.uid urg true addr t.dom (s.domEntry core t).priv (.ferry (ferryOf t kind addr write)) with
          bad := t.parity.filterMap carriedBy }))) ∧
    (∀ pkt p f, arriving s pkt = some p → p.body = .ferry f → epCore p.dst < 1028 →
      (s.core (epCore p.dst)).sealed = true ∨ claimedBy s (epCore p.dst) p = none →
      ∀ e, e = s.modPacket pkt (fun q => { q with stage := .queued }) →
      ((s.core (epCore p.dst)).inbox.length < 8 → (s.core (epCore p.dst)).spill = [] → exec (.ferryArrive pkt) s =
        .next (e.modCore (epCore p.dst) fun k => { k with inbox := k.inbox ++ [pkt] })) ∧
      (8 ≤ (s.core (epCore p.dst)).inbox.length → ∀ base slots i, spillRing s (epCore p.dst) = (base, slots) →
        (s.core (epCore p.dst)).spill.length < slots → i = (s.core (epCore p.dst)).spillAt % slots →
        exec (.ferryArrive pkt) s =
          .next ((writeSpill e (base + 128 * i) (ferryWords p.dst f) p.bad).modCore (epCore p.dst) fun k =>
            { k with spill := k.spill ++ [(pkt, i)], spillAt := i + 1 }))) ∧
    (∀ pkt p f slot, nextFerry (s.core core) = some pkt → freeSlot (s.core core) = some slot →
      s.packet? pkt = some p → p.body = .ferry f → (s.core core).sealed = false → claimedBy s core p = none →
      mayAdmit s core = true → ∀ y t, y = spilledFerry s core p f → t = ferryThread s core { p with bad := y.2 } y.1 →
      ∀ e, e = ((leaveInbox s core pkt).dropPacket pkt).tick →
      (f.kind ≠ 2 → exec (.ferryAdmit core) s = .next (seat (e.countPacket p core) core slot t)) ∧
      (f.kind = 2 → ∀ r, (seat e core slot t).thread? core slot = some r → r.status ≠ .stopped →
        exec (.ferryAdmit core) s = .next (takeTrap (seat e core slot t) core slot
          { cause := f.bcause, detail := f.bdetail, remote := true, xaddr := f.addr, xpc := f.pc })))

/-- R321, R322, R323 (spec/14): a datum posted to a bound trigger entry is fired, and held where the entry is free; a
binding installs its packet, at once or after the state of a rebinding, or frees the entry, and is refused to another
domain; the overflow flag is cleared. R225 (spec/07), R278 (spec/09): ISTW keeps a word for its core; START makes the
words that its own source has written visible to fetches. -/
def Claim.TriggerEvents : Prop :=
  ∀ (s : State) (pkt : Nat) (p : Packet),
    (∀ n, n < 256 → exec (.triggerOvfClear n) s = .next (s.setTrigger n { s.trigger n with ovf := false })) ∧
    (arriving s pkt = some p → epCore p.dst < 1028 → ∀ e, e = (s.dropPacket pkt).countPacket p (epCore p.dst) →
      (∀ n d, p.body = .tpost n d → handledAt s (epCore p.dst) p = true → (e.trigger n).state = 1 →
        exec (.triggerPost pkt) s = .next (fire e n (e.trigger n) d)) ∧
      (∀ n d, p.body = .tpost n d → handledAt s (epCore p.dst) p = true → (e.trigger n).state ≠ 1 →
        (e.trigger n).held.length < 64 → exec (.triggerPost pkt) s =
          .next (e.setTrigger n { e.trigger n with held := (e.trigger n).held ++ [d] })) ∧
      (∀ off x, p.body = .istw off x → exec (.istwPerform pkt) s = .next (acknowledge (e.modCore (epCore p.dst) fun k =>
        { k with istNew := k.istNew.filter (fun w => !(w.1 == p.src && w.2.1 == off / 8)) ++ [(p.src, off / 8, x)] }) p
          none)) ∧
      (∀ u mine, mine = (fun w : Nat × Nat × Word => w.1 == p.src) →
        u = acknowledge (e.modCore (epCore p.dst) fun k => { k with
          istore := (k.istNew.filter mine).foldl (fun m w => m.write (8 * w.2.1) 8 w.2.2.toNat) k.istore,
          istNew := k.istNew.filter fun w => w.1 != p.src,
          poison := k.poison.filter fun w => !(w.1 == 2 && (k.istNew.filter mine).any fun x => x.2.1 == w.2) }) p none →
        (p.body = .start none → exec (.startPerform pkt) s = .next u) ∧
        (∀ ws, p.body = .start (some ws) → exec (.startPerform pkt) s = .next (u.send { directPacket u p.src
          (frontEp u.logical (56 + clusterOf (epCore p.dst % 1024) % 8)) p.urg p.uid p.slot
            (.spawn ws 0 (some (epCore p.dst))) with dom := p.dom, priv := p.priv, key := p.key })))) ∧
    (s.packet? pkt = some p → p.stage ≠ .queued → arriving s pkt = some p →
      ∀ n ws, p.body = .tbind n ws → ∀ e, e = s.countPacket p (epCore p.dst) →
      ((s.trigger n).state ≠ 0 → (s.trigger n).owner ≠ p.dom → exec (.triggerBind pkt) s =
        .next (acknowledge (s.dropPacket pkt) p (some ⟨cPERM, 4, p.addr⟩))) ∧
      ((s.trigger n).state = 0 → ∀ w, ws = some w → exec (.triggerBind pkt) s = .next (installTrigger e n p.dom w p)) ∧
      ((s.trigger n).state = 1 → (s.trigger n).owner = p.dom →
        (∀ w, ws = some w → exec (.triggerBind pkt) s = .next ((e.setTrigger n { s.trigger n with state := 2 }).modPacket pkt
          fun q => { q with stage := .queued })) ∧
        (ws = none → exec (.triggerBind pkt) s = .next (acknowledge ((e.dropPacket pkt).setTrigger n
          { s.trigger n with state := 0, owner := 0, packet := [] }) p none)))) ∧
    (s.packet? pkt = some p → p.stage = .queued → ∀ n ws, p.body = .tbind n (some ws) →
      exec (.triggerBind pkt) s = .next (installTrigger s n p.dom ws p))

/-- R349, R350, R353, R354, R365, R366, R367 (spec/16): a stop word stops or releases a thread, a group, a quire or a core;
a request of the halt tree does so to every core of its partition; a buoy forwards a claimed packet; a source enters the
redirect it is told of and sends its fences, which are acknowledged, and then sends what waited for them; an idle buoy is
cleared. -/
def Claim.StopEvents : Prop :=
  ∀ (s : State) (core slot : Nat) (g : BitVec 30), core < 1024 →
    (slot < 64 → exec (.threadStop core slot) s = .next (stopSlot 0 s core slot) ∧
      exec (.threadRelease core slot) s = .next (freeSlotStop 0 s core slot)) ∧
    exec (.quireStop core) s = .next ((rowOf core).foldl (stopCore 2) s) ∧
    exec (.quireRelease core) s = .next ((rowOf core).foldl (releaseCore 2) s) ∧
    exec (.coreStop core) s = .next (stopCore 3 s core) ∧
    exec (.coreRelease core) s = .next (releaseCore 3 s core) ∧
    (∀ u, stopGroup s (groupOf30 g.toNat) = some u → exec (.groupStop g) s = .next u) ∧
    exec (.groupRelease g) s = .next (releaseGroup s (groupOf30 g.toNat)) ∧
    (∀ part stop p, (s.net.find? fun p => epCore p.dst == barrierPort && (match p.body with
        | .haltReq q t => q == part && t == stop | _ => false) && (arriving s p.id).isSome) = some p →
      exec (.haltTreeDeliver part stop) s = .next ((partition (s.dropPacket p.id) part).foldl
        (if stop then haltCore else releaseCore 4) (s.dropPacket p.id))) ∧
    (∀ pkt p a n b, s.packet? pkt = some p → p.body = .access a → standsAt s p = true →
      (s.core (epCore p.dst)).sealed = false → firstClaimed s (epCore p.dst) p = true →
      claimedBy s (epCore p.dst) p = some (n, b) → exec (.buoyForward pkt) s =
        .next (tellSource (passOn s p (epCore p.dst) b.target) (epCore p.dst) n b p)) ∧
    (∀ pkt p v t key, arriving s pkt = some p → p.body = .relocNotice v t key → epCore p.dst < 1028 →
      ∀ others, others = (s.core (epCore p.dst)).redirects.filter (fun r => !(r.v == v && r.key == key)) →
      others.length < 16 → exec (.relocationNotice pkt) s = .next ([0, 1, 2].foldl (fun u cls =>
          u.send (directPacket u (u.ep (epCore p.dst)) v cls 0 0 (.relocFence v cls key)))
        ((s.dropPacket pkt).modCore (epCore p.dst) fun k => { k with redirects := others ++ [⟨v, t, key, [0, 1, 2]⟩] }))) ∧
    (∀ pkt p v cls key, arriving s pkt = some p → p.body = .relocFence v cls key → p.dst ≠ v → ∀ e, e = s.dropPacket pkt →
      exec (.relocationFenceAck pkt) s = .next (e.send (directPacket e p.dst p.src 2 0 0 (.relocAck v cls key)))) ∧
    (∀ pkt p v cls key r, arriving s pkt = some p → p.body = .relocAck v cls key →
      ((s.core (epCore p.dst)).redirects.find? fun r => r.v == v && r.key == key) = some r →
      exec (.relocationFenceAck pkt) s = .next (releaseWaiting ((s.dropPacket pkt).modCore (epCore p.dst) fun k =>
          { k with redirects := k.redirects.map fun r => if r.v == v && r.key == key then
            { r with fences := r.fences.filter (· != cls) } else r })
        (epCore p.dst) v key (some cls) r.t)) ∧
    (∀ b, tget (s.core core).buoys slot = some b → bit s.splitc 3 = true → b.last + 16777216 ≤ (s.core core).cyc →
      exec (.buoyRetire core slot) s = .next (s.modCore core fun k => { k with buoys := tdel k.buoys slot }))

end Sys2Proof

open Sys2Proof Sys2Proof.Machine

/-! ### Scalar instructions -/

/-- The scalar integer instructions (spec/04 R93, R95): two operands and one. -/
def Obligations.IntegerArithmetic : Prop :=
  Claim.AluTwoResult ∧ Claim.AluOneResult

/-- R94 (spec/04): DIV and REM divide x by y as signed, DIVN and REMN as natural numbers; where they execute, the result
is pending for d, whatever the divisor, and no flag is set. The quotient is truncated toward zero, the remainder is
x − quotient × y, and division by zero and the one signed overflow give what the table of R94 says. -/
def Obligations.LongDivision : Prop :=
  (∀ e ∈ aluLong, ∀ (c : Chain) (s : State) (t : Thread), s.here = some t → executable s t e.1 c = true →
    portless c = true → isQueue c.d = false →
    ∃ u τ, exec (Instr.ofOp e.1 c) s = .next u ∧ u.here = some τ ∧
      LongResult e.1 c s u t τ (gRes c.d) [.g c.d.toNat (e.2 (operandX c t) (operandY e.1 c t)), .flags 0]) ∧
  (∀ x y : Word, y ≠ 0 → ¬(x = 0x8000000000000000 ∧ y = 0xFFFFFFFFFFFFFFFF) →
    (divS x y).toInt = x.toInt.tdiv y.toInt ∧ (remS x y).toInt = x.toInt - (divS x y).toInt * y.toInt ∧
    (divN x y).toNat = x.toNat / y.toNat ∧ (remN x y).toNat = x.toNat - x.toNat / y.toNat * y.toNat) ∧
  (∀ x : Word, divS x 0 = 0xFFFFFFFFFFFFFFFF ∧ remS x 0 = x ∧ divN x 0 = 0xFFFFFFFFFFFFFFFF ∧ remN x 0 = x) ∧
  (divS 0x8000000000000000 0xFFFFFFFFFFFFFFFF = 0x8000000000000000 ∧ remS 0x8000000000000000 0xFFFFFFFFFFFFFFFF = 0 ∧
    divN 0x8000000000000000 0xFFFFFFFFFFFFFFFF = 0 ∧ remN 0x8000000000000000 0xFFFFFFFFFFFFFFFF = 0x8000000000000000) ∧
  (divS 7 2 = 3 ∧ remS 7 2 = 1 ∧ divN 7 2 = 3 ∧ remN 7 2 = 1) ∧
  (divS (-7) 2 = -3 ∧ remS (-7) 2 = -1 ∧ divN (-7) 2 = 0x7FFFFFFFFFFFFFFC ∧ remN (-7) 2 = 1) ∧
  (divS 7 (-2) = -3 ∧ remS 7 (-2) = 1 ∧ divN 7 (-2) = 0 ∧ remN 7 (-2) = 7)

/-- Compares and predicate operations (spec/04 R97, R98). -/
def Obligations.ComparesAndPredicates : Prop :=
  Claim.CompareResult ∧ Claim.PredicateOperations

/-- Moves, immediate forms, the cycle counter and writes of the predicate word (spec/04 R96, R99, R100, R109, R115,
R117). How many cycles an issue takes beyond the least is free (log 5). -/
def Obligations.MovesAndPredicateWord : Prop :=
  Claim.MoveResult ∧ Claim.CycleCounterRead ∧ Claim.PredicateWordWrites

/-- NOP, branches, calls and returns (spec/04 R101, R102, R106). -/
def Obligations.Branches : Prop :=
  Claim.RelativeBranches ∧ Claim.RegisterBranches

/-! ### Scalar floating point -/

/-- Floating-point arithmetic (spec/04 R110, R111): short and long results. -/
def Obligations.FloatArithmetic : Prop :=
  Claim.FloatTwoResult ∧ Claim.FloatMultiplyAdd ∧ Claim.FloatLongResult

/-- R110, R113, R114 (spec/04): FABS, FNEG, FCLASS, FCVT, FTOI, FTON and FRND write what `fpOne` gives of a; ITOF and NTOF
write the integer a in ef. -/
def Obligations.FloatOneResult : Prop :=
  ∀ (c : Chain) (s : State) (t : Thread), s.here = some t → isQueue c.a = false → isQueue c.d = false →
    (∀ e ∈ fpOne, executable s t e.1 c = true → fselFmtOk (fmtA t.pw e.2.2.1 (e.2.1 (etCode e.1 c))) = true →
      ∃ u τ, exec (Instr.ofOp e.1 c) s = .next u ∧ u.here = some τ ∧
        ShortResult e.1 c s u t τ
          (e.2.2.2 (fctlOf t.pw) (etCode e.1 c) (fmtA t.pw e.2.2.1 (e.2.1 (etCode e.1 c)))
            (lowBits (fmtA t.pw e.2.2.1 (e.2.1 (etCode e.1 c))) (t.scalar c.a))).1
          (e.2.2.2 (fctlOf t.pw) (etCode e.1 c) (fmtA t.pw e.2.2.1 (e.2.1 (etCode e.1 c)))
            (lowBits (fmtA t.pw e.2.2.1 (e.2.1 (etCode e.1 c))) (t.scalar c.a))).2) ∧
    (∀ e ∈ [(Op.itof, 3), (Op.ntof, 7)], executable s t e.1 c = true →
      ∃ u τ, exec (Instr.ofOp e.1 c) s = .next u ∧ u.here = some τ ∧
        ShortResult e.1 c s u t τ
          (fpWritten e.1 c t (fromInt (intOf e.2 (t.scalar c.a).toNat) 0 false, 0)).1
          (fpWritten e.1 c t (fromInt (intOf e.2 (t.scalar c.a).toNat) 0 false, 0)).2)

/-- Float compares (spec/04 R112) and the source formats that FSEL may not name (spec/03 R81). -/
def Obligations.FloatCompares : Prop :=
  Claim.FloatCompareResult ∧ Claim.FormatRefused

/-! ### Vector instructions -/

/-- The integer vector instructions under mask control (spec/05 R126, R129, R135). -/
def Obligations.VectorInteger : Prop :=
  Claim.VectorIntegerTwo ∧ Claim.VectorIntegerOne

/-- Moves between elements and the mask operations (spec/05 R132, R135). -/
def Obligations.VectorMovesAndMasks : Prop :=
  Claim.VectorMoves ∧ Claim.MaskOperations

/-- Compares into masks (spec/05 R131). -/
def Obligations.VectorCompares : Prop :=
  Claim.VectorIntegerCompare ∧ Claim.VectorFloatCompare

/-- Reductions (spec/05 R133, R134). -/
def Obligations.VectorReductions : Prop :=
  Claim.VectorIntegerReduction ∧ Claim.VectorFloatReduction

/-- The floating-point vector instructions (spec/05 R127, R130, R139). -/
def Obligations.VectorFloat : Prop :=
  Claim.VectorFloatTwo ∧ Claim.VectorFloatOne ∧ Claim.VectorFloatFused

/-- R141, R142 (spec/05): MXQ and TSQ make the block of the 32 FP32 elements of a pending, MXDQ and TSDQ the 32 FP32
elements of a block. -/
def Obligations.BlockQuantisation : Prop :=
  ∀ (c : Chain) (s : State) (t : Thread), s.here = some t →
    (executable s t .mxq c = true → streamless .mxq c t = true → fmtA t.pw true 1 = 1 →
      ∃ u τ, exec (.mxq c) s = .next u ∧ u.here = some τ ∧
        LongResult .mxq c s u t τ [.v c.vd, .flags] (blockWrites c (fmtOf (etCode .mxq c)).width
          (mxScale (blockElements c t) (fmtOf (etCode .mxq c)).emax) (blockElements c t)
          ((blockElements c t).map (mxElem (fctlOf t.pw) (fmtOf (etCode .mxq c))
            (mxScale (blockElements c t) (fmtOf (etCode .mxq c)).emax))))) ∧
    (executable s t .tsq c = true → streamless .tsq c t = true →
      ∃ u τ, exec (.tsq c) s = .next u ∧ u.here = some τ ∧
        LongResult .tsq c s u t τ [.v c.vd, .flags] (blockWrites c 8 (mxScale (blockElements c t) 0) (blockElements c t)
          ((blockElements c t).map (ts8Elem (mxScale (blockElements c t) 0))))) ∧
    (executable s t .mxdq c = true → streamless .mxdq c t = true →
      ∃ u τ v, exec (.mxdq c) s = .next u ∧ u.here = some τ ∧
        LongResult .mxdq c s u t τ [.v c.vd, .flags] [.v c.vd v, .flags (readBackFlags c t fun i =>
          fread (fctlOf t.pw) (fmtOf (etCode .mxdq c)) (lane (fmtOf (etCode .mxdq c)).width (vecReg t c.va) i))] ∧
        ∀ i, i < 32 → lane 32 v.toNat i = (readBack c t (fread (fctlOf t.pw) (fmtOf (etCode .mxdq c))
          (lane (fmtOf (etCode .mxdq c)).width (vecReg t c.va) i))).1 % 2 ^ 32) ∧
    (executable s t .tsdq c = true → streamless .tsdq c t = true →
      ∃ u τ v, exec (.tsdq c) s = .next u ∧ u.here = some τ ∧
        LongResult .tsdq c s u t τ [.v c.vd, .flags] [.v c.vd v, .flags (readBackFlags c t fun i =>
          fromInt (ts8Units (lane 8 (vecReg t c.va) i)) (-6) false)] ∧
        ∀ i, i < 32 → lane 32 v.toNat i =
          (readBack c t (fromInt (ts8Units (lane 8 (vecReg t c.va) i)) (-6) false)).1 % 2 ^ 32)

/-- R122, R123 (spec/05): VLEASE of a thread without a lease is granted where the windows are free and no earlier
request waits, and waits otherwise; a thread that holds a lease takes ILLOP; VFREE gives the lease up and ends its streams. A lease of a
callee whose caller holds none is the model's reading of R212 (log 27). -/
def Obligations.VectorLease : Prop :=
  ∀ (c : Chain) (s : State) (t : Thread), s.here = some t →
    (executable s t .vlease c = true → t.lease = none →
      leaseRoom ((issuedFor s t .vlease c).core s.cur.1) (immInt .vlease c).toNat = true → s.hereCore.leaseq = [] →
      ∃ u τ, exec (.vlease c) s = .next u ∧ u.here = some τ ∧
        LeaseResult .vlease c s u t τ (some ⟨(immInt .vlease c).toNat, [], [], []⟩)) ∧
    (executable s t .vlease c = true → t.lease = none →
      leaseRoom ((issuedFor s t .vlease c).core s.cur.1) (immInt .vlease c).toNat = false ∨ s.hereCore.leaseq ≠ [] →
      exec (.vlease c) s = .next (blockAt s (ctxOf s t .vlease c)
        (.lease (immInt .vlease c).toNat ⟨nextPc .vlease c t, c.marker, 10, none, false⟩))) ∧
    (executable s t .vlease c = true → t.lease ≠ none →
      exec (.vlease c) s = .next (takeTrap s s.cur.1 s.cur.2 { cause := cILLOP, xpc := t.pc })) ∧
    (executable s t .vfree c = true →
      exec (.vfree c) s = .next (endsIn s t .vfree c ((endStreams (issuedFor s t .vfree c) t.lease).modThread s.cur.1 s.cur.2
        fun u => { u with lease := none, parity := u.parity.filter scalarRes }))) ∧
    (executable s t .vfree c = true → (∀ l, t.lease = some l → l.streams = []) →
      ∃ u τ, exec (.vfree c) s = .next u ∧ u.here = some τ ∧ LeaseResult .vfree c s u t τ none)

/-! ### The local window -/

/-- Loads of the local window (spec/04 R104, spec/05 R136, R137). -/
def Obligations.WindowLoads : Prop :=
  Claim.WindowLoads ∧ Claim.WindowGathers

/-- Stores of the local window (spec/04 R104, spec/05 R136, R137). -/
def Obligations.WindowStores : Prop :=
  Claim.WindowStores ∧ Claim.WindowScatters

/-- R104 (spec/04): an access to the local window takes LGUARD where its address is outside the window, else ALIGN where
it is misaligned, else LGUARD where the domain's range does not hold it, else RLOCK where a range lock forbids it; xaddr
is the address and nothing is written. -/
def Obligations.WindowTraps : Prop :=
  ∀ e ∈ windowOps, ∀ (c : Chain) (s : State) (t : Thread) (ea : Word) (n : Nat), s.here = some t →
    executable s t e.1 c = true → portless c = true → isQueue c.d = false → streamless e.1 c t = true →
    ea = addressOf e.1 c t → n = e.2.1 (etCode e.1 c) →
    ((isWindow ea = false ∨
        (ea.toNat % 2 ^ 52 % e.2.2.1 (etCode e.1 c) = 0 ∧ (s.domEntry s.cur.1 t).guard (ea.toNat % 2 ^ 52) n = false)) →
      exec (Instr.ofOp e.1 c) s = .next (takeTrap s s.cur.1 s.cur.2 { cause := cLGUARD, xaddr := ea, xpc := t.pc })) ∧
    (isWindow ea = true → ea.toNat % 2 ^ 52 % e.2.2.1 (etCode e.1 c) ≠ 0 →
      exec (Instr.ofOp e.1 c) s = .next (takeTrap s s.cur.1 s.cur.2 { cause := cALIGN, xaddr := ea, xpc := t.pc })) ∧
    (isWindow ea = true → ea.toNat % 2 ^ 52 % e.2.2.1 (etCode e.1 c) = 0 →
      (s.domEntry s.cur.1 t).guard (ea.toNat % 2 ^ 52) n = true →
      threadConflict s.hereCore e.2.2.2 ⟨0, ea.toNat % 2 ^ 52, n⟩ = true →
      exec (Instr.ofOp e.1 c) s = .next (takeTrap s s.cur.1 s.cur.2 { cause := cRLOCK, xaddr := ea, xpc := t.pc }))

/-! ### The issue of a chain, traps and threads -/

/-- R33, R34, R38 (spec/01): the issue of a chain clears PP and FSEL and notes the cycle, and changes nothing else; a
chain that is completed changes of its thread the pc, and with the switch marker its status. How many cycles an issue
takes beyond the least is free (log 5). -/
def Obligations.IssueAndEnd : Prop :=
  ∀ (o : Op) (c : Chain) (s : State) (t : Thread), s.here = some t →
    Framed s (issuedFor s t o c) ∧ (issuedFor s t o c).here = some (issuedThread s t) ∧
    ∀ (e : State) (t' : Thread) (pc : Nat), e.cur = s.cur → e.here = some t' → t'.status = .ready →
      ∃ τ, (goesTo s t o c e pc).here = some τ ∧ Framed e (goesTo s t o c e pc) ∧ Kept t' τ ∧
        GoesOn c τ pc t'.pend t'.span ∧ τ.pw = t'.pw ∧ KeptG t' τ []

/-- R27, R30, R36, R38 (spec/01), R60 (spec/02), R217 (spec/07), R411 (spec/20): what stands before the execution of a
chain, in its order: ILLOP or PRIV, HAZARD, a guard that does not hold, a queue port that blocks; a broken source raises
POISON where the execution finds no trap that comes before it. -/
def Obligations.ChecksBeforeExecution : Prop :=
  ∀ (o : Op) (c : Chain) (s : State) (t : Thread), s.here = some t → t.isReady = true →
    (chainErr o c ≠ none →
      exec (Instr.ofOp o c) s = .next (takeTrap s s.cur.1 s.cur.2 { cause := cILLOP, xpc := t.pc })) ∧
    (chainErr o c = none → ∀ cause, threadErr s s.cur.1 t o c = some cause →
      exec (Instr.ofOp o c) s = .next (takeTrap s s.cur.1 s.cur.2 { cause := cause, xpc := t.pc })) ∧
    (chainErr o c = none → threadErr s s.cur.1 t o c = none →
      (hazard t.span o c = true →
        exec (Instr.ofOp o c) s = .next (takeTrap s s.cur.1 s.cur.2 { cause := cHAZARD, xpc := t.pc })) ∧
      (hazard t.span o c = false → guardParity t c = true → exec (Instr.ofOp o c) s =
        .next (takeTrap s s.cur.1 s.cur.2 { cause := cPOISON, detail := 1, xpc := t.pc })) ∧
      (hazard t.span o c = false → guardParity t c = false → guardHolds t.pw o c = false →
        exec (Instr.ofOp o c) s = .next (endsIn s t o c (issuedFor s t o c))) ∧
      (hazard t.span o c = false → guardParity t c = false → guardHolds t.pw o c = true →
        (∀ w, portWait s s.cur.1 s.cur.2 o c = some w →
          exec (Instr.ofOp o c) s = .next (blockAt s (ctxOf s t o c) w)) ∧
        (portWait s s.cur.1 s.cur.2 o c = none → parityErr t o c = true → ∃ x,
          exec (Instr.ofOp o c) s = .next (takeTrap s s.cur.1 s.cur.2 x) ∧
          (x = { cause := cPOISON, detail := 1, xpc := t.pc } ∨ x.cause < cPOISON)) ∧
        (portWait s s.cur.1 s.cur.2 o c = none → parityErr t o c = false → queuePoison s s.cur.1 t o c = true → ∃ x,
          exec (Instr.ofOp o c) s = .next (takeTrap s s.cur.1 s.cur.2 x) ∧
          (x = { cause := cPOISON, xpc := t.pc } ∨ x.cause < cPOISON))))

/-- R215, R216, R218 (spec/07), R330 (spec/15): a trap of a thread outside a handler whose domain is valid waits until
every pending result is known; then the results are written and the handler is entered. A trap in a handler, and of a
thread whose domain is invalid, stops the thread. -/
def Obligations.TrapEntry : Prop :=
  ∀ (s : State) (t : Thread) (x : TrapRec), s.here = some t →
    (t.inHandler = false → (s.domEntry s.cur.1 t).ok = true → t.allKnown = true →
      ∃ τ, takeTrap s s.cur.1 s.cur.2 x = s.modHere (fun _ => τ) ∧
        τ.xpc = word (x.xpc % 2 ^ 18 / 2 * 2) ∧ τ.xpw = t.flush.pw ∧ τ.xaddr = x.xaddr ∧ τ.pw = clearPP t.flush.pw ∧
        τ.xcause = word (x.cause + x.detail * 2 ^ 16 + (if x.remote then 2 ^ 15 else 0) + (if x.more then 2 ^ 14 else 0)) ∧
        τ.pc = (s.domEntry s.cur.1 t).hpc ∧ τ.inHandler = true ∧ τ.entryDepth = t.gates.length ∧ τ.status = .ready ∧
        τ.span = [] ∧ τ.pend = [] ∧ KeptG t.flush τ [] ∧ τ.lease = t.flush.lease ∧ τ.gates = t.gates ∧ τ.dom = t.dom) ∧
    (t.inHandler = false → (s.domEntry s.cur.1 t).ok = true → t.allKnown = false →
      takeTrap s s.cur.1 s.cur.2 x = s.modHere fun u => { u with status := .trapWait x }) ∧
    (t.inHandler = true → takeTrap s s.cur.1 s.cur.2 x =
      { s.modHere fun u => { u with status := .stopped } with
        dfault := s.dfault ++ [⟨stewardOf s.cur.1, s.ep s.cur.1, s.cur.2, t.pc, x.cause, x.detail⟩] }) ∧
    (t.inHandler = false → (s.domEntry s.cur.1 t).ok = false → takeTrap s s.cur.1 s.cur.2 x =
      { s.modHere fun u => { u with status := .stopped } with
        dfault := s.dfault ++ [⟨stewardOf s.cur.1, s.ep s.cur.1, s.cur.2, t.pc, cPERM, 5⟩] })

/-- R219 (spec/07), R35 (spec/01): TRAP takes TRAP with imm16 in its detail and the next chain in xpc; TRET goes to xpc
with the predicate word of xpw, parked by the switch marker while results are pending; outside a handler, or above its entry depth, it is ILLOP, and with a bad xpw BADRET. -/
def Obligations.TrapAndReturn : Prop :=
  ∀ (c : Chain) (s : State) (t : Thread), s.here = some t →
    (executable s t .trap c = true → exec (.trap c) s = .next (takeTrap s s.cur.1 s.cur.2
      { cause := cTRAP, detail := (immInt .trap c).toNat, xpc := nextPc .trap c t })) ∧
    (executable s t .tret c = true → t.inHandler = true → t.gates.length ≤ t.entryDepth → pwReserved t.xpw = false →
      fselOk (pwFsel t.xpw) = true → ∀ e : Status → State, (∀ st, e st = (issuedFor s t .tret c).modHere fun u =>
        { u with pw := t.xpw ||| 1, pc := bits t.xpc 17 0, inHandler := false, span := [], status := st }) →
      (c.marker = false → exec (.tret c) s = .next (e .ready)) ∧
      (c.marker = true → t.pend = [] → exec (.tret c) s = .next (e .ready).bump) ∧
      (c.marker = true → t.pend ≠ [] → exec (.tret c) s = .next (e (.parked false)))) ∧
    (executable s t .tret c = true → t.inHandler = false ∨ t.entryDepth < t.gates.length →
      exec (.tret c) s = .next (takeTrap s s.cur.1 s.cur.2 { cause := cILLOP, xpc := t.pc })) ∧
    (executable s t .tret c = true → t.inHandler = true → t.gates.length ≤ t.entryDepth →
      pwReserved t.xpw = true ∨ fselOk (pwFsel t.xpw) = false →
      exec (.tret c) s = .next (takeTrap s s.cur.1 s.cur.2 { cause := cBADRET, xpc := t.pc }))

/-- R107, R108 (spec/04): EXIT of a thread with every result known frees its context slot; with results unknown the
thread waits for them and issues nothing more; inside a gate call it is GATE. YIELD goes on at the next chain once what
is pending has returned, last of its queue. That xaddr of GATE with detail 5 is free is log 55. -/
def Obligations.ThreadEnds : Prop :=
  ∀ (c : Chain) (s : State) (t : Thread), s.here = some t →
    (executable s t .exit c = true → t.gates = [] → t.allKnown = true →
      ∃ u, exec (.exit c) s = .next u ∧ u.here = none ∧
        ∀ i, i ≠ s.cur.2 → u.thread? s.cur.1 i = s.thread? s.cur.1 i) ∧
    (executable s t .exit c = true → t.gates = [] → t.allKnown = false →
      exec (.exit c) s = .next ((issuedFor s t .exit c).modHere fun u => { u with status := .exiting })) ∧
    (executable s t .exit c = true → t.gates ≠ [] → ∃ a,
      exec (.exit c) s = .next (takeTrap s s.cur.1 s.cur.2 { cause := cGATE, detail := 5, xaddr := a, xpc := t.pc })) ∧
    (executable s t .yield c = true → t.pend ≠ [] → exec (.yield c) s = .next
      ((issuedFor s t .yield c).modHere fun u => { u with pc := nextPc .yield c t, status := .parked true })) ∧
    (executable s t .yield c = true → t.pend = [] → exec (.yield c) s = .next
      ((issuedFor s t .yield c).modHere fun u =>
        { u with pc := nextPc .yield c t, status := .ready, span := [], order := s.nextId }).bump)

/-- Gate calls and returns (spec/07 R211-R214, R217), done and refused. That xaddr of GATE with detail 4 or 5 is free is
log 55. -/
def Obligations.Gates : Prop :=
  Claim.GateCalls ∧ Claim.GateRefused

/-- R220 (spec/07), R434 (spec/21): CTLR writes what `controlValues` says of its selector to d; CTLW does what
`controlWrites` says; a write of dtab outside its layout is ILLOP, and one that makes the thread's own domain invalid
stops the thread (R330, spec/15). That CTLR caps reads the start of the capability list
is the model's choice (log 21). -/
def Obligations.ControlRegisters : Prop :=
  ∀ (c : Chain) (s : State) (t : Thread), s.here = some t →
    (executable s t .ctlr c = true → isQueue c.d = false → ∀ e ∈ controlValues s t, (immInt .ctlr c).toNat = e.1 →
      ∃ u τ, exec (.ctlr c) s = .next u ∧ u.here = some τ ∧ ShortResult .ctlr c s u t τ e.2 0) ∧
    (executable s t .ctlw c = true → isQueue c.a = false → ∀ e ∈ controlWrites t, (immInt .ctlw c).toNat = e.1 →
      exec (.ctlw c) s = .next (endsIn s t .ctlw c (e.2 ((issuedFor s t .ctlw c).modHere fun u =>
        { u with pc := nextPc .ctlw c t }) (t.scalar c.a)))) ∧
    (executable s t .ctlw c = true → isQueue c.a = false → (immInt .ctlw c).toNat = 0x21 →
      (dtabOk (t.scalar c.a) = true → ∀ u, u = writeDtab ((issuedFor s t .ctlw c).modHere fun u =>
          { u with pc := nextPc .ctlw c t }) s.cur.1 (t.scalar c.a) →
        ((∀ τ, u.here = some τ → τ.status ≠ .stopped) → exec (.ctlw c) s = .next (endsIn s t .ctlw c u)) ∧
        (∀ τ, u.here = some τ → τ.status = .stopped → exec (.ctlw c) s = .next u)) ∧
      (dtabOk (t.scalar c.a) = false →
        exec (.ctlw c) s = .next (takeTrap s s.cur.1 s.cur.2 { cause := cILLOP, xpc := t.pc })))

/-- Queue ports as sources and as destinations (spec/01 R27). -/
def Obligations.QueuePorts : Prop :=
  Claim.QueuePortReads ∧ Claim.QueuePortWrites ∧ Claim.QueuePortsBlock

/-! ### The global space -/

/-- Loads and fetch atomics of the global space (spec/07 R189, R192-R194, R201). The remote bit of MOORED is the model's
reading (log 70). -/
def Obligations.GlobalLoads : Prop :=
  Claim.GlobalLoadsAway ∧ Claim.GlobalLoadsAtHome

/-- R191, R192, R195, R200 (spec/07): a store, message atomic or full/empty message sends a message to the home of its
address, counted in its scope; where the path to the cube lacks the class of an atomic the thread departs, or takes
MOORED; STREL first waits as FENCE does. -/
def Obligations.GlobalMessages : Prop :=
  ∀ e ∈ globalMessages, ∀ (c : Chain) (s : State) (t : Thread) (g : Word), s.here = some t →
    executable s t e.1 c = true → isQueue c.b = false → e.1 = .feclr ∨ isQueue c.d = false → Reaches s t e.1 c e.2 g →
    (e.1 = .strel → fenceClear t c.scope.code = true ∧ recordCovered t c.scope.code = false) →
    ((∀ k, atomicClass e.2 = some k → pathCarries s (eaCube g) k = true) → (e.2 = .stfe → ∀ off, ¬ InOwnStore s g off) →
      exec (Instr.ofOp e.1 c) s = .next (endsIn s t e.1 c (posted (issuedFor s t e.1 c)
        { packetFor s t c g (.access (accessOf e.1 c t e.2 false)) with seq := t.aseq } c.scope.code true))) ∧
    (∀ k, atomicClass e.2 = some k → pathCarries s (eaCube g) k = false →
      (t.moored = false → exec (Instr.ofOp e.1 c) s =
        .next (heldIn s t (issuedFor s t e.1 c) (.departing 1 g (if c.urg then 1 else 0) true))) ∧
      (t.moored = true → exec (Instr.ofOp e.1 c) s =
        .next (takeTrap s s.cur.1 s.cur.2 { cause := cMOORED, xaddr := g, xpc := t.pc }))) ∧
    (∀ off, e.2 = .stfe → InOwnStore s g off → ownPending s s.cur.1 t = false →
      feCheck s s.cur.1 t.dom true off g = none →
      exec (Instr.ofOp e.1 c) s = .next (feThread ((issuedFor s t e.1 c).modHere fun u => { u with pw := t.pw })
        s.cur.1 s.cur.2 2 off (resumeOf e.1 c t 10) (t.scalar c.d) g))

/-- R198, R199 (spec/07): FENCE goes on where every send that its scope covers is acknowledged, and waits otherwise; a
recorded failure that it covers is taken as a trap with the record's cause, detail and address. -/
def Obligations.Fences : Prop :=
  ∀ (c : Chain) (s : State) (t : Thread), s.here = some t → executable s t .fence c = true →
    ((∀ e ∈ t.sends, c.scope.code < e.2) → (bit t.frec 63 = false ∨ c.scope.code < bits t.frec 15 8) →
      exec (.fence c) s = .next (endsIn s t .fence c (issuedFor s t .fence c))) ∧
    ((∃ e ∈ t.sends, e.2 ≤ c.scope.code) →
      exec (.fence c) s = .next (blockAt s (ctxOf s t .fence c) (.fence c.scope.code))) ∧
    ((∀ e ∈ t.sends, c.scope.code < e.2) → bit t.frec 63 = true → bits t.frec 15 8 ≤ c.scope.code →
      exec (.fence c) s = .next (takeTrap s s.cur.1 s.cur.2
        { cause := bits t.frec 7 0, detail := bits t.frec 31 16, remote := true, more := bit t.frec 62,
          xaddr := t.fraddr, xpc := t.pc, record := true }))

/-- What a home does with an access, and the values of the atomics (spec/07 R189, R192, R193). -/
def Obligations.HomeAccesses : Prop :=
  Claim.HomeLocalStore ∧ Claim.AtomicValues

/-! ### Barriers, messages and tasks -/

/-- Arrivals at barriers and waits for their release (spec/07 R203-R206). -/
def Obligations.Barriers : Prop :=
  Claim.BarrierArrivals ∧ Claim.BarrierWaits

/-- R207, R208 (spec/07): SEND posts its words, of the send stage where ga is zr and else of the local store, to the
endpoint of gd, counted for FENCE; RECV stores the words of the oldest message of the task and writes its header, and
waits where there is none. -/
def Obligations.SendAndReceive : Prop :=
  ∀ (c : Chain) (s : State) (t : Thread), s.here = some t → isQueue c.a = false → isQueue c.d = false →
    (executable s t .send c = true → epIsCore (bits (t.scalar c.d) 31 0) = true →
      beyondScope s s.cur.1 c.scope (bits (t.scalar c.d) 31 0) = false → c.a = 10 →
      (immInt .send c).toNat ≤ t.stage.length →
      exec (.send c) s = .next (endsIn s t .send c ((posted (issuedFor s t .send c)
        (directFor s t (bits (t.scalar c.d) 31 0) (classOf c) (.message (bits (t.scalar c.d) 63 32)
          (t.stage.take (immInt .send c).toNat) (some t.group) c.urg none)) c.scope.code false).modHere fun u =>
            { u with stage := u.stage.drop (immInt .send c).toNat }))) ∧
    (executable s t .send c = true → epIsCore (bits (t.scalar c.d) 31 0) = true →
      beyondScope s s.cur.1 c.scope (bits (t.scalar c.d) 31 0) = false → c.a ≠ 10 →
      ∀ off, Loadable s t (t.scalar c.a) (8 * (immInt .send c).toNat) 8 off →
      exec (.send c) s = .next (endsIn s t .send c (posted (issuedFor s t .send c)
        (directFor s t (bits (t.scalar c.d) 31 0) (classOf c) (.message (bits (t.scalar c.d) 63 32)
          (storeDwords s off (immInt .send c).toNat) (some t.group) c.urg none)) c.scope.code false))) ∧
    (executable s t .recv c = true → ∀ m rest off, (tgetD s.hereCore.recvq t.task {}).msgs = m :: rest → m.popped = 0 →
      windowCheck (s.domEntry s.cur.1 t) (t.scalar c.a) 128 8 = .ok off →
      Storable s t (t.scalar c.a) (8 * m.words.length) 8 off →
      exec (.recv c) s = .next (endsIn s t .recv c (withReg s (replay
        ((issuedFor s t .recv c).modHereCore fun k => takeMessage k t.task off m rest) t.task) c.d m.hdr))) ∧
    (executable s t .recv c = true → ∀ off, (tgetD s.hereCore.recvq t.task {}).msgs = [] →
      windowCheck (s.domEntry s.cur.1 t) (t.scalar c.a) 128 8 = .ok off →
      exec (.recv c) s = .next (blockAt s (ctxOf s t .recv c) (.recv off (resumeOf .recv c t c.d))))

/-- R209, R210 (spec/07): SPAWN posts the packet at ga towards the operand gd; TPOST posts the datum ga to a trigger
entry; TBIND asks the entry to be bound, or unbound where ga is 0, and waits for its answer. -/
def Obligations.SpawnAndTriggers : Prop :=
  ∀ (c : Chain) (s : State) (t : Thread), s.here = some t → isQueue c.a = false → isQueue c.d = false →
    (executable s t .spawn c = true → ∀ off, Loadable s t (t.scalar c.a) 64 64 off →
      (c.scope = .cube → eaCube (t.scalar c.d) = s.logical) →
      exec (.spawn c) s = .next (endsIn s t .spawn c ((issuedFor s t .spawn c).post
        (packetFor s t c (t.scalar c.d) (.spawn (storeDwords s off 8) (t.scalar c.d) none))))) ∧
    (executable s t .tpost c = true → bits (t.scalar c.d) 63 22 = 0 →
      (c.scope = .cube → bits (t.scalar c.d) 21 8 = s.logical) →
      exec (.tpost c) s = .next (endsIn s t .tpost c ((issuedFor s t .tpost c).post
        (directFor s t (bits (t.scalar c.d) 21 8 * 2048 + 1024 + bits (t.scalar c.d) 7 0 / 64) (classOf c)
          (.tpost (bits (t.scalar c.d) 7 0) (t.scalar c.a)))))) ∧
    (executable s t .tbind c = true → t.scalar c.a = 0 →
      exec (.tbind c) s = .next (heldIn s t ((issuedFor s t .tbind c).send
        { directFor s t (s.ep (1024 + bits (t.scalar c.d) 7 0 / 64)) 0 (.tbind (bits (t.scalar c.d) 7 0) none) with
          addr := 0 }) (.awaiting s.nextId (resumeOf .tbind c t 10)))) ∧
    (executable s t .tbind c = true → t.scalar c.a ≠ 0 → ∀ off, Loadable s t (t.scalar c.a) 64 64 off →
      exec (.tbind c) s = .next (heldIn s t ((issuedFor s t .tbind c).send
        { directFor s t (s.ep (1024 + bits (t.scalar c.d) 7 0 / 64)) 0
            (.tbind (bits (t.scalar c.d) 7 0) (some (storeDwords s off 8))) with addr := t.scalar c.a })
        (.awaiting s.nextId (resumeOf .tbind c t 10))))

/-! ### The matrix engine, folios, streams, copies, bank-dot -/

/-- R156, R157, R161, R162 (spec/06): MCFG and MRESUME enter the q0 command order, blocking where it or the thread's share
of it is full; MGANG sets the gang tag of the next command; MBOOK sets the bookmark address, or clears it. That MBOOK
meets range locks as a load does, and that MGANG and MBOOK change nothing on a steward core, which has no slice, is the
model's reading (logs 113, 114). -/
def Obligations.MatrixChains : Prop :=
  ∀ (c : Chain) (s : State) (t : Thread), s.here = some t →
    (executable s t .mcfg c = true → isQueue c.a = false → (t.scalar c.a).toNat < 3 →
      (matrixRoom s.hereCore t = true → exec (.mcfg c) s = .next (endsIn s t .mcfg c
        (enterMatrix (issuedFor s t .mcfg c) s.cur.1 s.cur.2 (issuedThread s t) (.mcfg (t.scalar c.a).toNat) 0 0 false))) ∧
      (matrixRoom s.hereCore t = false →
        exec (.mcfg c) s = .next (blockAt s (ctxOf s t .mcfg c) (.push 4)))) ∧
    (executable s t .mgang c = true → isQueue c.a = false → (t.scalar c.a).toNat < 2 ^ 16 → s.cur.1 < 1024 →
      exec (.mgang c) s = .next (endsIn s t .mgang c ((issuedFor s t .mgang c).modHereCore fun k =>
        { k with slice := { k.slice with gang := some (t.scalar c.a).toNat } }))) ∧
    (executable s t .mresume c = true → portless c = true → matrixRoom s.hereCore t = true → ∀ off,
      Loadable s t (addressOf .mresume c t) 64 64 off →
      exec (.mresume c) s = .next (endsIn s t .mresume c (enterMatrix (issuedFor s t .mresume c) s.cur.1 s.cur.2
        (issuedThread s t) (.resume (storeDwords s off 8)) ((storeDwords s off 8).getD 1 0)
        ((storeDwords s off 8).getD 2 0) true))) ∧
    (executable s t .mbook c = true → portless c = true → addressOf .mbook c t = 0 → s.cur.1 < 1024 →
      exec (.mbook c) s = .next (endsIn s t .mbook c ((issuedFor s t .mbook c).modHereCore fun k =>
        { k with slice := { k.slice with bka := none } }))) ∧
    (executable s t .mbook c = true → portless c = true → addressOf .mbook c t ≠ 0 → s.cur.1 < 1024 → ∀ off,
      windowCheck (s.domEntry s.cur.1 t) (addressOf .mbook c t) 64 64 = .ok off →
      (threadConflict s.hereCore false ⟨0, off, 64⟩ = false →
        exec (.mbook c) s = .next (endsIn s t .mbook c ((issuedFor s t .mbook c).modHereCore fun k =>
          { k with slice := { k.slice with bka := some off } }))) ∧
      (threadConflict s.hereCore false ⟨0, off, 64⟩ = true → exec (.mbook c) s =
        .next (takeTrap s s.cur.1 s.cur.2 { cause := cRLOCK, xaddr := addressOf .mbook c t, xpc := t.pc }))) ∧
    (1024 ≤ s.cur.1 →
      (executable s t .mgang c = true → isQueue c.a = false → (t.scalar c.a).toNat < 2 ^ 16 →
        exec (.mgang c) s = .next (endsIn s t .mgang c (issuedFor s t .mgang c))) ∧
      (executable s t .mbook c = true → portless c = true → addressOf .mbook c t = 0 →
        exec (.mbook c) s = .next (endsIn s t .mbook c (issuedFor s t .mbook c))))

/-- R163, R164, R165, R167 (spec/06): FOPEN of a valid buffer takes the lowest free folio of the quire, locks the buffer
for reading and writes the handle; FJOIN subscribes the slice, or writes why it cannot; FCLOSE closes a folio of its
producer, or ends the subscription. -/
def Obligations.Folios : Prop :=
  ∀ (c : Chain) (s : State) (t : Thread), s.here = some t → isQueue c.a = false → isQueue c.b = false →
    isQueue c.d = false →
    (executable s t .fopen c = true → ∀ i, s.cur.1 < 1024 → 0 < folioBlock (t.scalar c.a) →
      folioBlock (t.scalar c.a) ≤ 2 ^ 17 → bits (t.scalar c.a) 37 22 = 0 → folioBase (t.scalar c.a) % 64 = 0 →
      (s.domEntry s.cur.1 t).guard (folioBase (t.scalar c.a))
        (folioCount (t.scalar c.a) * folioBlock (t.scalar c.a)) = true →
      folioBase (t.scalar c.a) + folioCount (t.scalar c.a) * folioBlock (t.scalar c.a) ≤ 2 ^ 22 → i < 8 →
      tget s.folios (folioIndex s i) = none → (∀ j, j < i → (tget s.folios (folioIndex s j)).isSome = true) →
      s.hereCore.locks.length < 32 → s.hereCore.sealed = false →
      engineConflict s.hereCore (.folio (s.cur.1 / 16) i) false (folioLock s i (t.scalar c.a)).spans = false →
      exec (.fopen c) s = .next (endsIn s t .fopen c (withReg s
        { (issuedFor s t .fopen c).modHereCore fun k =>
            { k with locks := k.locks ++ [folioLock s i (t.scalar c.a)] } with
          folios := tset s.folios (folioIndex s i) ⟨s.cur.1, folioBase (t.scalar c.a), folioBlock (t.scalar c.a),
            folioCount (t.scalar c.a), false⟩ } c.d (folioHandle (s.cur.1 / 16) i)))) ∧
    (executable s t .fjoin c = true → ∀ key f, s.cur.1 < 1024 → bits (t.scalar c.a) 9 8 = s.cur.1 / 256 →
      folioKey (t.scalar c.a) = some key → tget s.folios key = some f → f.closed = false →
      s.hereCore.slice.sub = none → 0 < (t.scalar c.b).toNat → (t.scalar c.b).toNat ≤ 8 →
      (t.scalar c.b).toNat * f.blen ≤ 131072 →
      exec (.fjoin c) s = .next (endsIn s t .fjoin c (withReg s ((issuedFor s t .fjoin c).modHereCore fun k =>
        { k with slice := { k.slice with sub := some ⟨key / 8, key % 8, (t.scalar c.b).toNat, 0, []⟩ } }) c.d 0))) ∧
    (executable s t .fjoin c = true → ∀ code, joinReply s s.cur.1 (t.scalar c.a) (t.scalar c.b) = (code, none) →
      exec (.fjoin c) s = .next (endsIn s t .fjoin c (withReg s (issuedFor s t .fjoin c) c.d (word code)))) ∧
    (executable s t .fclose c = true → ∀ key f, bit (t.scalar c.a) 15 = false → folioKey (t.scalar c.a) = some key →
      tget s.folios key = some f → f.producer = s.cur.1 →
      exec (.fclose c) s = .next (endsIn s t .fclose c
        { issuedFor s t .fclose c with folios := tset s.folios key { f with closed := true } })) ∧
    (executable s t .fclose c = true → ∀ sub, bit (t.scalar c.a) 15 = true → s.hereCore.slice.sub = some sub →
      folioKey (t.scalar c.a &&& ~~~ (0x8000 : Word)) = some (sub.quire * 8 + sub.slot) →
      exec (.fclose c) s = .next (endsIn s t .fclose c ((issuedFor s t .fclose c).modHereCore fun k =>
        { k with slice := { k.slice with sub := none } })))

/-- R168, R171 (spec/06): SMODE makes a vector register a stream of the pattern its descriptor gives, with its register
zero, under the domain and the owner tag of its issue (spec/15 R345, R348); SSTOP ends stream mode, with its register
zero, and what a strip under way holds. -/
def Obligations.StreamModes : Prop :=
  ∀ (c : Chain) (s : State) (t : Thread), s.here = some t →
    (executable s t .smode c = true → portless c = true → t.stream? c.vd = none → ∀ off base,
      Loadable s t (addressOf .smode c t) 32 8 off →
      patternBad (streamPattern (storeDwords s off 4)) ((storeDwords s off 4).getD 3 0) = false →
      streamBase s s.cur.1 (s.domEntry s.cur.1 t) (streamPattern (storeDwords s off 4)) = .ok base →
      exec (.smode c) s = .next (endsIn s t .smode c ((issuedFor s t .smode c).bump.modHere fun u =>
        { u with
          parity := u.parity.filter (· != .v c.vd),
          lease := leaseStream t c.vd
            (some { pat := { streamPattern (storeDwords s off 4) with base := base }, op := s.nextId, dom := t.dom
                    priv := (s.domEntry s.cur.1 t).priv, key := s.hereCore.owner }) }))) ∧
    (executable s t .sstop c = true → ∀ e : State,
      ((t.stream? c.vd = none ∨ ∃ st, t.stream? c.vd = some st ∧ (st.pat.sink = true ∨ st.coming = [])) →
        e = issuedFor s t .sstop c) →
      (∀ st, t.stream? c.vd = some st → st.pat.sink = false → st.coming ≠ [] → e = endStream (issuedFor s t .sstop c) st) →
      exec (.sstop c) s = .next (endsIn s t .sstop c (e.modHere fun u =>
        { u with parity := u.parity.filter (· != .v c.vd), lease := leaseStream t c.vd none })))

/-- R172, R173, R174, R178, R183 (spec/06): a copy whose checks hold is handed to the copy engine where it has room, and
blocks else; ROWCOPY and ROWZERO likewise; MWAIT goes on once the mailbox has reached the count and subtracts it. -/
def Obligations.CopyChains : Prop :=
  ∀ (c : Chain) (s : State) (t : Thread), s.here = some t → isQueue c.a = false → isQueue c.b = false →
    isQueue c.d = false →
    (∀ e ∈ copies, executable s t e.1 c = true → ∀ op, makeCopy (issuedFor s t e.1 c) s.cur.1 s.cur.2 (issuedThread s t) e.2
        (t.scalar c.d) (t.scalar c.a) (t.scalar c.b) (immInt e.1 c).toNat c.scope.code c.urg c.nt = .ok op →
      (copyRoom s.hereCore t = true → exec (Instr.ofOp e.1 c) s =
        .next (endsIn s t e.1 c (enterCopy (issuedFor s t e.1 c) s.cur.1 s.cur.2 op))) ∧
      (copyRoom s.hereCore t = false →
        exec (Instr.ofOp e.1 c) s = .next (blockAt s (ctxOf s t e.1 c) (.push 1)))) ∧
    (executable s t .rowcopy c = true → isWindow (t.scalar c.d) = false → isWindow (t.scalar c.a) = false →
      (t.scalar c.d).toNat % 2048 = 0 → (t.scalar c.a).toNat % 2048 = 0 → copyRoom s.hereCore t = true →
      exec (.rowcopy c) s = .next (endsIn s t .rowcopy c (enterCopy (issuedFor s t .rowcopy c) s.cur.1 s.cur.2
        (rowOp (issuedFor s t .rowcopy c) (ctxOf s t .rowcopy c) (issuedThread s t) 4 (t.scalar c.d) (t.scalar c.a))))) ∧
    (executable s t .rowzero c = true → isWindow (t.scalar c.d) = false → (t.scalar c.d).toNat % 2048 = 0 →
      copyRoom s.hereCore t = true →
      exec (.rowzero c) s = .next (endsIn s t .rowzero c (enterCopy (issuedFor s t .rowzero c) s.cur.1 s.cur.2
        (rowOp (issuedFor s t .rowzero c) (ctxOf s t .rowzero c) (issuedThread s t) 5 (t.scalar c.d) (t.scalar c.d))))) ∧
    (executable s t .mwait c = true →
      (bits (t.scalar c.a) 31 0 = 0 →
        exec (.mwait c) s = .next (endsIn s t .mwait c (issuedFor s t .mwait c))) ∧
      (bits (t.scalar c.a) 31 0 ≠ 0 → mailReached (issuedFor s t .mwait c).hereCore t.group (immInt .mwait c).toNat
          (bits (t.scalar c.a) 31 0) = true →
        exec (.mwait c) s = .next (endsIn s t .mwait c ((issuedFor s t .mwait c).modHereCore fun k =>
          addMail k t.group (immInt .mwait c).toNat (2 ^ 32 - bits (t.scalar c.a) 31 0)))) ∧
      (mailReached (issuedFor s t .mwait c).hereCore t.group (immInt .mwait c).toNat (bits (t.scalar c.a) 31 0) = false →
        exec (.mwait c) s = .next (blockAt s (ctxOf s t .mwait c)
          (.mailbox t.group (immInt .mwait c).toNat (bits (t.scalar c.a) 31 0) (resumeOf .mwait c t 10)))))

/-- R179, R180, R181 (spec/06): BDCFG sets a valid configuration word; BDOT and BDOTQ with one read the vector of the
local store and send it to the home of the run, their result pending for d, or for q3. -/
def Obligations.BankDotChains : Prop :=
  ∀ (c : Chain) (s : State) (t : Thread), s.here = some t →
    (executable s t .bdcfg c = true → isQueue c.a = false → bdcfgOk (t.scalar c.a) = true →
      exec (.bdcfg c) s = .next (endsIn s t .bdcfg c
        ((issuedFor s t .bdcfg c).modHere fun u => { u with bdcfg := t.scalar c.a }))) ∧
    (executable s t .bdcfg c = true → isQueue c.a = false → bdcfgOk (t.scalar c.a) = false →
      exec (.bdcfg c) s = .next (takeTrap s s.cur.1 s.cur.2 { cause := cILLOP, xpc := t.pc })) ∧
    (executable s t .bdot c = true → bdcfgOk t.bdcfg = true → ∀ off,
      windowCheck (s.domEntry s.cur.1 t) (word (bits t.bdcfg 21 0 + 0x00F0000000000000)) (bdVecBytes t.bdcfg) 1 = .ok off →
      threadConflict s.hereCore false ⟨0, bits t.bdcfg 21 0, bdVecBytes t.bdcfg⟩ = false →
      isWindow (t.scalar c.a) = false → bits (t.scalar c.a) 63 56 = 0 → regionOf (eaOff (t.scalar c.a)) = .dram →
      exec (.bdot c) s = .next (endsIn s t .bdot c ((addPend (issuedFor s t .bdot c) s.cur.1 s.cur.2 (gRes c.d) none).send
        { packetFor s t c (t.scalar c.a) (.bdot t.bdcfg (bankVector s t) s.nextId false (bankPoison s t)) with
          urg := 0 }))) ∧
    (executable s t .bdotq c = true → bdcfgOk t.bdcfg = true → t.q3.length < 32 → ∀ off,
      windowCheck (s.domEntry s.cur.1 t) (word (bits t.bdcfg 21 0 + 0x00F0000000000000)) (bdVecBytes t.bdcfg) 1 = .ok off →
      threadConflict s.hereCore false ⟨0, bits t.bdcfg 21 0, bdVecBytes t.bdcfg⟩ = false →
      isWindow (t.scalar c.a) = false → bits (t.scalar c.a) 63 56 = 0 → regionOf (eaOff (t.scalar c.a)) = .dram →
      exec (.bdotq c) s = .next (endsIn s t .bdotq c
        (((issuedFor s t .bdotq c).modHere fun u => { u with q3 := t.q3 ++ [(s.nextId, none)] }).bump.send
          { packetFor s t c (t.scalar c.a) (.bdot t.bdcfg (bankVector s t) s.nextId true (bankPoison s t)) with
            urg := 0 })))

/-! ### Privileged instructions -/

/-- R222, R223, R224, R225 (spec/07): SLINV drops what the slices of its cube hold and asks another cube; SETKEY
installs or empties a key slot; SETOWN sets the owner tag, and a change clears both stores and what goes with the
residency (spec/00 R4; that commands handed over go on is log 112); ISTW and START go to their
core and are counted for FENCE. That SLINV waits for walks is the model's reading (log 69). -/
def Obligations.PrivilegedChains : Prop :=
  ∀ (c : Chain) (s : State) (t : Thread), s.here = some t → isQueue c.a = false → isQueue c.d = false →
    (∀ e ∈ invalidations, executable s t .slinv c = true → bits (t.scalar c.a) 15 12 = e.1 →
      slinvBad (t.scalar c.a) = false →
      ((c.scope = .cube ∨ eaCube (t.scalar c.a) = s.logical) → walking s = false →
        exec (.slinv c) s = .next (endsIn s t .slinv c (e.2 (t.scalar c.a) (issuedFor s t .slinv c)))) ∧
      (c.scope ≠ .cube → eaCube (t.scalar c.a) ≠ s.logical → exec (.slinv c) s = .next (heldIn s t
        ((issuedFor s t .slinv c).send (directPacket s (s.ep s.cur.1) (eaCube (t.scalar c.a) * 2048 + slicePort) 2 t.uid
          s.cur.2 (.slinv e.1 (t.scalar c.a)))) (.awaiting s.nextId (resumeOf .slinv c t 10))))) ∧
    (executable s t .setkey c = true → ∀ off, Loadable s t (t.scalar c.a) 64 64 off →
      keyRecordBad (storeDwords s off 8) = false →
      (bits (t.scalar c.d) 6 0 = 0 → (s.domEntry s.cur.1 t).system = true) →
      exec (.setkey c) s = .next (endsIn s t .setkey c
        (installKey (issuedFor s t .setkey c) (bits (t.scalar c.d) 6 0) (storeDwords s off 8)))) ∧
    (executable s t .setown c = true → bits (t.scalar c.a) 63 7 = 0 →
      setownBarred (issuedFor s t .setown c) s.cur.1 s.cur.2 (bits (t.scalar c.a) 6 0) = false →
      (bits (t.scalar c.a) 6 0 = s.hereCore.owner → exec (.setown c) s = .next (endsIn s t .setown c
        (replayAll ((issuedFor s t .setown c).modHereCore fun k => { k with sealed := false })))) ∧
      (bits (t.scalar c.a) 6 0 ≠ s.hereCore.owner → exec (.setown c) s = .next (endsIn s t .setown c
        (replayAll (((dropStreams (issuedFor s t .setown c) s.cur.1).modCore s.cur.1 fun k =>
          { k with owner := bits (t.scalar c.a) 6 0, sealed := false, lstore := [], bstore := [], empty := [], mail := []
                   slice := { order := k.slice.order }, poison := k.poison.filter fun p => p.1 == 2 }).pass
          s.cur.1 24576))))) ∧
    (executable s t .istw c = true → bits (t.scalar c.d) 63 50 = 0 → bits (t.scalar c.d) 34 32 = 0 →
      epIsCore (bits (t.scalar c.d) 31 0) = true →
      exec (.istw c) s = .next (endsIn s t .istw c (sentSystem s t .istw c (bits (t.scalar c.d) 31 0)
        (.istw (bits (t.scalar c.d) 49 32) (t.scalar c.a))))) ∧
    (executable s t .start c = true → bits (t.scalar c.d) 63 32 = 0 → epIsCore (bits (t.scalar c.d) 31 0) = true →
      (t.scalar c.a = 0 → exec (.start c) s = .next (endsIn s t .start c
        (sentSystem s t .start c (bits (t.scalar c.d) 31 0) (.start none)))) ∧
      (t.scalar c.a ≠ 0 → ∀ off, Loadable s t (t.scalar c.a) 64 64 off → exec (.start c) s = .next (endsIn s t .start c
        (sentSystem s t .start c (bits (t.scalar c.d) 31 0) (.start (some (storeDwords s off 8)))))))

/-- R226 (spec/07), R353, R365 (spec/16): BUOYS sets the lowest free buoy of an empty core and writes its handle, bit 63
where none is free; BUOYC clears a buoy; HALTRQ sends its request to the halt tree and, where it stops its own
partition, stops the thread. -/
def Obligations.BuoysAndHalt : Prop :=
  ∀ (c : Chain) (s : State) (t : Thread), s.here = some t → isQueue c.a = false → isQueue c.d = false →
    (executable s t .buoys c = true → ∀ v i, bits (t.scalar c.a) 63 43 = 0 → v = bits (t.scalar c.a) 42 32 → v < 1028 →
      (s.core v).threads = [] → i < 16 → tget (s.core v).buoys i = none →
      (∀ j, j < i → (tget (s.core v).buoys j).isSome = true) →
      exec (.buoys c) s = .next (endsIn s t .buoys c (withReg s (replayAll ((issuedFor s t .buoys c).modCore v fun k =>
        { k with buoys := tset k.buoys i ⟨k.owner, bits (t.scalar c.a) 31 0, k.cyc, []⟩, sealed := false })) c.d
        (word (v * 16 + i))))) ∧
    (executable s t .buoys c = true → ∀ v, bits (t.scalar c.a) 63 43 = 0 → v = bits (t.scalar c.a) 42 32 → v < 1028 →
      (s.core v).threads = [] → (∀ j, j < 16 → (tget (s.core v).buoys j).isSome = true) →
      exec (.buoys c) s = .next (endsIn s t .buoys c (withReg s (replayAll ((issuedFor s t .buoys c).modCore v fun k => k)) c.d
        (word (2 ^ 63))))) ∧
    (executable s t .buoyc c = true → ∀ v, bits (t.scalar c.a) 63 15 = 0 → v = bits (t.scalar c.a) 14 4 →
      (tget (s.core v).buoys (bits (t.scalar c.a) 3 0)).isSome = true →
      exec (.buoyc c) s = .next (endsIn s t .buoyc c ((issuedFor s t .buoyc c).modCore v fun k =>
        { k with buoys := tdel k.buoys (bits (t.scalar c.a) 3 0) }))) ∧
    (executable s t .haltrq c = true → ∀ p, p = bits (t.scalar c.a) 15 0 → p ≠ 0 → bits (t.scalar c.a) 63 18 = 0 →
      bits (t.scalar c.a) 17 16 < 2 → ∀ u, u = ((issuedFor s t .haltrq c).send (directPacket s (s.ep s.cur.1)
          (s.logical * 2048 + barrierPort) 2 t.uid s.cur.2 (.haltReq p (bits (t.scalar c.a) 17 16 == 0)))).send
        (directPacket s (s.ep s.cur.1) (treeUp * 2048 + barrierPort) 2 t.uid s.cur.2
          (.haltReq p (bits (t.scalar c.a) 17 16 == 0))) →
      exec (.haltrq c) s = .next (endsIn s t .haltrq c
        (if bits (t.scalar c.a) 17 16 = 0 ∧ s.hereCore.part = p then
          u.modHere fun w => { w with stops := 4 :: w.stops.filter (· != 4) } else u)))

/-- R227 (spec/07), R355, R356, R357 (spec/16): CSAVE of a stopped context whose area is placed in this cube writes its
image to the homes of the area, takes it off its core and writes 0 to d; CLOAD of a good area puts it in place and writes
0; a malformed selector writes 3, an area that is not placed 2, a target that is not stopped 1; an area in another cube is
written or read there first. That an area whose empty fields are not zero is refused is the model's reading (log 56). -/
def Obligations.ContextChains : Prop :=
  ∀ (c : Chain) (s : State) (t : Thread), s.here = some t → isQueue c.a = false → isQueue c.d = false →
    (∀ o : Op, o = .csave ∨ o = .cload → executable s t o c = true →
      (selector s.cur.1 s.cur.2 (t.scalar c.d) = none →
        exec (Instr.ofOp o c) s = .next (endsIn s t o c (withReg s (issuedFor s t o c) c.d 3))) ∧
      (∀ kind tgt, selector s.cur.1 s.cur.2 (t.scalar c.d) = some (kind, tgt) →
        areaPlace (t.scalar c.a) (areaSize kind) = false →
        exec (Instr.ofOp o c) s = .next (endsIn s t o c (withReg s (issuedFor s t o c) c.d 2)))) ∧
    (executable s t .csave c = true → ∀ kind tgt, selector s.cur.1 s.cur.2 (t.scalar c.d) = some (kind, tgt) →
      areaPlace (t.scalar c.a) (areaSize kind) = true → ∀ e, e = issuedFor s t .csave c →
      (canSave e s.cur.1 kind tgt = false → exec (.csave c) s = .next (endsIn s t .csave c (withReg s e c.d 1))) ∧
      (canSave e s.cur.1 kind tgt = true →
        (contextReady e s.cur.1 s.cur.2 false (t.scalar c.d) = false →
          exec (.csave c) s = .next (blockAt s (ctxOf s t .csave c) (.context false (t.scalar c.d)))) ∧
        (contextReady e s.cur.1 s.cur.2 false (t.scalar c.d) = true →
          (eaCube (t.scalar c.a) ≠ s.logical → exec (.csave c) s = .next (conclude s (ctxOf s t .csave c)
            (startArea e (ctxOf s t .csave c) (issuedThread s t) true kind tgt (t.scalar c.a)))) ∧
          (eaCube (t.scalar c.a) = s.logical → ∀ homes e',
            areaHomes e s.cur.1 (issuedThread s t) true (t.scalar c.a) (areaSize kind) = (some homes, e') →
            (∀ u, kind = 0 → e'.thread? s.cur.1 tgt = some u → exec (.csave c) s = .next (endsIn s t .csave c (withReg s
              (writeArea (removeThread e' s.cur.1 tgt u) (targetImage e' s.cur.1 0 tgt).1 [] homes) c.d 0))) ∧
            (kind ≠ 0 → exec (.csave c) s = .next (endsIn s t .csave c
              (withReg s (saveCores e' (targetCores kind tgt) homes) c.d 0))))))) ∧
    (executable s t .cload c = true → ∀ kind tgt homes e, selector s.cur.1 s.cur.2 (t.scalar c.d) = some (kind, tgt) →
      areaPlace (t.scalar c.a) (areaSize kind) = true → eaCube (t.scalar c.a) = s.logical →
      areaHomes (issuedFor s t .cload c) s.cur.1 (issuedThread s t) false (t.scalar c.a) (areaSize kind) =
        (some homes, e) → ∀ m bad u, readArea e homes = ((m, bad), u) →
      (kind = 0 → (tget (u.core s.cur.1).threads tgt).isNone = true → areaLoads u m 0 = true → bad = [] →
        (bits (get m 8) 18 16 = 0 ∨
          (leaseRoom (u.core s.cur.1) (bits (get m 8) 18 16) = true ∧ (u.core s.cur.1).leaseq = [])) →
        exec (.cload c) s = .next (endsIn s t .cload c (withReg s (loadThread u s.cur.1 tgt m 0 true) c.d 0))) ∧
      (kind ≠ 0 → (∀ a ∈ coreAreas (targetCores kind tgt) m bad, coreFree u a.1 (bits (get a.2.1 8) 6 0) = true ∧
          coreAreaOk u a.2.1 = true ∧ ∀ w ∈ a.2.2, 0x20000 ≤ w) →
        exec (.cload c) s = .next (endsIn s t .cload c
          (withReg s (replayAll (loadCores u (coreAreas (targetCores kind tgt) m bad))) c.d 0))))

/-! ### Every coded instruction completes -/

/-- The chain completes without a trap: the thread at hand goes on at a pc, ready or parked by its switch marker, inside a
handler only if it was in one. -/
def RunsTo (o : Op) (c : Chain) (s : State) (t : Thread) (pc : Nat) : Prop :=
  ∃ u τ, exec (Instr.ofOp o c) s = .next u ∧ u.here = some τ ∧ τ.pc = pc ∧ τ.inHandler = t.inHandler ∧
    (τ.status = .ready ∨ τ.status = .parked false)

/-- The chain has its effect, which makes some state, and is completed in it. -/
def Ends (o : Op) (c : Chain) (s : State) (t : Thread) : Prop := ∃ e, exec (Instr.ofOp o c) s = .next (endsIn s t o c e)

/-- The chain has its effect, which is to ask another unit, and the thread waits for the answer. -/
def Asks (o : Op) (c : Chain) (s : State) (t : Thread) : Prop :=
  ∃ e n r, exec (Instr.ofOp o c) s = .next (heldIn s t e (.awaiting n r))

/-- The chains whose completion needs nothing beside `executable`: scalar integer, predicate and vector integer ones. -/
def scalarChains : List Op :=
  [.nop, .mov, .neg, .not, .abs, .clz, .ctz, .popc, .brev, .bswap, .sext, .add, .sub, .mul, .mulh, .mulhn, .div, .divn, .rem,
   .remn, .and, .or, .xor, .andn, .shl, .shr, .sar, .rol, .min, .max, .minn, .maxn, .cmpeq, .cmpne, .cmplt, .cmple, .cmpltn,
   .cmplen, .tst, .pand, .por, .pxor, .pnot, .rdpw, .sel, .rdcyc, .movi, .addi, .andi, .itof, .ntof, .fclrf, .fmt]
def vectorChains : List Op :=
  [.viadd, .visub, .vimul, .vimulh, .vimin, .vimax, .vand, .vor, .vxor, .vshl, .vshr, .viadds, .visubs, .viabs, .vineg, .vimad,
   .vicmpeq, .vicmplt, .vicmple, .mand, .mor, .mxor, .mnot, .mpop, .mall, .virsum, .virmin, .virmax, .vperm, .vbcast, .vext,
   .vins, .vmov, .viota, .vsplati, .vcvtf, .mxdq, .tsq, .tsdq]

/-- R38 (spec/01), R93 to R117 (spec/04), R119 to R142 (spec/05), R150 to R185 (spec/06), R188 to R227 (spec/07): EVERY CODED
INSTRUCTION COMPLETES. A chain o (the constructor of `Instr` with the name of the `Op`) that is executable and names no queue
port answers a next state, under the conditions that its rule gives for its own effect, which are conditions on the state and
the operands alone. This part: the scalar, floating-point and vector instructions and the local window. -/
def Claim.ComputationCompletes : Prop :=
  ∀ (c : Chain) (s : State) (t : Thread), s.here = some t → isQueue c.a = false → isQueue c.b = false → isQueue c.d = false →
    (∀ o ∈ scalarChains, executable s t o c = true → RunsTo o c s t (nextPc o c t)) ∧
    (executable s t .wrpw c = true → wrpwBad (t.scalar c.a) = false → RunsTo .wrpw c s t (nextPc .wrpw c t)) ∧
    (∀ e ∈ [(Op.bt, true), (.bf, false)], executable s t e.1 c = true →
      RunsTo e.1 c s t (if pwPred t.pw c.d.toNat = e.2 then relativeTarget e.1 c t else nextPc e.1 c t)) ∧
    (executable s t .call c = true → RunsTo .call c s t (relativeTarget .call c t)) ∧
    (∀ o ∈ [Op.jr, .callr], executable s t o c = true → bit (t.scalar c.a) 0 = false →
      RunsTo o c s t ((t.scalar c.a).toNat % 2 ^ 18)) ∧
    (∀ o ∈ [Op.fadd, .fsub, .fmul, .fdiv, .fmin, .fmax], executable s t o c = true → fpFormatsOk o c t = true →
      RunsTo o c s t (nextPc o c t)) ∧
    (∀ o ∈ [Op.fma, .fms, .fcmpeq, .fcmplt, .fcmple, .fcmpun], executable s t o c = true → fselFmtOk (fpFmtA o c t) = true →
      fselFmtOk (fpFmtB o c t) = true → RunsTo o c s t (nextPc o c t)) ∧
    (∀ o ∈ [Op.fsqrt, .fclass, .ftoi, .fton], executable s t o c = true → fselFmtOk (fpFmtA o c t) = true →
      RunsTo o c s t (nextPc o c t)) ∧
    (∀ o ∈ [Op.fabs, .fneg, .frnd], executable s t o c = true → fselFmtOk (etCode o c) = true →
      RunsTo o c s t (nextPc o c t)) ∧
    (executable s t .fcvt c = true → fselFmtOk (fmtA t.pw true 0) = true → RunsTo .fcvt c s t (nextPc .fcvt c t)) ∧
    (∀ o ∈ vectorChains, executable s t o c = true → streamless o c t = true → RunsTo o c s t (nextPc o c t)) ∧
    (∀ o ∈ [Op.vcmpeq, .vcmplt, .vcmple, .vcmpun], executable s t o c = true → streamless o c t = true →
      fselFmtOk (fpFmtA o c t) = true → fselFmtOk (fpFmtB o c t) = true →
      (laneCount (max (fw (fpFmtA o c t)) (fw (fpFmtB o c t)))).isSome = true → RunsTo o c s t (nextPc o c t)) ∧
    (∀ o ∈ [Op.vadd, .vsub, .vmul, .vdiv, .vmin, .vmax], executable s t o c = true → streamless o c t = true →
      fselFmtOk (vecFmtX o c t) = true → fselFmtOk (vecFmtY o c t) = true →
      (laneCount (max (fw (etCode o c)) (max (fw (vecFmtX o c t)) (fw (vecFmtY o c t))))).isSome = true →
      RunsTo o c s t (nextPc o c t)) ∧
    (executable s t .vfma c = true → streamless .vfma c t = true → fselFmtOk (fpFmtA .vfma c t) = true →
      fselFmtOk (fpFmtB .vfma c t) = true →
      (laneCount (max (fw (etCode .vfma c)) (max (fw (fpFmtA .vfma c t)) (fw (fpFmtB .vfma c t))))).isSome = true →
      RunsTo .vfma c s t (nextPc .vfma c t)) ∧
    (executable s t .vsqrt c = true → streamless .vsqrt c t = true → fselFmtOk (fpFmtA .vsqrt c t) = true →
      (laneCount (max (fw (etCode .vsqrt c)) (fw (fpFmtA .vsqrt c t)))).isSome = true →
      RunsTo .vsqrt c s t (nextPc .vsqrt c t)) ∧
    (∀ o ∈ [Op.vabs, .vneg], executable s t o c = true → streamless o c t = true → fselFmtOk (etCode o c) = true →
      (laneCount (fw (etCode o c))).isSome = true → RunsTo o c s t (nextPc o c t)) ∧
    (∀ e ∈ [(Op.vcvt, fw), (.vcvti, etWidth)], executable s t e.1 c = true → streamless e.1 c t = true →
      fselFmtOk (fmtA t.pw true 1) = true → (laneCount (max (e.2 (etCode e.1 c)) (fw (fmtA t.pw true 1)))).isSome = true →
      RunsTo e.1 c s t (nextPc e.1 c t)) ∧
    (∀ o ∈ [Op.vrsum, .vrmin, .vrmax], executable s t o c = true → streamless o c t = true →
      fselFmtOk (fmtA t.pw true 1) = true → (laneCount (fw (fmtA t.pw true 1))).isSome = true →
      RunsTo o c s t (nextPc o c t)) ∧
    (executable s t .mxq c = true → streamless .mxq c t = true → fmtA t.pw true 1 = 1 → RunsTo .mxq c s t (nextPc .mxq c t)) ∧
    (executable s t .vlease c = true → t.lease = none →
      leaseRoom ((issuedFor s t .vlease c).core s.cur.1) (immInt .vlease c).toNat = true → s.hereCore.leaseq = [] →
      RunsTo .vlease c s t (nextPc .vlease c t)) ∧
    (executable s t .vfree c = true → Ends .vfree c s t) ∧
    (∀ e ∈ windowOps, executable s t e.1 c = true → streamless e.1 c t = true → ∀ off,
      Loadable s t (addressOf e.1 c t) (e.2.1 (etCode e.1 c)) (e.2.2.1 (etCode e.1 c)) off →
      Storable s t (addressOf e.1 c t) (e.2.1 (etCode e.1 c)) (e.2.2.1 (etCode e.1 c)) off →
      RunsTo e.1 c s t (nextPc e.1 c t)) ∧
    (∀ off : Nat → Nat, (∀ i, i < 16 → Loadable s t (strideAddress c t i) 8 8 (off i)) →
      (∀ i, i < 16 → Storable s t (strideAddress c t i) 8 8 (off i)) →
      ∀ o ∈ [Op.vlds, .vsts], executable s t o c = true → streamless o c t = true → RunsTo o c s t (nextPc o c t)) ∧
    (∀ o ∈ [Op.vgath, .vscat], executable s t o c = true → streamless o c t = true → ∀ off : Nat → Nat,
      (∀ i, i < 1024 / etWidth (etCode o c) → laneActive o c t i = true →
        Loadable s t (indexAddress o c t i) (etBytes (etCode o c)) (etBytes (etCode o c)) (off i) ∧
        Storable s t (indexAddress o c t i) (etBytes (etCode o c)) (etBytes (etCode o c)) (off i)) →
      RunsTo o c s t (nextPc o c t)) ∧
    (executable s t .exit c = true → t.gates = [] → t.allKnown = true → ∃ u, exec (.exit c) s = .next u ∧ u.here = none) ∧
    (executable s t .yield c = true → ∃ e pc st, exec (.yield c) s = .next e ∧ (e.here.map fun τ => (τ.pc, τ.status)) =
      some (pc, st) ∧ pc = nextPc .yield c t ∧ (st = .ready ∨ st = .parked true))

/-- The same of the engines, the global space, barriers, messages, gates, traps, control registers and the privileged
instructions. -/
def Claim.SystemCompletes : Prop :=
  ∀ (c : Chain) (s : State) (t : Thread), s.here = some t → isQueue c.a = false → isQueue c.b = false → isQueue c.d = false →
    (executable s t .trap c = true → exec (.trap c) s = .next (takeTrap s s.cur.1 s.cur.2
      { cause := cTRAP, detail := (immInt .trap c).toNat, xpc := nextPc .trap c t })) ∧
    (executable s t .tret c = true → t.inHandler = true → t.gates.length ≤ t.entryDepth → pwReserved t.xpw = false →
      fselOk (pwFsel t.xpw) = true → c.marker = false → exec (.tret c) s = .next ((issuedFor s t .tret c).modHere fun u =>
        { u with pw := t.xpw ||| 1, pc := bits t.xpc 17 0, inHandler := false, span := [], status := .ready })) ∧
    (executable s t .gcall c = true → (immInt .gcall c).toNat < (s.domEntry s.cur.1 t).gtn →
      (calledGate c s t).ok = true → (calledGate c s t).admits t.dom = true → t.gates.length < 4 →
      (calledDom c s t).ok = true → (calledGate c s t).window (calledDom c s t) = true →
      ∃ e, exec (.gcall c) s = .next (goesTo s t .gcall c e (bits (calledGate c s t).w0 43 26))) ∧
    (executable s t .gret c = true → ∀ f rest, t.gates = f :: rest →
      ∃ e, exec (.gret c) s = .next (goesTo s t .gret c e f.next)) ∧
    (executable s t .ctlr c = true → ∀ e ∈ controlValues s t, (immInt .ctlr c).toNat = e.1 →
      RunsTo .ctlr c s t (nextPc .ctlr c t)) ∧
    (executable s t .ctlw c = true → ∀ e ∈ controlWrites t, (immInt .ctlw c).toNat = e.1 → Ends .ctlw c s t) ∧
    (∀ e ∈ globalLoads, executable s t e.1 c = true → ∀ g, Reaches s t e.1 c e.2.1 g → AtOwnCore s g → t.atHome = none →
      ownPending s s.cur.1 t = false →
      (e.2.1 ≠ .ldfe → e.2.1 ≠ .ldff → ∀ old u, performHere (issuedFor s t e.1 c) s.cur.1 t.dom (s.domEntry s.cur.1 t).priv
        (accessOf e.1 c t e.2.1 e.2.2) g none = .ok (old, u) → Ends e.1 c s t) ∧
      (e.2.1 = .ldfe ∨ e.2.1 = .ldff → ∀ h off, regionOf (eaOff g) = .lstore h off →
        feCheck s s.cur.1 t.dom (e.2.1 == .ldfe) off g = none →
        ∃ v r, exec (Instr.ofOp e.1 c) s =
          .next (feThread v s.cur.1 s.cur.2 (if e.2.1 = .ldfe then 0 else 1) off r 0 g))) ∧
    (∀ e ∈ globalMessages, executable s t e.1 c = true → ∀ g, Reaches s t e.1 c e.2 g →
      (e.1 = .strel → fenceClear t c.scope.code = true ∧ recordCovered t c.scope.code = false) →
      (∀ k, atomicClass e.2 = some k → pathCarries s (eaCube g) k = true) → (e.2 = .stfe → ∀ off, ¬ InOwnStore s g off) →
      Ends e.1 c s t) ∧
    (executable s t .fence c = true → (∀ e ∈ t.sends, c.scope.code < e.2) →
      bit t.frec 63 = false ∨ c.scope.code < bits t.frec 15 8 → Ends .fence c s t) ∧
    (executable s t .binit c = true → 0 < (t.scalar c.a).toNat → (t.scalar c.a).toNat ≤ 2 ^ 26 → Asks .binit c s t) ∧
    (∀ o ∈ [Op.barr, .bdrop, .baw], executable s t o c = true → t.rs = false → noArrival t → Asks o c s t) ∧
    (executable s t .bwait c = true → ∀ a, t.arrival = some a → a.bar = namedBarrier s t .bwait c → a.lost = false →
      a.released = true → Ends .bwait c s t) ∧
    (executable s t .send c = true → epIsCore (bits (t.scalar c.d) 31 0) = true →
      beyondScope s s.cur.1 c.scope (bits (t.scalar c.d) 31 0) = false → c.a = 10 → (immInt .send c).toNat ≤ t.stage.length →
      Ends .send c s t) ∧
    (executable s t .recv c = true → ∀ m rest off, (tgetD s.hereCore.recvq t.task {}).msgs = m :: rest → m.popped = 0 →
      windowCheck (s.domEntry s.cur.1 t) (t.scalar c.a) 128 8 = .ok off →
      Storable s t (t.scalar c.a) (8 * m.words.length) 8 off → Ends .recv c s t) ∧
    (executable s t .spawn c = true → ∀ off, Loadable s t (t.scalar c.a) 64 64 off →
      (c.scope = .cube → eaCube (t.scalar c.d) = s.logical) → Ends .spawn c s t) ∧
    (executable s t .tpost c = true → bits (t.scalar c.d) 63 22 = 0 → (c.scope = .cube → bits (t.scalar c.d) 21 8 = s.logical) →
      Ends .tpost c s t) ∧
    (executable s t .tbind c = true → t.scalar c.a = 0 → Asks .tbind c s t) ∧
    (executable s t .mcfg c = true → (t.scalar c.a).toNat < 3 → matrixRoom s.hereCore t = true → Ends .mcfg c s t) ∧
    (executable s t .mgang c = true → (t.scalar c.a).toNat < 2 ^ 16 → s.cur.1 < 1024 → Ends .mgang c s t) ∧
    (executable s t .mresume c = true → matrixRoom s.hereCore t = true → ∀ off,
      Loadable s t (addressOf .mresume c t) 64 64 off → Ends .mresume c s t) ∧
    (executable s t .mbook c = true → addressOf .mbook c t = 0 → s.cur.1 < 1024 → Ends .mbook c s t) ∧
    (executable s t .fopen c = true → ∀ i, s.cur.1 < 1024 → 0 < folioBlock (t.scalar c.a) → folioBlock (t.scalar c.a) ≤ 2 ^ 17 →
      bits (t.scalar c.a) 37 22 = 0 → folioBase (t.scalar c.a) % 64 = 0 →
      (s.domEntry s.cur.1 t).guard (folioBase (t.scalar c.a))
        (folioCount (t.scalar c.a) * folioBlock (t.scalar c.a)) = true →
      folioBase (t.scalar c.a) + folioCount (t.scalar c.a) * folioBlock (t.scalar c.a) ≤ 2 ^ 22 → i < 8 →
      tget s.folios (folioIndex s i) = none → (∀ j, j < i → (tget s.folios (folioIndex s j)).isSome = true) →
      s.hereCore.locks.length < 32 → s.hereCore.sealed = false →
      engineConflict s.hereCore (.folio (s.cur.1 / 16) i) false (folioLock s i (t.scalar c.a)).spans = false →
      Ends .fopen c s t) ∧
    (executable s t .fjoin c = true → ∀ key f, s.cur.1 < 1024 → bits (t.scalar c.a) 9 8 = s.cur.1 / 256 →
      folioKey (t.scalar c.a) = some key → tget s.folios key = some f → f.closed = false →
      s.hereCore.slice.sub = none → 0 < (t.scalar c.b).toNat → (t.scalar c.b).toNat ≤ 8 →
      (t.scalar c.b).toNat * f.blen ≤ 131072 → Ends .fjoin c s t) ∧
    (executable s t .fclose c = true → ∀ key f, bit (t.scalar c.a) 15 = false → folioKey (t.scalar c.a) = some key →
      tget s.folios key = some f → f.producer = s.cur.1 → Ends .fclose c s t) ∧
    (executable s t .smode c = true → t.stream? c.vd = none → ∀ off base, Loadable s t (addressOf .smode c t) 32 8 off →
      patternBad (streamPattern (storeDwords s off 4)) ((storeDwords s off 4).getD 3 0) = false →
      streamBase s s.cur.1 (s.domEntry s.cur.1 t) (streamPattern (storeDwords s off 4)) = .ok base → Ends .smode c s t) ∧
    (executable s t .sstop c = true → Ends .sstop c s t) ∧
    (∀ e ∈ copies, executable s t e.1 c = true → copyRoom s.hereCore t = true → ∀ op,
      makeCopy (issuedFor s t e.1 c) s.cur.1 s.cur.2 (issuedThread s t) e.2 (t.scalar c.d) (t.scalar c.a) (t.scalar c.b)
        (immInt e.1 c).toNat c.scope.code c.urg c.nt = .ok op → Ends e.1 c s t) ∧
    (executable s t .rowcopy c = true → isWindow (t.scalar c.d) = false → isWindow (t.scalar c.a) = false →
      (t.scalar c.d).toNat % 2048 = 0 → (t.scalar c.a).toNat % 2048 = 0 → copyRoom s.hereCore t = true → Ends .rowcopy c s t) ∧
    (executable s t .rowzero c = true → isWindow (t.scalar c.d) = false → (t.scalar c.d).toNat % 2048 = 0 →
      copyRoom s.hereCore t = true → Ends .rowzero c s t) ∧
    (executable s t .mwait c = true → bits (t.scalar c.a) 31 0 = 0 → Ends .mwait c s t) ∧
    (executable s t .bdcfg c = true → bdcfgOk (t.scalar c.a) = true → Ends .bdcfg c s t) ∧
    (∀ o ∈ [Op.bdot, .bdotq], executable s t o c = true → bdcfgOk t.bdcfg = true → t.q3.length < 32 → ∀ off,
      windowCheck (s.domEntry s.cur.1 t) (word (bits t.bdcfg 21 0 + 0x00F0000000000000)) (bdVecBytes t.bdcfg) 1 = .ok off →
      threadConflict s.hereCore false ⟨0, bits t.bdcfg 21 0, bdVecBytes t.bdcfg⟩ = false →
      isWindow (t.scalar c.a) = false → bits (t.scalar c.a) 63 56 = 0 → regionOf (eaOff (t.scalar c.a)) = .dram →
      Ends o c s t) ∧
    (executable s t .slinv c = true → bits (t.scalar c.a) 15 12 < 3 → slinvBad (t.scalar c.a) = false →
      c.scope = .cube ∨ eaCube (t.scalar c.a) = s.logical → walking s = false → Ends .slinv c s t) ∧
    (executable s t .setkey c = true → ∀ off, Loadable s t (t.scalar c.a) 64 64 off →
      keyRecordBad (storeDwords s off 8) = false →
      (bits (t.scalar c.d) 6 0 = 0 → (s.domEntry s.cur.1 t).system = true) → Ends .setkey c s t) ∧
    (executable s t .setown c = true → bits (t.scalar c.a) 63 7 = 0 →
      setownBarred (issuedFor s t .setown c) s.cur.1 s.cur.2 (bits (t.scalar c.a) 6 0) = false → Ends .setown c s t) ∧
    (executable s t .istw c = true → bits (t.scalar c.d) 63 50 = 0 → bits (t.scalar c.d) 34 32 = 0 →
      epIsCore (bits (t.scalar c.d) 31 0) = true → Ends .istw c s t) ∧
    (executable s t .start c = true → bits (t.scalar c.d) 63 32 = 0 → epIsCore (bits (t.scalar c.d) 31 0) = true →
      t.scalar c.a = 0 → Ends .start c s t) ∧
    (executable s t .buoys c = true → bits (t.scalar c.a) 63 43 = 0 → bits (t.scalar c.a) 42 32 < 1028 →
      (s.core (bits (t.scalar c.a) 42 32)).threads = [] → Ends .buoys c s t) ∧
    (executable s t .buoyc c = true → bits (t.scalar c.a) 63 15 = 0 →
      (tget (s.core (bits (t.scalar c.a) 14 4)).buoys (bits (t.scalar c.a) 3 0)).isSome = true → Ends .buoyc c s t) ∧
    (executable s t .haltrq c = true → bits (t.scalar c.a) 15 0 ≠ 0 → bits (t.scalar c.a) 63 18 = 0 →
      bits (t.scalar c.a) 17 16 < 2 → Ends .haltrq c s t) ∧
    (executable s t .csave c = true → ∀ tgt homes e u, selector s.cur.1 s.cur.2 (t.scalar c.d) = some (0, tgt) →
      areaPlace (t.scalar c.a) (areaSize 0) = true → eaCube (t.scalar c.a) = s.logical →
      canSave (issuedFor s t .csave c) s.cur.1 0 tgt = true →
      contextReady (issuedFor s t .csave c) s.cur.1 s.cur.2 false (t.scalar c.d) = true →
      areaHomes (issuedFor s t .csave c) s.cur.1 (issuedThread s t) true (t.scalar c.a) (areaSize 0) = (some homes, e) →
      e.thread? s.cur.1 tgt = some u → Ends .csave c s t) ∧
    (executable s t .cload c = true → ∀ tgt homes e, selector s.cur.1 s.cur.2 (t.scalar c.d) = some (0, tgt) →
      areaPlace (t.scalar c.a) (areaSize 0) = true → eaCube (t.scalar c.a) = s.logical →
      areaHomes (issuedFor s t .cload c) s.cur.1 (issuedThread s t) false (t.scalar c.a) (areaSize 0) = (some homes, e) →
      ∀ m u, readArea e homes = ((m, []), u) → (tget (u.core s.cur.1).threads tgt).isNone = true → areaLoads u m 0 = true →
      bits (get m 8) 18 16 = 0 ∨
        (leaseRoom (u.core s.cur.1) (bits (get m 8) 18 16) = true ∧ (u.core s.cur.1).leaseq = []) → Ends .cload c s t)

/-- Every coded instruction completes (spec/01 R38; spec/04 to spec/07): the instructions that compute and those of the system. -/
def Obligations.ChainsComplete : Prop :=
  Claim.ComputationCompletes ∧ Claim.SystemCompletes

/-! ### Steps without an encoding -/

/-- Steps of queue ports, blocks and waits (spec/01 R27, R35; spec/06 R144, R150; spec/07 R202, R215). -/
def Obligations.QueueAndWaitEvents : Prop :=
  Claim.QueueEvents ∧ Claim.WaitEvents

/-- R221 (spec/07), R325, R340 (spec/15), R397, R399, R403 (spec/19), R417, R420, R422 (spec/20), R431, R432 (spec/21):
stores to control registers and to the configuration region, each as a step of its own: dtab, frec, mberr, splitc, the
alias table, the route table, the path classes, the control of a home cache, the logical number and every other word. -/
def Obligations.ConfigEvents : Prop :=
  ∀ (s : State) (w : Word),
    (∀ core, core < 1028 → bits w 63 44 = 0 → bits w 31 22 = 0 → bits w 5 0 = 0 →
      exec (.dtabWrite core w) s = .next (writeDtab s core w)) ∧
    (∀ core slot t, s.thread? core slot = some t →
      exec (.frecClear core slot) s = .next (s.setThread core slot { t with frec := 0 })) ∧
    (∀ core g, core < 1028 → exec (.mberrClear core g w) s = .next (s.modCore core fun k =>
      let m := mailSet k (groupOf30 g.toNat)
      if m.mberr = 0 then k
      else setMail k (groupOf30 g.toNat) { m with mberr := m.mberr &&& ~~~ (BitVec.ofNat 16 w.toNat) })) ∧
    exec (.splitcWrite w) s = .next { s with splitc := if s.ucieUp then w &&& 0x7F else 0x7F } ∧
    (∀ k, k < 15360 → exec (.aliasEntryWrite k w) s = .next (writeAlias s k w)) ∧
    (∀ k p a, (s.net.find? fun q => q.stage == .queued && eaOff q.addr == 0x3FC00500000 + 8 * k && drained s k) = some p →
      p.body = .access a → exec (.aliasDrain k) s = .next (acknowledge (s.dropPacket p.id) p none)) ∧
    (∀ k, k < 15360 → (s.alias? k).2.1 ≠ 2 → exec (.aliasMarkLost k) s =
      .next (writeAlias s k ((tgetD s.aliases k 0 &&& 0x8000000000003FFF) ||| 0x4000000000000000))) ∧
    (∀ d, d < 1024 → ∃ u, exec (.routeEntryWrite d w) s = .next u ∧ u.routes = tset s.routes d (w &&& 0xFFFFFC0000000000)) ∧
    (∀ d r, (s.reroute.find? fun x => x.dest == d) = some r → oldRouteBusy s d (bits r.old 62 59) = false →
      exec (.routeSwitch d) s = .next { s with reroute := s.reroute.filter fun x => x.dest != d }) ∧
    (∀ i, i < 1920 → exec (.pathClassWrite i w) s = .next { s with
      paths := (List.range 8).foldl (fun l j => tset l (8 * i + j) (BitVec.ofNat 3 (bits w (8 * j + 2) (8 * j))))
        s.paths }) ∧
    (∀ core, core < 1028 → bits w 63 62 = 1 → bits w 61 60 ≠ 3 → bits w 59 23 = 0 →
      bits w 22 0 * 2 ^ 16 % 2 ^ frameBits (bits w 61 60) = 0 → exec (.hcDropFrame core w) s = .next (dropLines s core
        fun l => 32 * l.line / 2 ^ frameBits (bits w 61 60) == bits w 22 0 * 2 ^ 16 / 2 ^ frameBits (bits w 61 60))) ∧
    (∀ core, core < 1028 → exec (.hcDropAll core) s = .next (dropLines s core fun _ => true)) ∧
    exec (.logicalNumberWrite w) s = .next { s with logical := bits w 13 0 } ∧
    (∀ writer off, off < 2 ^ 34 → off % 8 = 0 →
      (∀ u, configStore s ⟨writer, writer == commanderEp⟩ off w = .ok u →
        exec (.configWordWrite writer off w) s = .next u) ∧
      (off / 0x100000 = 4 → off % 0x100000 < 0x20000 → exec (.configWordWrite writer off w) s = .next
        { s with space := tset s.space (off % 0x100000 / 8) (w &&& spaceMask (off % 0x100000 / 8 % 4)) }) ∧
      (off / 0x100000 = 14 → off % 0x100000 < 8224 → exec (.configWordWrite writer off w) s = .next
        { s with spillDesc := tset s.spillDesc (off % 0x100000 / 8) (w &&& 0xFF00000007FFFFFF) }))

/-- R338, R339 (spec/15): a slice that holds the leaf of a packet sends the packet on to its home with the translation;
else a walk begins, of which each step reads one entry; a missing entry fails the packet with XLATE. R267, R280, R201: a
message is performed at its home and acknowledged, and a late copy of one is discarded (R421, spec/20); one that a range
lock holds back waits there. R196, R207: an acknowledgement takes the message off its thread's list and records a failure;
a reply ends the wait of a load; R2 (spec/00): nothing is delivered for a core number that names neither core nor front
end. Which
leaf a full slice drops is the model's (log 28). -/
def Obligations.MemoryEvents : Prop :=
  ∀ (s : State) (pkt : Nat) (p : Packet) (a : Access),
    (s.packet? pkt = some p → p.stage = .slice → eaCube p.addr = s.logical → clearSlice s p = true → p.isRow = false →
      bits p.addr 63 56 = 0 → regionOf (eaOff p.addr) = .dram → ∀ e, e = s.useSpace (2000 + sliceOf p.addr) p.dom →
      bit (e.spaceAt (2000 + sliceOf p.addr) p.dom).w0 63 = true →
      (∀ l x, heldLeaf e (sliceOf p.addr) p.dom (eaOff p.addr) = some l → p.body = .access a → bits l.d0 49 48 ≠ 2 →
        leafCheck e (sliceOf p.addr) p.dom p.priv (eaOff p.addr) ⟨l.level, l.d0, l.d1, 0⟩ p.needs.1 p.needs.2 = .ok x →
        exec (.sliceTranslate pkt) s = .next (e.modPacket p.id fun q => { q with
          xl := some x, dst := e.logical * 2048 + placement e x.pa (bits l.d0 49 48) (bits l.d0 47 37), stage := .home })) ∧
      (heldLeaf e (sliceOf p.addr) p.dom (eaOff p.addr) = none → walksAt e (sliceOf p.addr) < 32 →
        exec (.sliceTranslate pkt) s = .next (e.modPacket pkt fun q =>
          { q with stage := .walk 1 (bits (e.spaceAt (2000 + sliceOf p.addr) p.dom).w0 22 0 * 65536) }))) ∧
    (s.packet? pkt = some p → ∀ level table, p.stage = .walk level table →
      ∀ at', at' = table + 16 * walkIndex (eaOff p.addr) level →
      ∀ r, r = homeReadLine s (spreadHome s 15 at') (at' / 32) 0 false →
      (∀ n, entryKind level (word (lineBytes r.1.1 (at' % 32) 8)) (word (lineBytes r.1.1 (at' % 32 + 8) 8)) = .table n →
        exec (.tableWalkRead pkt) s = .next (r.2.modPacket pkt fun q => { q with stage := .walk (level + 1) n })) ∧
      (entryKind level (word (lineBytes r.1.1 (at' % 32) 8)) (word (lineBytes r.1.1 (at' % 32 + 8) 8)) = .bad →
        p.body = .access a → exec (.tableWalkRead pkt) s =
          .next (acknowledge (r.2.dropPacket p.id) p (some ⟨cXLATE, 1, p.addr⟩)))) ∧
    (arriving s pkt = some p → p.body = .access a → epCore p.dst < 1028 → handledAt s (epCore p.dst) p = true →
      behindHeld (heldAt s p.dst) p = false → heldByPort s p = false → ∀ e, e = s.useSpace (epCore p.dst) p.dom →
      (∀ d, a.op ≠ .stfe → keptId s (epCore p.dst) p = some d → exec (.messagePerform pkt) s =
        .next (if d.performed then acknowledge (s.dropPacket p.id) p none else s.dropPacket p.id)) ∧
      (keptId s (epCore p.dst) p = none →
      (∀ u old, a.op ≠ .stfe → a.op ≠ .stff → a.op ≠ .feclr → p.bad = [] → (∀ o, regionOf (eaOff p.addr) ≠ .config o) →
        messageCheck e (epCore p.dst) p a = none → homeLocked e (epCore p.dst) a p.addr p.xl = false →
        homePerform e (epCore p.dst) a p.addr p.xl = .ok (old, u) →
        exec (.messagePerform pkt) s = .next (performed u (epCore p.dst) p)) ∧
      (∀ t, a.op ≠ .stfe → messageCheck e (epCore p.dst) p a = some t →
        exec (.messagePerform pkt) s = .next (failed e p ⟨t.cause, t.detail, t.xaddr⟩)) ∧
      (a.op ≠ .stfe → messageCheck e (epCore p.dst) p a = none → homeLocked e (epCore p.dst) a p.addr p.xl = true →
        (heldAt e p.dst).length < 32 → exec (.messagePerform pkt) s = .next
          { e.dropPacket p.id with net := (e.dropPacket p.id).net ++ [{ p with stage := .held }] }) ∧
      (∀ c o, a.op = .stfe → p.bad = [] → regionOf (eaOff p.addr) = .lstore c o →
        messageCheck e (epCore p.dst) p a = none → homeLocked e (epCore p.dst) a p.addr p.xl = false →
        exec (.stfeArrive pkt) s = .next (queueStfe e (epCore p.dst) p o)))) ∧
    (∀ core rest u old, heldAt s (s.ep core) = p :: rest → handledAt s core p = true → p.body = .access a →
      heldByPort s p = false → keptId s core p = none →
      homeLocked s core a p.addr p.xl = false → messageCheck s core p a = none → a.op ≠ .stfe → a.op ≠ .stff →
      a.op ≠ .feclr → p.bad = [] → (∀ o, regionOf (eaOff p.addr) ≠ .config o) →
      homePerform s core a p.addr p.xl = .ok (old, u) →
      exec (.heldMessagesRelease core) s = .next (performed u core p)) ∧
    (arriving s pkt = some p → epCore p.dst < 1028 → ∀ ref,
      (∀ fail core slot t, p.body = .ack ref fail → awaiter (s.dropPacket pkt) p.uid ref = none →
        (s.dropPacket pkt).where? p.uid = some (core, slot) → s.thread? core slot = some t →
        exec (.ackReceive pkt) s = .next ((s.dropPacket pkt).modThread core slot fun u => { u with
          sends := (settleSend u.sends u.frec u.fraddr ref fail).1
          frec := (settleSend u.sends u.frec u.fraddr ref fail).2.1
          fraddr := (settleSend u.sends u.frec u.fraddr ref fail).2.2 })) ∧
      (∀ v core slot t r, p.body = .reply ref v none → p.bad = [] → queuedResult s p.uid ref = false →
        awaiter (s.dropPacket pkt) p.uid ref = some (core, slot, t, r) →
        exec (.ackReceive pkt) s = .next (completeLong (s.dropPacket pkt) core slot r v))) ∧
    (arriving s pkt = some p → 1028 ≤ epCore p.dst → epCore p.dst < 1536 ∨ 1600 ≤ epCore p.dst →
      ∀ ref fail, p.body = .ack ref fail → exec (.ackReceive pkt) s = .next (s.dropPacket pkt))

/-- Steps of copies, row commands, streams and bank-dot (spec/06 R169-R183). The size of the pieces in which an engine
works is the model's (log 18). -/
def Obligations.CopyAndBankDotEvents : Prop :=
  Claim.CopyEvents ∧ Claim.BankDotEvents

/-- R150, R152, R153, R154, R155, R156, R157, R159 (spec/06): the head of a slice's order: an MCFG sets the array mode; a
COMPUTE in order registers its locks and runs, and one that is not ends with its code; an accumulator command is
performed; a gang whose sixteen members are present starts them together, or ends every one where their digests differ,
and a join that is not complete ends after the limit; a running command adds a k-block to the accumulators, a gang's in
step, is split at a k-block, and posts its status. R166, R167: a folio's next block is delivered, and a
closed folio without subscription is freed. -/
def Obligations.MatrixEvents : Prop :=
  ∀ (s : State) (core : Nat),
    (∀ m rest, (s.core core).slice.order = m :: rest →
      (∀ mode, m.kind = .mcfg mode → core < 1024 → cmdStopped s core m = false →
        exec (.arrayModeChange core) s = .next (s.modCore core fun k =>
          { k with slice := { k.slice with mode := mode, order := k.slice.order.drop 1 } })) ∧
      (m.kind = .words → cmdKind m.w0 = 1 → core < 1024 → m.phase = .queued → joins m = false → cmdStopped s core m = false →
        (∀ k, computeErr (s.core core) m = none → registerLock (s.core core)
            ⟨.matrix core, false, (computeSpans m.w0 m.w1).1 ++ (computeSpans m.w0 m.w1).2, []⟩ = some k →
          m.kdone < cmdNkb m.w0 →
          exec (.matrixCommandStart core) s = .next (setHead (s.setCore core k) core { m with phase := .running })) ∧
        (∀ code, computeErr (s.core core) m = some code →
          exec (.matrixCommandStart core) s = .next (setHead s core { m with phase := .finished code }))) ∧
      (core < 1024 → m.phase = .queued → joins m = true → gangPresent s core m = true →
        (∀ c ∈ quireCores core, ∀ h, headCmd s c = some h → cmdStopped s c h = false) →
        ∀ digest : Nat → Option (Nat × Nat), digest = (fun c => (headCmd s c).map (gangDigest (s.core c))) →
        ((∀ c ∈ quireCores core, digest c = digest core) → ∀ u, (quireCores core).foldlM beginHead s = some u →
          exec (.matrixCommandStart core) s = .next u) ∧
        ((∃ c ∈ quireCores core, digest c ≠ digest core) → exec (.matrixCommandStart core) s =
          .next ((quireCores core).foldl (fun u c => match headCmd u c with
            | some h => setHead u c { h with phase := .finished 3 } | none => u) s))) ∧
      (m.kind = .words → cmdKind m.w0 ≠ 1 → core < 1024 → joins m = false → m.phase = .queued → cmdStopped s core m = false →
        (∀ k, accErr (s.core core) m = none →
          (if cmdKind m.w0 = 2 then some (s.core core)
            else registerLock (s.core core) ⟨.matrix core, cmdKind m.w0 == 4, [accSpan m.w0], []⟩) = some k →
          exec (.matrixCommandStart core) s = .next (setHead (s.setCore core (accPerform k m).1) core
            { m with flags := (accPerform k m).2.1, phase := .finished (accPerform k m).2.2 })) ∧
        (∀ code, accErr (s.core core) m = some code →
          exec (.matrixCommandStart core) s = .next (setHead s core { m with phase := .finished code }))) ∧
      (core < 1024 → m.phase = .queued → joins m = true → m.arrived = none → cmdStopped s core m = false →
        exec (.gangJoin core) s = .next (setHead s core { resumed m with arrived := some (s.core core).cyc })) ∧
      (∀ since, m.arrived = some since → m.phase = .queued → (s.core core).mglim ≠ 0 → cmdStopped s core m = false →
        gangPresent s core m = false →
        since + (s.core core).mglim.toNat < (s.core core).cyc →
        exec (.gangTimeout core) s = .next (setHead s core { m with phase := .finished 4 })) ∧
      (m.phase = .running → m.gang = none → m.split = false →
        (cmdFolio m.w0 = false →
          (kblockPoison (s.core core) m (stepBlocks m) = false → exec (.matrixKblock core) s =
            .next (addBlocks s core m ((stepBlocks m).map fun j => (j, none)))) ∧
          (kblockPoison (s.core core) m (stepBlocks m) = true →
            exec (.matrixKblock core) s = .next (setHead s core { m with phase := .finished 6 }))) ∧
        (cmdFolio m.w0 = true →
          (folioBlocks s core m (stepBlocks m).length = .none →
            exec (.matrixKblock core) s = .next (setHead s core { m with phase := .finished 7 })) ∧
          (∀ bs, folioBlocks s core m (stepBlocks m).length = .blocks bs →
            kblockPoison (s.core core) m (stepBlocks m) = false → (∀ b ∈ bs, ∀ i ∈ b.2, blockNeeds m.w0 ≤ 8 * i) →
            exec (.matrixKblock core) s = .next (consumeBlocks (addBlocks s core m
              ((stepBlocks m).zip (bs.map fun b => some b.1))) core (stepBlocks m).length)))) ∧
      (m.phase = .running → m.gang ≠ none → ∀ u, (membersOf s core m).foldlM runOne s = some u →
        exec (.matrixKblock core) s = .next u) ∧
      (m.phase = .running → m.split = true → (s.core core).slice.bka = none →
        ∃ k, k.slice.kept = some (m.uid, bookmarkOf (s.core core) core m) ∧ k.lstore = (s.core core).lstore ∧
          k.slice.acc = (s.core core).slice.acc ∧
          exec (.matrixSplit core) s = .next (setHead (s.setCore core k) core { m with phase := .finished 1 })) ∧
      (∀ code, m.phase = .finished code → exec (.matrixStatusPost core) s = .next ((s.modCore core fun k =>
        { releaseLocks k (.matrix core) none with slice := { k.slice with order := k.slice.order.drop 1 } }).modThread
          core m.slot fun t => if t.uid == m.uid && m.kind != .badHalf then
            { t with q0 := t.q0 ++ [word (cmdKind m.w0 * 2 ^ 60 + code * 2 ^ 52 + m.flags.toNat * 2 ^ 47 +
              m.kdone * 2 ^ 16 + m.seq.toNat)] } else t))) ∧
    (∀ x f, (s.core core).slice.sub = some x → tget s.folios (x.quire * 8 + x.slot) = some f →
      ((headCmd s core).any fun m => m.phase == .running && cmdPacked m.w0) = false → x.held.length < x.window →
      x.pos + x.held.length < f.nb → ∀ o, o = f.base + (x.pos + x.held.length) * f.blen →
      ∀ block : List Byte, block =
        (List.range f.blen).map (fun i => BitVec.ofNat 8 ((s.core f.producer).lstore.read o f.blen / 256 ^ i)) →
      ∀ bad : List Nat, bad = ((s.core f.producer).poison.filterMap fun w =>
        if w.1 = 0 ∧ o / 8 ≤ w.2 ∧ w.2 < (o + f.blen) / 8 then some (w.2 - o / 8) else none) →
      ∀ y : Subscr, y = { x with held := x.held ++ [(block, bad)] } →
      exec (.folioDeliver core) s = .next (s.modCore core fun k => { k with slice := { k.slice with sub := some y } })) ∧
    (∀ quire slot f, tget s.folios (quire * 8 + slot) = some f → f.closed = true →
      (∀ c ∈ s.cores, ∀ x, c.2.slice.sub = some x → ¬ (x.quire = quire ∧ x.slot = slot)) →
      exec (.folioFree quire slot) s = .next { s.modCore f.producer (fun k => releaseLocks k (.folio quire slot) none) with
        folios := tdel s.folios (quire * 8 + slot) })

/-- Steps of barrier units and of ferries (spec/07 R203-R206, spec/08 R238-R245). The registers that a ferry does not
carry are as the model's logs 6 and 83 say. -/
def Obligations.BarrierAndFerryEvents : Prop :=
  Claim.BarrierEvents ∧ Claim.FerryEvents

/-- R231-R236 (spec/08), R302-R306, R308-R311, R313-R315, R317, R445 (spec/14): the steps of a front end: a stream port
is stored to; a header is accepted or refused with its code; a group is placed; a semaphore is waited for, read again,
given up or signalled; an exit report is counted; a task record is stored to; a spawn and a message reach their ends.
Which group slot a group takes and how a gang reserves its clusters are the model's (logs 42, 66). -/
def Obligations.FrontEvents : Prop :=
  ∀ (s : State) (f : Nat),
    (∀ writer off w, f < 56 → off < 0x38 → off % 8 = 0 → ((s.fe f).held.any fun h => h.1 == writer) = false →
      exec (.streamPortWrite writer f off w) s = .next (s.setFe f { s.fe f with
        staging := tset (s.fe f).staging writer (tset (tgetD (s.fe f).staging writer []) (off / 8) w) })) ∧
    (∀ h rest, (s.fe f).held = h :: rest → (s.fe f).queue.length < 32 → exec (.streamPacketEnter f) s =
      .next (s.setFe f { s.fe f with queue := (s.fe f).queue ++ [h.2], held := rest })) ∧
    ((s.fe f).state = 3 → exec (.feGo f) s = .next (s.setFe f { s.fe f with state := 0 })) ∧
    (∀ spawned i p rest, (i, spawned) ∈ [(Instr.launchHeader f, false), (Instr.taskPacket f, true)] → f < 64 →
      (56 ≤ f ↔ spawned = true) → (s.fe f).state ≠ 3 → (s.fe f).cur = none → (s.fe f).queue = p :: rest →
      (spawned = false → bits (p.words.headD 0) 63 60 ≠ 3 ∧ bits (p.words.headD 0) 63 60 ≠ 4) →
      ∀ e, e = feUse s (packetDomain s f p) →
      (∀ code, refusalCode e p.words spawned (feDom e (packetDomain s f p)).system = some code →
        exec i s = .next (refusePacket e f code p)) ∧
      (refusalCode e p.words spawned (feDom e (packetDomain s f p)).system = none →
        (∀ r, tget (s.fe f).records ((s.fe f).serial % 256) = some r → r.state = 0) →
        ∀ id, id = f * 2 ^ 26 + (s.fe f).serial → ∀ r : TaskRec, r =
          { state := 1, id := id, dom := packetDomain s f p, cplt := p.words.getD 4 0
            spsize := bits (p.words.getD 5 0) 63 56, spbase := bits (p.words.getD 5 0) 55 12 } →
        exec i s = .next ((takePacket e f).modFe f fun x => { x with
          state := 1, lastid := id, serial := (x.serial + 1) % 2 ^ 26, cur := some p, work := .placing id 0 []
          records := tset x.records (x.serial % 256) r }))) ∧
    (∀ task i p c slot, (s.fe f).work = .placing task i [] → (s.fe f).cur = some p → hdrGang p.words ≤ hdrPlace p.words →
      (permitted (s.fe f) p).find? (fun c => decide (sizeOf p.words i + reservedIn s c ≤ clusterFree s c) &&
        (freeGroup s c).isSome) = some c → freeGroup s c = some slot →
      sizeOf p.words i ≤ (dealGroup s c (sizeOf p.words i) p.home false).length →
      (∀ k ∈ dealGroup s c (sizeOf p.words i) p.home false, ferryFirst s k = false) →
      ∀ e : Group, e =
          { level := bits (p.words.getD 0 0) 59 56, tickets := bits (p.words.getD 0 0) 55 40, place := hdrPlace p.words
            gangLv := hdrGang p.words, barrier := hdrBarrier p.words, base := bits (p.words.getD 0 0) 30 23
            task := task, live := sizeOf p.words i, opened := true } →
      ∀ u, u = (startRecord (placeThreads p (packetDomain s f p) task (slotGroup s c slot) false
          (dealGroup s c (sizeOf p.words i) p.home false) (i * 2 ^ sumTo p.words (hdrPlace p.words))
          { s with groups := tset s.groups (groupKey (slotGroup s c slot)) e }) task (sizeOf p.words i)).modFe f (fun x =>
        { x with ptr := if p.home.isNone then (c + 1) % 32 else x.ptr, work := .placing task (i + 1) [] }) →
      exec (.groupPlace f) s = .next (if groupCount p.words ≤ i + 1 then allPlaced u f task else u)) ∧
    (∀ p rest, f < 56 → (s.fe f).state ≠ 3 → (s.fe f).cur = none → (s.fe f).queue = p :: rest → semaphoreBad p.words = false →
      (bits (p.words.headD 0) 63 60 = 3 → exec (.semaphoreWait f) s = .next (readSemaphore ((takePacket s f).modFe f fun x =>
        { x with state := 2, cur := some p, work := .semaphore s.time s.time none }) f s.time p)) ∧
      (bits (p.words.headD 0) 63 60 = 4 → (s.fe f).work = .idle → ∀ u, u = (takePacket s f).modFe f (fun x =>
          { x with cur := some p, work := .signal none }) → exec (.semaphoreSignal f) s =
        .next (if bit (p.words.headD 0) 57 = true ∧ streamQuiet (s.fe f) = false then u else sendSignal u f p))) ∧
    (∀ p start last, (s.fe f).work = .semaphore start last none → (s.fe f).cur = some p → last + 256 ≤ s.time →
      exec (.semaphorePoll f) s = .next (readSemaphore s f start p)) ∧
    (∀ p start last r, (s.fe f).work = .semaphore start last r → (s.fe f).cur = some p →
      bits (p.words.headD 0) 35 16 ≠ 0 → start + 1024 * bits (p.words.headD 0) 35 16 ≤ s.time →
      exec (.semaphoreTimeout f) s = .next (stopStream s f 0x10 (p.words.getD 1 0))) ∧
    (∀ slot w, f < 64 → slot < 256 → exec (.taskRecordState f slot w) s = .next (recordStore s f slot w)) ∧
    (∀ pkt p, arriving s pkt = some p →
      (∀ task g e r, p.body = .exitReport task g → tget s.groups (groupKey g) = some e →
        ({ s.dropPacket pkt with groups := tset s.groups (groupKey g) { e with live := e.live - 1 } } : State).taskRec task =
          some r → exec (.exitReport pkt) s = .next (checkDone (State.setTaskRec { s.dropPacket pkt with
            groups := tset s.groups (groupKey g) { e with live := e.live - 1 } } { r with live := r.live - 1 }) task)) ∧
      (∀ ws operand h, p.body = .spawn ws operand (some h) → h < 1024 → epCore p.dst < 1028 →
        handledAt s (epCore p.dst) p = true → ∀ k, k = 56 + clusterOf h % 8 → ∀ e, e = s.dropPacket pkt →
        (e.fe k).queue.length < 32 → exec (.spawnArrive pkt) s = .next ((e.setFe k { e.fe k with queue := (e.fe k).queue ++
          [{ words := ws, dom := p.dom, src := p.src, operand := operand, home := some h }] }).countPacket p
            (epCore p.dst))) ∧
      (∀ task ws g urg, p.body = .message task ws g urg none → epCore p.dst < 1028 → handledAt s (epCore p.dst) p = true →
        exec (.messageDeliver pkt) s = .next (acknowledge (deliver ((s.dropPacket pkt).countPacket p (epCore p.dst)) task
          ⟨p.dst, word (ws.length * 2 ^ 59 + flagBit urg 58 + p.src), ws, g, 0, p.bad⟩ true) p none)))

/-- Steps of triggers, of the instruction store, and of stops and buoys (spec/14 R321-R323, spec/16). -/
def Obligations.TriggerAndStopEvents : Prop :=
  Claim.TriggerEvents ∧ Claim.StopEvents

/-- R411, R412, R413, R414, R415 (spec/20): an error that the hardware corrects is logged and changes nothing else; one
that it cannot correct poisons its word, or breaks its register; a scrub changes no value; a packet that the mesh has
lost is reported after its time; a vertical bus that gets worse enters the table; reading the log frees its oldest
record. The core and the die that a record names, and which payloads carry poison, are the model's (logs 50, 51). -/
def Obligations.RepairEvents : Prop :=
  ∀ (s : State),
    (∀ c w, c < 1028 → w < 2 ^ 19 →
      exec (.softError (.lstore c w) true) s = .next (logError s (dieOf c) 2 false c (s.ep c)) ∧
      ∀ u, u = s.modCore c (fun k => { k with poison := k.poison.filter (· != (0, w)) ++ [(0, w)] }) →
        exec (.softError (.lstore c w) false) s = .next (logError u (dieOf c) 2 true c (u.ep c))) ∧
    (∀ line, line < 2 ^ 34 → exec (.softError (.dram line) true) s = .next (logDram s false line) ∧
      ∀ bad, bad = s.dramBad.filter (fun w => w / 4 != line) ++ (List.range 4).map (fun i => 4 * line + i) →
        exec (.softError (.dram line) false) s = .next (logDram { s with dramBad := bad } true line)) ∧
    (∀ c slot r t, s.thread? c slot = some t → r < 10 → exec (.softError (.greg c slot r) false) s =
      .next (logError (s.setThread c slot { t with parity := .g r :: t.parity.filter (· != .g r) }) (dieOf c) 3 true c 0)) ∧
    (∀ line, line < 2 ^ 34 → exec (.dramScrub line) s = .next s) ∧
    (∀ pkt p, s.packet? pkt = some p → p.stage = .lost → p.since + 2 ^ 20 ≤ s.time →
      exec (.meshPacketTimeout pkt) s = .next (reportLoss (s.dropPacket pkt) p p.id 2)) ∧
    (∀ col state nbad, col < 128 → (tgetD s.vert col {}).state < state → state ≤ 2 → (tgetD s.vert col {}).nbad ≤ nbad →
      64 < nbad → nbad ≤ 1023 → exec (.verticalBusChange col state nbad 0) s = .next (linkEvent (logError
        { s with vert := tset s.vert col ⟨state, nbad, 0, ((tgetD s.vert col {}).nchg + 1) % 2 ^ 32⟩ }
        (Config.columnDie col % 4) 6 (state == 2) col 0) 4 (word col) (word state))) ∧
    (∀ die, die < 4 → (s.log die).recs ≠ [] → ∀ l : ErrLog, l =
        { s.log die with recs := (s.log die).recs.drop 1, head := (s.log die).head + 1 } →
      exec (.elogHeadRead die) s = .next { s with elog := tset s.elog die l })

/-- R379, R381, R382, R386, R388, R389, R390, R391 (spec/19): a port is enabled, retrained, trains, fails and loses its
lock; keys are staged; a slot carries the chosen flit under the counter of its key; a bad flit is discarded and counted,
a good one acknowledges and is taken in; a NAK is repeated and an unacknowledged flit is sent again after its time. The
words of link events and the byte order of flits are the model's (logs 36, 45). -/
def Obligations.LinkEvents : Prop :=
  ∀ (s : State) (p : Nat), p < 16 →
    ((s.port p).state = 0 → exec (.portEnable p) s = .next ((s.setPort p { s.port p with en := true }).modPort p fun x =>
      { x with state := 1, tries := 0, began := s.time, bad := 0 })) ∧
    exec (.portRetrain p) s = .next (s.modPort p fun x => { x with state := 1, tries := 0, began := s.time, bad := 0 }) ∧
    (∀ high w, exec (.txkeyStage p high w) s = .next (s.modPort p fun x =>
        { x with txnew := keyHalf x.txnew high w, txst := x.txst || high }) ∧
      exec (.rxkeyStage p high w) s = .next (s.modPort p fun x =>
        { x with rxnew := keyHalf x.rxnew high w, rxst := x.rxst || high
                 ctl := if high then x.ctl ++ [(word (3 * 2 ^ 56), 0)] else x.ctl })) ∧
    (∀ peer : TrainInfo, (s.port p).state = 1 → peer.lanes = 4 ∨ peer.lanes = 8 → ∀ y : Port, y = { s.port p with
        state := 2, lanes := if (s.port p).four then 4 else peer.lanes, peer := peer.cube, pport := peer.port
        pcls := peer.pcls, rxctr := peer.counter.toNat, resend := (s.port p).replay.map (·.seq), bad := 0 } →
      exec (.trainingComplete p peer) s =
        .next (if y.rxfirst && y.txfirst then portTo (s.setPort p y) p (if y.spent then 4 else 3) else s.setPort p y)) ∧
    ((s.port p).state = 1 → 3 ≤ (s.port p).tries ∨ (s.port p).began + 3000000 ≤ s.time →
      exec (.portFail p) s = .next (failPort s p)) ∧
    ((s.port p).state = 1 → exec (.linkLoss p) s = .next (s.setPort p { s.port p with tries := (s.port p).tries + 1 })) ∧
    ((s.port p).state = 2 ∨ (s.port p).state = 3 ∨ (s.port p).state = 4 →
      exec (.linkLoss p) s = .next (s.modPort p fun x => { x with state := 1, tries := 0, began := s.time, bad := 0 })) ∧
    ((s.port p).state = 2 ∨ (s.port p).state = 3 → ((s.port p).txst && (s.port p).prst) = false →
      (s.port p).spent = false → (s.port p).txctr ≠ 2 ^ 48 - 1 → ∀ kind f body x, chooseSlot (s.port p) s.time = (kind, f, body, x) →
      exec (.flitSlotTransmit p) s = .next (emit (s.setPort p x) p kind f body)) ∧
    (∀ f : Flit, 2 ≤ (s.port p).state → (s.port p).state ≠ 5 → f.body.length = 240 →
      ∀ e, e = s.setPort p { s.port p with rxctr := ((s.port p).rxctr + 1) % 2 ^ 48 } →
      (f.fec = false → exec (.flitReceive p f) s = .next (discardFlit e p)) ∧
      (f.fec = true → openFlit (e.port p) f (s.port p).rxctr = none → exec (.flitReceive p f) s = .next (discardFlit e p)) ∧
      (∀ body y, f.fec = true → openFlit (e.port p) f (s.port p).rxctr = some (body, y) → badHeader f.hdr = false →
        bits f.hdr 63 62 = 0 → ∀ z, z = acknowledged { y with bad := 0, needs := false } (bits f.hdr 47 36) (bits f.hdr 35 20) →
        z.rxfirst = true → ∀ z1, z1 = takeData z ⟨bits f.hdr 59 48, bits f.hdr 61 60, bits f.hdr 18 14, body, 0⟩ s.time →
        z1.state = 3 → exec (.flitReceive p f) s = .next (e.setPort p z1))) ∧
    (∀ n, (s.port p).nakAt = some n → (s.port p).held ≠ [] → n + 1024 ≤ s.time → exec (.nakTimer p) s =
      .next (s.setPort p { s.port p with ctl := (s.port p).ctl ++ nakEntries (s.port p), nakAt := some s.time })) ∧
    (∀ n f, (s.port p).replay.find? (fun g => g.seq == n) = some f → (s.port p).needs = false → n ∉ (s.port p).resend →
      f.sent + 2048 ≤ s.time →
      exec (.replayTimeout p n) s = .next (s.setPort p { s.port p with resend := (s.port p).resend ++ [n] }))

/-- R395, R396, R398, R401, R402, R406 (spec/19), R419, R421 (spec/20): a packet in transit goes on with one hop more,
one for this cube is accepted; an adaptive packet takes the ordered route after 256 cycles; a receipt frees its entry
and an abandonment marks it; a packet without receipt is lost after four sends; records and the forwarding window end; a
home answers a query and, where it has not performed the message, notes its identifier so as to refuse a late copy; two
siblings of a reduce tree are combined. That receipts are not retried and what opens the
forwarding window are the model's readings (logs 44, 47). -/
def Obligations.FabricEvents : Prop :=
  ∀ (s : State),
    (∀ port l rest e, port < 16 → (s.port port).inq = l :: rest →
      e = (s.modPort port fun x => { x with inq := rest }) → l.malformed = false → l.ord ≠ 2 →
      (∀ q vc, l.dcube ≠ e.physical → l.hops < 30 →
        leaveBy e l.dcube l.ord l.ucls l.vc (l.since + 256 ≤ e.time) false = .by' q vc → (e.port q).state ≠ 5 →
        exec (.linkPacketArrive port) s = .next (enqueue e q (l.moved vc (l.hops + 1)))) ∧
      (l.dcube = e.physical → e.forward = none → l.typ < 10 →
        exec (.linkPacketArrive port) s = .next (acceptLink e port l))) ∧
    (∀ pkt p d q vc, s.packet? pkt = some p → p.stage = .gateway → p.ordered = false → p.since + 256 ≤ s.time →
      epCube p.dst ≠ treeUp → epCube p.dst ≠ treeDown → s.alias? (epCube p.dst) = (true, 0, d) → d ≠ s.physical →
      leaveBy s d 1 p.urg 0 true true = .by' q vc → classBarred s q p = false → ∀ e, e = s.dropPacket p.id →
      storeRoom (e.port q) = true → (e.port q).state ≠ 5 → ∀ l, l = linkOf e q p d 1 vc 0 →
      exec (.adaptiveFallback pkt) s = .next (enqueue (e.setPort q { e.port q with
        pid := ((e.port q).pid + 1) % 2 ^ 32
        store := (e.port q).store ++ [{ pid := (e.port q).pid, pkt := p, link := l, sent := e.time }] }) q l)) ∧
    (∀ pkt p port pid r, atGateway s pkt = some p → findRetry (s.dropPacket pkt) port pid = some r → r.query = false →
      (p.body = .receipt port pid → expectsReply r.pkt = false →
        exec (.receiptReceive pkt) s = .next (dropRetry (s.dropPacket pkt) port pid)) ∧
      (p.body = .receipt port pid → expectsReply r.pkt = true → exec (.receiptReceive pkt) s =
        .next (modRetry (s.dropPacket pkt) port pid fun r =>
          { r with query := true, away := false, sends := 0, sent := (s.dropPacket pkt).time })) ∧
      (p.body = .abandon port pid → exec (.abandonNotice pkt) s =
        .next (modRetry (s.dropPacket pkt) port pid fun r => if r.query then r else { r with away := true }))) ∧
    (∀ port pid r, findRetry s port pid = some r → r.query = false → r.away = true ∨ r.sent + 2 ^ 20 ≤ s.time →
      retryFirst (s.port port) r = true → 4 ≤ r.sends →
      exec (.retryTimeout port pid) s = .next (reportLoss (dropRetry s port pid) r.pkt pid 2)) ∧
    (∀ n e, s.pids[n]? = some e → e.2.2.2 + 2 ^ 22 ≤ s.time →
      exec (.pidRecordExpire n) s = .next { s with pids := s.pids.eraseIdx n }) ∧
    (∀ k n, k < 1024 → s.forward = some (k, n) → n + 2 ^ 22 ≤ s.time →
      exec (.forwardWindowExpire k) s = .next { s with forward := some (1024, n) }) ∧
    (∀ pkt p src slot uid seq port pid, s.packet? pkt = some p → p.body = .homeQuery src slot uid seq port pid →
      p.stage = .home → epCube p.dst = s.logical → ∀ e, e = s.dropPacket pkt →
      ∀ mine : DoneId → Bool, mine = (fun d => d.src == src && d.slot == slot && d.uid == uid && d.seq == seq) →
      ((s.cores.any fun k => k.2.done.any fun d => mine d && d.performed) = true → exec (.homeQuery pkt) s =
        .next (e.send { directPacket e p.dst p.src 2 0 0 (.homeReply port pid true) with ordered := false })) ∧
      ((s.cores.any fun k => k.2.done.any fun d => mine d && d.performed) = false → epCore p.dst < 1028 →
        ∀ u, u = e.modCore (epCore p.dst) (fun k =>
          { k with done := (⟨src, slot, uid, seq, false⟩ :: k.done.filter fun d => !mine d).take 512 }) →
        exec (.homeQuery pkt) s =
          .next (u.send { directPacket u p.dst p.src 2 0 0 (.homeReply port pid false) with ordered := false }))) ∧
    (∀ n b x y, n < 64 → bit (s.treeWord n 0) 63 = true → bits (s.treeWord n 0) 62 61 = 0 →
      nextPair (s.combine n b).parts = some (x, y) → exec (.tensorCombine n b) s = .next (s.setCombine { s.combine n b with
        parts := ((s.combine n b).parts.erase x).erase y ++ [widen (treeLast s n) 7 (combineTwo s x y)] }))

/-- R4 (spec/00), R434, R436, R437, R438, R439 (spec/21): the commander reads and writes words while its link is up; the
link goes down, which hands every function back to the hardware, and comes up; an attestation is asked for and reported;
power is lost; a cold reset boots from the slot that passes the checks, or waits for the commander. The fields of what
the port logs, the layout of an image and the state before boot are the model's (logs 3, 13, 53, 54). -/
def Obligations.BootEvents : Prop :=
  ∀ (s : State) (d x : Word),
    (s.ucieUp = true → bits d 63 60 = 1 → bits d 47 42 = 0 → 0x3FC00000000 ≤ bits d 41 0 → bits d 41 0 % 8 = 0 →
      ∀ o, o = bits d 41 0 - 0x3FC00000000 → o / 0x100000 ≠ 7 → ∀ v, configLoad s true o = some v →
      exec (.ucieRead d) s = .next { s with ucieOut := s.ucieOut ++
        [(word (3 * 2 ^ 60 + bits d 59 48 * 2 ^ 48 + bits d 41 0), [v])] }) ∧
    (s.ucieUp = true → bits d 63 60 = 2 → bits d 47 42 = 0 → 0x3FC00000000 ≤ bits d 41 0 → bits d 41 0 % 8 = 0 →
      ∀ o, o = bits d 41 0 - 0x3FC00000000 →
      (∀ u, configStore s commander o x = .ok u → exec (.ucieWrite d x) s = .next u) ∧
      (configStore s commander o x = .fail → exec (.ucieWrite d x) s = .next (logError s 0 5 false 1024 (bits d 41 0)))) ∧
    (s.ucieUp = true → bits s.splitc 6 0 = 0x7F →
      exec .ucieLinkDown s = .next { s with ucieUp := false, splitc := 0x7F }) ∧
    (s.on = true → s.ucieUp = false → exec .ucieLinkUp s = .next { s with ucieUp := true }) ∧
    (s.firm.busy = false → exec .attestRequest s = .next { s with firm := { s.firm with busy := true } }) ∧
    (s.firm.busy = true → exec .attestReport s = .next { s.tick with firm := { s.firm with
      report := attestation s (bootSlot.getD 0), status := 1, busy := false } }) ∧
    (s.on = true → exec .powerLoss s = .next { s with on := false }) ∧
    (∀ e, e = { State.reset with agenda := s.agenda, freeCtr := s.freeCtr, nextId := s.nextId } →
      (∀ n, bootSlot = some n → exec .coldReset s =
        .next { e with cores := stewardCores n, vert := s.vert.map fun v => (v.1, { v.2 with nchg := 0 }) }) ∧
      (bootSlot = none → exec .coldReset s = .next { e with ready := false, recovery := true, keys := [] }))

/-! ### Every event completes -/

/-- The step has its effect: it answers a next state. -/
def Happens (i : Instr) (s : State) : Prop := ∃ u, exec i s = .next u

/-- The same of the events of a thread: pushes and pops of its ports, the ends of its waits, ferries and barriers
(spec/01 R27, R35; spec/05 R122; spec/06 R144-R154, R176, R178, R182; spec/07 R202-R206, R215; spec/08 R238-R245, R253). -/
def Claim.ThreadEventsComplete : Prop :=
  ∀ (s : State) (core slot pkt : Nat) (w : Word) (t : Thread) (p : Packet) (b : BarName), s.thread? core slot = some t →
    (t.isReady = true → t.half = none → Happens (.matrixWord0Push core slot w) s) ∧
    (∀ e ∈ matrixKinds, ∀ w0, t.isReady = true → t.half = some w0 → bits w0 63 60 = e.2 →
      (s.core core).slice.order.length < 16 → t.out0 < 16 → Happens (e.1 core slot w) s) ∧
    (t.isReady = true → (s.core core).copies.length < 32 → t.out1 < 16 → Happens (.copyDescriptorPush core slot w) s) ∧
    (∀ d, t.isReady = true →
      (t.q0 ≠ [] → Happens (.queuePortPop core slot 12 d) s) ∧ (t.q1 ≠ [] → Happens (.queuePortPop core slot 13 d) s) ∧
      ((popPort s core slot 2).isSome = true → Happens (.queuePortPop core slot 14 d) s) ∧
      (∀ v id rest, t.q3 = (id, some v) :: rest → Happens (.queuePortPop core slot 15 d) s)) ∧
    (∀ wt since, t.status = .blocked wt since → t.stops = [] → canProceed s core slot t wt = true →
      Happens (.blockRelease core slot) s) ∧
    (∀ n r since rest, t.status = .blocked (.lease n r) since → t.stops = [] → (s.core core).leaseq = slot :: rest →
      leaseRoom (s.core core) n = true → Happens (.leaseGrant core) s) ∧
    (t.status ≠ .exiting → (∃ q ∈ t.pend, q.writes.isSome = true) → Happens (.resultReturn core slot) s) ∧
    (∀ x, t.status = .trapWait x → t.allKnown = true → Happens (.trapEntry core slot) s) ∧
    (∀ a kind since r d ea, t.status = .sleeping a kind since r d ea → (s.core core).fewlim ≠ 0 →
      since + (s.core core).fewlim.toNat < (s.core core).cyc → Happens (.feSleepExpire core slot) s) ∧
    (∀ g mb e r since, t.status = .blocked (.mailbox g mb e r) since → (s.core core).mwlim ≠ 0 →
      since + (s.core core).mwlim.toNat < (s.core core).cyc → mailReached (s.core core) g mb e = false →
      Happens (.mwaitTimeout core slot) s) ∧
    (∀ id, expiredStfe (s.core core) = some id → s.packet? id = some p → Happens (.stfeQueueExpire core) s) ∧
    (∀ ticket v, (t.q3.find? fun e => e.2.isNone).map (·.1) = some ticket →
      (s.net.find? fun q => q.uid == t.uid && (match q.body with | .reply r _ _ => r == ticket | _ => false)) = some p →
      arriving s p.id = some p → p.body = .reply ticket v none → p.bad = [] → Happens (.bdotqResultDeliver core slot) s) ∧
    (∀ kind addr urg write, t.status = .departing kind addr urg write →
      t.stops = [] → t.pend = [] → t.out0 = t.q0.length → t.out1 = t.q1.length → (∀ e ∈ t.q3, e.2.isSome = true) →
      t.sends = [] → t.beats = [] → bit t.frec 63 = false → Happens (.ferryDepart core slot) s) ∧
    (∀ f, arriving s pkt = some p → p.body = .ferry f → epCore p.dst < 1028 →
      (s.core (epCore p.dst)).sealed = true ∨ claimedBy s (epCore p.dst) p = none →
      (s.core (epCore p.dst)).inbox.length < 8 → (s.core (epCore p.dst)).spill = [] → Happens (.ferryArrive pkt) s) ∧
    (∀ c f i, nextFerry (s.core c) = some pkt → freeSlot (s.core c) = some i → s.packet? pkt = some p → p.body = .ferry f →
      f.kind ≠ 2 → (s.core c).sealed = false → claimedBy s c p = none → mayAdmit s c = true → Happens (.ferryAdmit c) s) ∧
    (atUnit s pkt = some p →
      (∀ fl drop, p.body = .barArrive b fl drop → (s.bar b).e ≠ 0 → Happens (.barrierUnitArrival pkt) s) ∧
      (∀ n, p.body = .barInit b n → (s.bar b).a = 0 → (s.bar b).d = 0 → Happens (.barrierUnitInit pkt) s) ∧
      (∀ low short ph, p.body = .barQuery b low short → ph = (if short then wholePhase (s.bar b).phase low else low) →
        ((s.bar b).history.find? fun h => h.1 == ph).isSome = true → Happens (.barrierQuery pkt) s)) ∧
    (arriving s pkt = some p →
      (∀ ref n r, p.body = .barAnswer b ref (some n) none → awaiter (s.dropPacket pkt) p.uid ref = some (core, slot, t, r) →
        t.rs = false → Happens (.barrierAnswer pkt) s) ∧
      (∀ n fa, p.body = .barRelease b n fa → epCore p.dst < 1028 → Happens (.barrierReleaseDeliver pkt) s)) ∧
    (∀ a n, t.arrival = some a → a.retry = some n → a.released = false → n + 1024 ≤ (s.core core).cyc →
      Happens (.barrierQueryRetry core slot) s)

/-- The same of the events of memory, copies, streams, bank-dot and the matrix engine (spec/06 R147-R185, spec/07 R196, R200,
R201, spec/15 R338, spec/09 R267, R280). -/
def Claim.EngineEventsComplete : Prop :=
  ∀ (s : State) (core id pkt : Nat) (p : Packet) (a : Access),
    (s.packet? pkt = some p → p.stage = .slice → eaCube p.addr = s.logical → clearSlice s p = true → p.isRow = false →
      bits p.addr 63 56 = 0 → regionOf (eaOff p.addr) = .dram → ∀ e, e = s.useSpace (2000 + sliceOf p.addr) p.dom →
      bit (e.spaceAt (2000 + sliceOf p.addr) p.dom).w0 63 = true →
      heldLeaf e (sliceOf p.addr) p.dom (eaOff p.addr) = none → walksAt e (sliceOf p.addr) < 32 →
      Happens (.sliceTranslate pkt) s) ∧
    (∀ level table n r, s.packet? pkt = some p → p.stage = .walk level table →
      r = homeReadLine s (spreadHome s 15 (table + 16 * walkIndex (eaOff p.addr) level))
        ((table + 16 * walkIndex (eaOff p.addr) level) / 32) 0 false →
      entryKind level (word (lineBytes r.1.1 ((table + 16 * walkIndex (eaOff p.addr) level) % 32) 8))
        (word (lineBytes r.1.1 ((table + 16 * walkIndex (eaOff p.addr) level) % 32 + 8) 8)) = .table n →
      Happens (.tableWalkRead pkt) s) ∧
    (arriving s pkt = some p → p.body = .access a → epCore p.dst < 1028 → handledAt s (epCore p.dst) p = true →
      behindHeld (heldAt s p.dst) p = false → heldByPort s p = false → p.bad = [] → ∀ e, e = s.useSpace (epCore p.dst) p.dom →
      keptId s (epCore p.dst) p = none → messageCheck e (epCore p.dst) p a = none →
      homeLocked e (epCore p.dst) a p.addr p.xl = false →
      (∀ u old, a.op ≠ .stfe → a.op ≠ .stff → a.op ≠ .feclr → (∀ o, regionOf (eaOff p.addr) ≠ .config o) →
        homePerform e (epCore p.dst) a p.addr p.xl = .ok (old, u) → Happens (.messagePerform pkt) s) ∧
      (∀ c o, a.op = .stfe → regionOf (eaOff p.addr) = .lstore c o → Happens (.stfeArrive pkt) s)) ∧
    (∀ rest u old, heldAt s (s.ep core) = p :: rest → handledAt s core p = true → p.body = .access a →
      heldByPort s p = false → keptId s core p = none → homeLocked s core a p.addr p.xl = false →
      messageCheck s core p a = none → a.op ≠ .stfe → a.op ≠ .stff → a.op ≠ .feclr → p.bad = [] →
      (∀ o, regionOf (eaOff p.addr) ≠ .config o) → homePerform s core a p.addr p.xl = .ok (old, u) →
      Happens (.heldMessagesRelease core) s) ∧
    (∀ ref fail c slot t, arriving s pkt = some p → epCore p.dst < 1028 → p.body = .ack ref fail →
      awaiter (s.dropPacket pkt) p.uid ref = none → (s.dropPacket pkt).where? p.uid = some (c, slot) →
      s.thread? c slot = some t → Happens (.ackReceive pkt) s) ∧
    (∀ g q, arriving s pkt = some p → epCore p.dst < 1028 → handledAt s (epCore p.dst) p = true →
      (∀ r u, p.body = .engineRead g q →
        readPiece (s.useSpace (epCore p.dst) p.dom) (epCore p.dst) p g q.len = some (.ok (r, u)) →
        Happens (.engineRead pkt) s) ∧
      (∀ c o data bad, p.body = .landed g q data bad → regionOf (eaOff p.addr) = .lstore c o →
        p.key = (s.core (epCore p.dst)).owner → g.count = false →
        engineConflict (s.core (epCore p.dst)) (freeOwner s g) true [⟨0, o, q.len⟩] = false →
        Happens (.landedPacket pkt) s)) ∧
    (∀ op, s.copyOp? core id = some op → core ≠ slicePort →
      (∀ v ls, op.phase = .register → chunkLocks s core id op = (.ok ls, v) → nextHome ls op.homes = none →
        Happens (.rangeLockRegister core id) s) ∧
      (op.phase = .done 0 → (∀ q ∈ op.flying, q ∈ op.stuck) → op.kind ≤ 3 → Happens (.copyComplete core id) s) ∧
      (op.phase = .done 0 → 3 < op.kind → mailRoom (s.core core) op.group = true → Happens (.rowCommandComplete core id) s) ∧
      (∀ cause detail addr entry, op.phase = .faulted cause detail addr entry false → Happens (.copyFault core id) s) ∧
      (∀ cause detail addr entry, op.phase = .faulted cause detail addr entry true →
        (op.flying = [] → Happens (.copyResume core id) s) ∧ Happens (.copyAbandon core id) s) ∧
      (∀ v dst, op.kind = 5 → op.phase = .moving → op.flying = [] →
        rowLines core op.dom op.priv op.dst true (List.range 64) s = (.ok dst, v) → Happens (.rowCommandPerform core id) s)) ∧
    (∀ slot v t l st ps u ls, s.thread? core slot = some t → t.lease = some l → tget l.streams v = some st →
      nextStrip st = some ps → pieceLocks (.stream st.op) st.dom st.priv core true false ps [] s = (.ok ls, u) →
      nextHome ls st.homes = none → Happens (.streamStripFetch core slot v) s) ∧
    (∀ q0 q e u ls, nextSink s core [] (s.core core).sinkq = some q0 → beginSink s core q0 = (q, e) →
      pieceLocks (.stream q.id) q.dom q.priv core false true (stripPieces q.addr) [] e = (.ok ls, u) →
      nextHome ls q.homes = none → Happens (.streamStripWrite core) s) ∧
    (∀ cfg vec ticket n bad x, s.packet? pkt = some p → p.stage = .queued → p.body = .bdot cfg vec ticket n bad →
      p.xl = some x → bad = false → p.bad = [] → failedColumn s x.pa = false →
      (∀ r ∈ bdReads cfg x.pa, bdPoison s x r.1 = false) → Happens (.bankDotPerform pkt) s) ∧
    (∀ m rest, (s.core core).slice.order = m :: rest →
      (∀ mode, m.kind = .mcfg mode → core < 1024 → cmdStopped s core m = false → Happens (.arrayModeChange core) s) ∧
      (∀ k, m.kind = .words → cmdKind m.w0 = 1 → core < 1024 → m.phase = .queued → joins m = false →
        cmdStopped s core m = false → computeErr (s.core core) m = none → registerLock (s.core core)
          ⟨.matrix core, false, (computeSpans m.w0 m.w1).1 ++ (computeSpans m.w0 m.w1).2, []⟩ = some k → m.kdone < cmdNkb m.w0 →
        Happens (.matrixCommandStart core) s) ∧
      (core < 1024 → m.phase = .queued → joins m = true → m.arrived = none → cmdStopped s core m = false →
        Happens (.gangJoin core) s) ∧
      (∀ since, m.arrived = some since → m.phase = .queued → (s.core core).mglim ≠ 0 → cmdStopped s core m = false →
        gangPresent s core m = false → since + (s.core core).mglim.toNat < (s.core core).cyc → Happens (.gangTimeout core) s) ∧
      (m.phase = .running → m.gang = none → m.split = false → cmdFolio m.w0 = false →
        kblockPoison (s.core core) m (stepBlocks m) = false → Happens (.matrixKblock core) s) ∧
      (m.phase = .running → m.split = true → (s.core core).slice.bka = none → Happens (.matrixSplit core) s) ∧
      (∀ code, m.phase = .finished code → Happens (.matrixStatusPost core) s)) ∧
    (∀ x f, (s.core core).slice.sub = some x → tget s.folios (x.quire * 8 + x.slot) = some f →
      ((headCmd s core).any fun m => m.phase == .running && cmdPacked m.w0) = false → x.held.length < x.window →
      x.pos + x.held.length < f.nb → Happens (.folioDeliver core) s) ∧
    (∀ quire slot f, tget s.folios (quire * 8 + slot) = some f → f.closed = true →
      (∀ c ∈ s.cores, ∀ x, c.2.slice.sub = some x → ¬ (x.quire = quire ∧ x.slot = slot)) →
      Happens (.folioFree quire slot) s)

/-- The same of the front ends, triggers, stops, buoys and the stores to control and configuration (spec/14, spec/16, spec/07
R221, R225, spec/15 R325, spec/19 R397, R399, R403, spec/20 R417, R420, R422, spec/21 R431, R432). -/
def Claim.ControlEventsComplete : Prop :=
  ∀ (s : State) (f pkt core slot : Nat) (p : Packet) (g : BitVec 30) (w : Word),
    (∀ writer off, f < 56 → off < 0x38 → off % 8 = 0 → ((s.fe f).held.any fun h => h.1 == writer) = false →
      Happens (.streamPortWrite writer f off w) s) ∧
    ((s.fe f).held ≠ [] → (s.fe f).queue.length < 32 → Happens (.streamPacketEnter f) s) ∧
    ((s.fe f).state = 3 → Happens (.feGo f) s) ∧
    (∀ spawned i q rest, (i, spawned) ∈ [(Instr.launchHeader f, false), (Instr.taskPacket f, true)] → f < 64 →
      (56 ≤ f ↔ spawned = true) → (s.fe f).state ≠ 3 → (s.fe f).cur = none → (s.fe f).queue = q :: rest →
      (spawned = false → bits (q.words.headD 0) 63 60 ≠ 3 ∧ bits (q.words.headD 0) 63 60 ≠ 4) →
      ∀ e, e = feUse s (packetDomain s f q) →
      refusalCode e q.words spawned (feDom e (packetDomain s f q)).system = none →
      (∀ r, tget (s.fe f).records ((s.fe f).serial % 256) = some r → r.state = 0) → Happens i s) ∧
    (∀ task i q c k, (s.fe f).work = .placing task i [] → (s.fe f).cur = some q → hdrGang q.words ≤ hdrPlace q.words →
      (permitted (s.fe f) q).find? (fun c => decide (sizeOf q.words i + reservedIn s c ≤ clusterFree s c) &&
        (freeGroup s c).isSome) = some c → freeGroup s c = some k →
      sizeOf q.words i ≤ (dealGroup s c (sizeOf q.words i) q.home false).length →
      (∀ x ∈ dealGroup s c (sizeOf q.words i) q.home false, ferryFirst s x = false) → Happens (.groupPlace f) s) ∧
    (∀ q rest, f < 56 → (s.fe f).state ≠ 3 → (s.fe f).cur = none → (s.fe f).queue = q :: rest → semaphoreBad q.words = false →
      (bits (q.words.headD 0) 63 60 = 3 → Happens (.semaphoreWait f) s) ∧
      (bits (q.words.headD 0) 63 60 = 4 → (s.fe f).work = .idle → Happens (.semaphoreSignal f) s)) ∧
    (∀ q start last, (s.fe f).work = .semaphore start last none → (s.fe f).cur = some q → last + 256 ≤ s.time →
      Happens (.semaphorePoll f) s) ∧
    (∀ q start last r, (s.fe f).work = .semaphore start last r → (s.fe f).cur = some q →
      bits (q.words.headD 0) 35 16 ≠ 0 → start + 1024 * bits (q.words.headD 0) 35 16 ≤ s.time →
      Happens (.semaphoreTimeout f) s) ∧
    (f < 64 → slot < 256 → Happens (.taskRecordState f slot w) s) ∧
    (arriving s pkt = some p →
      (∀ task gr e r, p.body = .exitReport task gr → tget s.groups (groupKey gr) = some e →
        ({ s.dropPacket pkt with groups := tset s.groups (groupKey gr) { e with live := e.live - 1 } } : State).taskRec task =
          some r → Happens (.exitReport pkt) s) ∧
      (∀ ws operand h, p.body = .spawn ws operand (some h) → h < 1024 → epCore p.dst < 1028 →
        handledAt s (epCore p.dst) p = true → ((s.dropPacket pkt).fe (56 + clusterOf h % 8)).queue.length < 32 →
        Happens (.spawnArrive pkt) s) ∧
      (∀ task ws gr urg, p.body = .message task ws gr urg none → epCore p.dst < 1028 → handledAt s (epCore p.dst) p = true →
        Happens (.messageDeliver pkt) s)) ∧
    (∀ n, n < 256 → Happens (.triggerOvfClear n) s) ∧
    (arriving s pkt = some p → epCore p.dst < 1028 →
      (∀ n d, p.body = .tpost n d → handledAt s (epCore p.dst) p = true →
        (((s.dropPacket pkt).countPacket p (epCore p.dst)).trigger n).state = 1 → Happens (.triggerPost pkt) s) ∧
      (∀ n ws, p.body = .tbind n (some ws) → s.packet? pkt = some p → p.stage ≠ .queued → (s.trigger n).state = 0 →
        Happens (.triggerBind pkt) s) ∧
      (∀ off x, p.body = .istw off x → Happens (.istwPerform pkt) s) ∧
      (p.body = .start none → Happens (.startPerform pkt) s)) ∧
    (core < 1024 → slot < 64 → Happens (.threadStop core slot) s ∧ Happens (.threadRelease core slot) s) ∧
    (core < 1024 → Happens (.quireStop core) s ∧ Happens (.quireRelease core) s ∧ Happens (.coreStop core) s ∧
      Happens (.coreRelease core) s) ∧
    ((stopGroup s (groupOf30 g.toNat)).isSome = true → Happens (.groupStop g) s) ∧ Happens (.groupRelease g) s ∧
    (∀ part stop, (s.net.find? fun p => epCore p.dst == barrierPort && (match p.body with
        | .haltReq q t => q == part && t == stop | _ => false) && (arriving s p.id).isSome) = some p →
      Happens (.haltTreeDeliver part stop) s) ∧
    (∀ a n b, s.packet? pkt = some p → p.body = .access a → standsAt s p = true → (s.core (epCore p.dst)).sealed = false →
      firstClaimed s (epCore p.dst) p = true → claimedBy s (epCore p.dst) p = some (n, b) → Happens (.buoyForward pkt) s) ∧
    (∀ v t key, arriving s pkt = some p → p.body = .relocNotice v t key → epCore p.dst < 1028 →
      ((s.core (epCore p.dst)).redirects.filter fun r => !(r.v == v && r.key == key)).length < 16 →
      Happens (.relocationNotice pkt) s) ∧
    (∀ v cls key, arriving s pkt = some p → p.body = .relocFence v cls key → p.dst ≠ v →
      Happens (.relocationFenceAck pkt) s) ∧
    (∀ b, core < 1024 → tget (s.core core).buoys slot = some b → bit s.splitc 3 = true →
      b.last + 16777216 ≤ (s.core core).cyc → Happens (.buoyRetire core slot) s) ∧
    (core < 1028 → bits w 63 44 = 0 → bits w 31 22 = 0 → bits w 5 0 = 0 → Happens (.dtabWrite core w) s) ∧
    ((s.thread? core slot).isSome = true → Happens (.frecClear core slot) s) ∧
    (core < 1028 → Happens (.mberrClear core g w) s) ∧ Happens (.splitcWrite w) s ∧
    (∀ k, k < 15360 → Happens (.aliasEntryWrite k w) s ∧ ((s.alias? k).2.1 ≠ 2 → Happens (.aliasMarkLost k) s)) ∧
    (∀ k a, (s.net.find? fun q => q.stage == .queued && eaOff q.addr == 0x3FC00500000 + 8 * k && drained s k) = some p →
      p.body = .access a → Happens (.aliasDrain k) s) ∧
    (∀ d, d < 1024 → Happens (.routeEntryWrite d w) s) ∧
    (∀ d r, (s.reroute.find? fun x => x.dest == d) = some r → oldRouteBusy s d (bits r.old 62 59) = false →
      Happens (.routeSwitch d) s) ∧
    (∀ i, i < 1920 → Happens (.pathClassWrite i w) s) ∧
    (core < 1028 → bits w 63 62 = 1 → bits w 61 60 ≠ 3 → bits w 59 23 = 0 →
      bits w 22 0 * 2 ^ 16 % 2 ^ frameBits (bits w 61 60) = 0 → Happens (.hcDropFrame core w) s) ∧
    (core < 1028 → Happens (.hcDropAll core) s) ∧ Happens (.logicalNumberWrite w) s ∧
    (∀ writer off, off < 2 ^ 34 → off % 8 = 0 → off / 0x100000 = 4 → off % 0x100000 < 0x20000 →
      Happens (.configWordWrite writer off w) s)

/-- The same of links, the fabric, the repair of errors and the boot (spec/19, spec/20, spec/21). -/
def Claim.FabricEventsComplete : Prop :=
  ∀ (s : State) (n pkt port pid : Nat) (p : Packet) (w x : Word),
    (n < 16 → ((s.port n).state = 0 → Happens (.portEnable n) s) ∧ Happens (.portRetrain n) s ∧
      (∀ high, Happens (.txkeyStage n high w) s ∧ Happens (.rxkeyStage n high w) s) ∧
      (∀ peer : TrainInfo, (s.port n).state = 1 → peer.lanes = 4 ∨ peer.lanes = 8 → Happens (.trainingComplete n peer) s) ∧
      ((s.port n).state = 1 → 3 ≤ (s.port n).tries ∨ (s.port n).began + 3000000 ≤ s.time → Happens (.portFail n) s) ∧
      ((s.port n).state = 1 ∨ (s.port n).state = 2 ∨ (s.port n).state = 3 ∨ (s.port n).state = 4 → Happens (.linkLoss n) s) ∧
      ((s.port n).state = 2 ∨ (s.port n).state = 3 → ((s.port n).txst && (s.port n).prst) = false →
        (s.port n).spent = false → (s.port n).txctr ≠ 2 ^ 48 - 1 → Happens (.flitSlotTransmit n) s) ∧
      (∀ f : Flit, 2 ≤ (s.port n).state → (s.port n).state ≠ 5 → f.body.length = 240 → f.fec = false →
        Happens (.flitReceive n f) s) ∧
      (∀ k, (s.port n).nakAt = some k → (s.port n).held ≠ [] → k + 1024 ≤ s.time → Happens (.nakTimer n) s) ∧
      (∀ k f, (s.port n).replay.find? (fun g => g.seq == k) = some f → (s.port n).needs = false → k ∉ (s.port n).resend →
        f.sent + 2048 ≤ s.time → Happens (.replayTimeout n k) s)) ∧
    (∀ l rest, port < 16 → (s.port port).inq = l :: rest → l.malformed = false → l.ord ≠ 2 → l.dcube = s.physical →
      s.forward = none → l.typ < 10 → Happens (.linkPacketArrive port) s) ∧
    (∀ d q vc, s.packet? pkt = some p → p.stage = .gateway → p.ordered = false → p.since + 256 ≤ s.time →
      epCube p.dst ≠ treeUp → epCube p.dst ≠ treeDown → s.alias? (epCube p.dst) = (true, 0, d) → d ≠ s.physical →
      leaveBy s d 1 p.urg 0 true true = .by' q vc → classBarred s q p = false → storeRoom ((s.dropPacket p.id).port q) = true →
      ((s.dropPacket p.id).port q).state ≠ 5 → Happens (.adaptiveFallback pkt) s) ∧
    (∀ r, atGateway s pkt = some p → findRetry (s.dropPacket pkt) port pid = some r → r.query = false →
      (p.body = .receipt port pid → Happens (.receiptReceive pkt) s) ∧
      (p.body = .abandon port pid → Happens (.abandonNotice pkt) s)) ∧
    (∀ r, findRetry s port pid = some r → r.query = false → r.away = true ∨ r.sent + 2 ^ 20 ≤ s.time →
      retryFirst (s.port port) r = true → 4 ≤ r.sends → Happens (.retryTimeout port pid) s) ∧
    (∀ e, s.pids[n]? = some e → e.2.2.2 + 2 ^ 22 ≤ s.time → Happens (.pidRecordExpire n) s) ∧
    (∀ k at', k < 1024 → s.forward = some (k, at') → at' + 2 ^ 22 ≤ s.time → Happens (.forwardWindowExpire k) s) ∧
    (∀ src slot uid seq, s.packet? pkt = some p → p.body = .homeQuery src slot uid seq port pid → p.stage = .home →
      epCube p.dst = s.logical → epCore p.dst < 1028 → Happens (.homeQuery pkt) s) ∧
    (∀ b x y, n < 64 → bit (s.treeWord n 0) 63 = true → bits (s.treeWord n 0) 62 61 = 0 →
      nextPair (s.combine n b).parts = some (x, y) → Happens (.tensorCombine n b) s) ∧
    (∀ c k, c < 1028 → k < 2 ^ 19 → Happens (.softError (.lstore c k) true) s ∧ Happens (.softError (.lstore c k) false) s) ∧
    (n < 2 ^ 34 → Happens (.dramScrub n) s) ∧
    (s.packet? pkt = some p → p.stage = .lost → p.since + 2 ^ 20 ≤ s.time → Happens (.meshPacketTimeout pkt) s) ∧
    (∀ state nbad, n < 128 → (tgetD s.vert n {}).state < state → state ≤ 2 → (tgetD s.vert n {}).nbad ≤ nbad →
      64 < nbad → nbad ≤ 1023 → Happens (.verticalBusChange n state nbad 0) s) ∧
    (n < 4 → (s.log n).recs ≠ [] → Happens (.elogHeadRead n) s) ∧
    (s.ucieUp = true → bits w 47 42 = 0 → 0x3FC00000000 ≤ bits w 41 0 → bits w 41 0 % 8 = 0 →
      ∀ o, o = bits w 41 0 - 0x3FC00000000 →
      (bits w 63 60 = 1 → o / 0x100000 ≠ 7 → (configLoad s true o).isSome = true → Happens (.ucieRead w) s) ∧
      (∀ u, bits w 63 60 = 2 → configStore s commander o x = .ok u → Happens (.ucieWrite w x) s)) ∧
    (s.ucieUp = true → bits s.splitc 6 0 = 0x7F → Happens .ucieLinkDown s) ∧
    (s.on = true → s.ucieUp = false → Happens .ucieLinkUp s) ∧ (s.firm.busy = false → Happens .attestRequest s) ∧
    (s.firm.busy = true → Happens .attestReport s) ∧ (s.on = true → Happens .powerLoss s) ∧ Happens .coldReset s

/-- R10, R38 (spec/00, spec/01): every step without an encoding completes: each event of `Instr` answers a next state under
the conditions of its rule, which are conditions on the state alone; `QueueAndWaitEvents` to `BootEvents` say which state it
is. -/
def Obligations.EventsComplete : Prop :=
  Claim.ThreadEventsComplete ∧ Claim.EngineEventsComplete ∧ Claim.ControlEventsComplete ∧ Claim.FabricEventsComplete

/-! ### Decoding, steps and reset -/

/-- R12, R13, R14, R16, R17, R20, R21 (spec/01) and the listings of the example programs (spec/01, spec/10, spec/11):
words of the spec and the chains they are. -/
def Obligations.DecodeWords : Prop :=
  (∀ rest, decodeWords (0x6113 :: rest) = .ok (.movi ⟨false, 3, 0, 17, [], none, false, none⟩)) ∧
  (∀ rest, decodeWords (0x530D :: 0x6103 :: rest) = .ok (.movi ⟨false, 3, 0, 16, [0x30D], none, false, none⟩)) ∧
  (∀ rest, decodeWords (0xD3FE :: 0x61C3 :: rest) = .ok (.movi ⟨false, 3, 0, 28, [0x7FE], none, false, none⟩)) ∧
  immVal .movi ⟨false, 3, 0, 16, [0x30D], none, false, none⟩ = 50000 ∧
  immVal .movi ⟨false, 3, 0, 28, [0x7FE], none, false, none⟩ = -100 ∧
  (∀ rest, decodeWords (0x5034 :: 0x1977 :: rest) = .ok (.shl ⟨false, 7, 7, 0, [52], none, false, none⟩)) ∧
  (∀ rest, decodeWords (0x5803 :: 0x8121 :: rest) = .ok (.vld ⟨true, 2, 1, 0, [], none, false, none⟩)) ∧
  (∀ rest, decodeWords (0x5803 :: 0x5D00 :: 0x8A12 :: rest) =
    .ok (.mxq ⟨true, 1, 2, 0, [], none, false, some ⟨.core, 4, false, false⟩⟩)) ∧
  (∀ rest, decodeWords (0x5805 :: 0x5E00 :: 0x9836 :: rest) =
    .ok (.ldfe ⟨true, 3, 6, 0, [], none, false, some ⟨.cluster, 0, false, false⟩⟩)) ∧
  (∀ rest, decodeWords (0xB400 :: rest) = .ok (.exit ⟨true, 0, 0, 0, [], none, false, none⟩))

/-- R13, R14, R16-R23 (spec/01): the words of a well-formed coded instruction decode to it, whatever follows them: every
register field, immediate, prefix and marker at every value that the encoding admits. -/
def Obligations.EncodeDecode : Prop :=
  ∀ (i : Instr) (rest : List Half), i.op?.isSome = true → i.wf = true → decodeWords (encode i ++ rest) = .ok i

/-- R12, R20, R23, R28, R30 (spec/01), R48 (spec/02): no more than four prefixes, no kind of XREG, XPAGE or XCTL twice, no
reserved payload, no unassigned opcode and no end of the instruction store makes a chain; whatever does make one passes
every check of its fields. -/
def Obligations.ReservedRefused : Prop :=
  (∀ ws i, decodeWords ws = .ok i → i.wf = true) ∧
  (∀ ps rest, (∀ w ∈ ps, isPrefixWord w = true) → 4 < ps.length → ∃ e, decodeWords (ps ++ rest) = .error e) ∧
  (∀ ps, (∀ w ∈ ps, isPrefixWord w = true) → ∃ e, decodeWords ps = .error e) ∧
  (∀ ps w rest, (∀ v ∈ ps, isPrefixWord v = true) → isPrefixWord w = true → bits w 11 10 ≠ 0 →
    (∃ v ∈ ps, bits v 11 10 = bits w 11 10) → ∃ e, decodeWords (ps ++ w :: rest) = .error e) ∧
  (∀ ps w rest, (∀ v ∈ ps, isPrefixWord v = true) → isPrefixWord w = true → bits w 11 10 = 2 →
    bits (payload w) 10 4 ≠ 0 ∨ bits (payload w) 2 0 = 7 ∨ (bits (payload w) 2 0 = 0 ∧ bit (payload w) 3 = false) →
    ∃ e, decodeWords (ps ++ w :: rest) = .error e) ∧
  (∀ ps w rest, (∀ v ∈ ps, isPrefixWord v = true) → isPrefixWord w = true → bits w 11 10 = 3 →
    bits (payload w) 3 0 ≠ 0 → ∃ e, decodeWords (ps ++ w :: rest) = .error e) ∧
  (∀ w rest, isPrefixWord w = false → opAt 0 (bits w 14 8) = none → decodeWords (w :: rest) = .error .unassigned)

/-- R11, R22, R23, R38 (spec/01): where the agenda says that a thread issues, or no event can take place and the thread
is selected, the step is `exec` of the instruction that the words at its pc are, with the thread at hand; words that are
no chain raise ILLOP at the pc. A chain that has been selected and only blocks is not issued (R27, R249): its level keeps
the issue slot. A step without an encoding that the agenda names is `exec` of it. The agenda and the
order of the events are the model's (log 2), and a poisoned word comes first (log 59). -/
def Obligations.StepRunsDecoded : Prop :=
  ∀ (s : State) (i : Instr), s.on = true → s.recovery = false →
    (∀ c slot rest t, s.agenda = .issue c slot :: rest → s.thread? c slot = some t → fetchPoison s c slot = none →
      (decodeBytes (fetchBytes s (s.core c) t.pc) = .ok i →
        step s = exec i { ({ s with agenda := rest } : State).fetched c with cur := (c, slot) }) ∧
      (∀ e, decodeBytes (fetchBytes s (s.core c) t.pc) = .error e → t.isReady = true →
        step s = .next (takeTrap ((({ s with agenda := rest } : State).fetched c).issueAt c slot) c slot
          { cause := cILLOP, xpc := t.pc }))) ∧
    (∀ slot k t, s.agenda = [] → firstEvent (candidates s) s = none → select (s.core s.focus) = some (k, slot) →
      ∀ u, u = picked s k → u.thread? s.focus slot = some t → fetchPoison u s.focus slot = none →
      decodeBytes (fetchBytes u (u.core s.focus) t.pc) = .ok i →
      step s = issuedOr (s.core s.focus) s.focus slot (exec i { u.fetched s.focus with cur := (s.focus, slot) })) ∧
    (∀ rest, s.agenda = .ev i :: rest → step s = exec i { s with agenda := rest }) ∧
    (∀ c pc, (s.core c).istNew = [] → fetchBytes s (s.core c) pc =
      (List.range (min 10 (0x40000 - pc))).map fun n => (s.core c).istore.byte (pc + n))

/-- After reset: R150, R157, R178, R179 (spec/06), R200, R202 (spec/07), R325, R333, R341, R342 (spec/15), R380, R387
(spec/19), R432 (spec/21). Values that the spec does not give are the model's (logs 3 and 6 to 16) and are not stated. -/
def Obligations.ResetState : Prop :=
  ∀ c, (State.reset.core c).cyc = 0 ∧ (State.reset.core c).threads = [] ∧ (State.reset.core c).owner = 0 ∧
    (State.reset.core c).dtab = 0 ∧ (State.reset.core c).mwlim = 16777216 ∧ (State.reset.core c).fewlim = 16777216 ∧
    (State.reset.core c).mglim = 1048576 ∧ (State.reset.core c).slice.mode = 0 ∧ (State.reset.core c).slice.bka = none ∧
    (∀ n, tgetD (State.reset.core c).slice.acc n 0 = 0) ∧ (State.reset.core c).slice.sub = none ∧
    (State.reset.core c).slice.order = [] ∧ (∀ w, (State.reset.core c).full w = true) ∧
    (State.reset.core c).stops = [] ∧ (State.reset.core c).copies = [] ∧ (State.reset.core c).cache = [] ∧
    (∀ n, (State.reset.port n).state = 0) ∧ (∀ n cls, cls < 3 → (State.reset.port n).creditOf cls = 128) ∧
    (∀ n, tgetD State.reset.space n 0 = 0) ∧ (∀ n, 0 < n → State.reset.key? n = none) ∧
    (∀ n, tgetD State.reset.routes n 0 = 0) ∧ State.reset.splitc = 0x7F ∧ State.reset.net = [] ∧
    State.reset.ucieUp = false ∧ State.reset.on = true ∧ State.reset.ready = true
end

