-- ==== Sys2Proof/Laws/Memory.lean ====
section
/-! SUPPORT. Laws of tables and byte memories: what a read gives after a write, and that every operation keeps the
canonical form. -/

namespace Sys2Proof.Machine

/-! ### Tables -/

@[simp] theorem tget_tset_same {α : Type} (t : Tab α) (i : Nat) (x : α) : tget (tset t i x) i = some x := by
  induction t with
  | nil => simp [tset, tget]
  | cons e rest ih =>
    obtain ⟨k, v⟩ := e
    simp only [tset]
    split
    · simp [tget]
    · split
      · simp [tget]
      · simp_all [tget]

theorem tget_tset_other {α : Type} (t : Tab α) {i j : Nat} (x : α) (h : j ≠ i) : tget (tset t i x) j = tget t j := by
  induction t with
  | nil => simp [tset, tget, Ne.symm h]
  | cons e rest ih =>
    obtain ⟨k, v⟩ := e
    simp only [tset]
    split
    · rename_i hk
      have hk' : k = i := by simpa using hk
      subst hk'
      simp [tget, Ne.symm h]
    · split
      · simp [tget, Ne.symm h]
      · simp only [tget, ih]

theorem tget_tset {α : Type} (t : Tab α) (i j : Nat) (x : α) :
    tget (tset t i x) j = if j = i then some x else tget t j := by
  by_cases h : j = i
  · subst h; simp
  · simp [h, tget_tset_other]

@[simp] theorem tgetD_tset_same {α : Type} (t : Tab α) (i : Nat) (x d : α) : tgetD (tset t i x) i d = x := by
  simp [tgetD]

theorem tget_tdel_other {α : Type} (t : Tab α) {i j : Nat} (h : j ≠ i) : tget (tdel t i) j = tget t j := by
  induction t with
  | nil => rfl
  | cons e rest ih =>
    obtain ⟨k, v⟩ := e
    by_cases hk : k = i
    · subst hk
      simp only [tdel, List.filter, bne_self_eq_false, tget]
      rw [if_neg (by simpa using Ne.symm h)]
      exact ih
    · have hb : (k != i) = true := by simpa using hk
      simp only [tdel, List.filter, hb, tget]
      split
      · rfl
      · exact ih

@[simp] theorem tget_tdel_same {α : Type} (t : Tab α) (i : Nat) : tget (tdel t i) i = none := by
  induction t with
  | nil => rfl
  | cons e rest ih =>
    obtain ⟨k, v⟩ := e
    by_cases hk : k = i
    · subst hk
      simpa [tdel, List.filter] using ih
    · have hb : (k != i) = true := by simpa using hk
      simp only [tdel, List.filter, hb, tget]
      rw [if_neg (by simpa using hk)]
      exact ih

/-! ### One byte -/

theorem Memory.setByte_nil (a : Nat) (b : Byte) : Memory.setByte [] a b = if b = 0#8 then [] else [(a, b)] := by
  simp [Memory.setByte]

theorem Memory.setByte_cons (k : Nat) (v : Byte) (rest : Memory) (a : Nat) (b : Byte) :
    Memory.setByte ((k, v) :: rest) a b =
      if a = k then (if b = 0#8 then rest else (a, b) :: rest)
      else if a < k then (if b = 0#8 then (k, v) :: rest else (a, b) :: (k, v) :: rest)
      else (k, v) :: Memory.setByte rest a b := by
  simp [Memory.setByte]

theorem Memory.byte_cons (k : Nat) (v : Byte) (rest : Memory) (a : Nat) :
    Memory.byte ((k, v) :: rest) a = if k = a then v else Memory.byte rest a := by
  simp [Memory.byte]

theorem Memory.wfFrom_cons (lo : Option Nat) (k : Nat) (v : Byte) (rest : Memory) :
    Memory.wfFrom lo ((k, v) :: rest) = true ↔
      (∀ l, lo = some l → l < k) ∧ v ≠ 0#8 ∧ Memory.wfFrom (some k) rest = true := by
  cases lo <;> simp [Memory.wfFrom, and_assoc]

/-- The bytes of a memory above a bound, in canonical form, read as 0 up to the bound. -/
theorem Memory.byte_below (m : Memory) {lo a : Nat} (h : m.wfFrom (some lo) = true) (ha : a ≤ lo) : m.byte a = 0#8 := by
  induction m generalizing lo with
  | nil => rfl
  | cons e rest ih =>
    obtain ⟨k, v⟩ := e
    obtain ⟨h1, -, h3⟩ := (Memory.wfFrom_cons _ _ _ _).1 h
    have := h1 lo rfl
    rw [Memory.byte_cons, if_neg (by omega)]
    exact ih h3 (by omega)

theorem Memory.wfFrom_mono (m : Memory) {lo : Nat} (lo' : Option Nat) (h : m.wfFrom (some lo) = true)
    (hl : ∀ l, lo' = some l → l ≤ lo) : m.wfFrom lo' = true := by
  cases m with
  | nil => simp [Memory.wfFrom]
  | cons e rest =>
    obtain ⟨k, v⟩ := e
    obtain ⟨h1, h2, h3⟩ := (Memory.wfFrom_cons _ _ _ _).1 h
    have := h1 lo rfl
    exact (Memory.wfFrom_cons _ _ _ _).2 ⟨fun l e => by have := hl l e; omega, h2, h3⟩

theorem Memory.byte_setByte_other (m : Memory) {a a' : Nat} (b : Byte) (h : a' ≠ a) :
    (m.setByte a b).byte a' = m.byte a' := by
  induction m with
  | nil => rw [Memory.setByte_nil]; split <;> simp [Memory.byte, Ne.symm h]
  | cons e rest ih =>
    obtain ⟨k, v⟩ := e
    rw [Memory.setByte_cons]
    by_cases hk : a = k
    · subst hk
      rw [if_pos rfl]
      split <;> simp [Memory.byte_cons, Ne.symm h]
    · rw [if_neg hk]
      split
      · split <;> simp [Memory.byte_cons, Ne.symm h]
      · simp only [Memory.byte_cons, ih]

theorem Memory.byte_setByte_same (m : Memory) (a : Nat) (b : Byte) (h : m.wf = true) : (m.setByte a b).byte a = b := by
  have key : ∀ (m : Memory) (lo : Option Nat), m.wfFrom lo = true → (m.setByte a b).byte a = b := by
    intro m
    induction m with
    | nil =>
      intro lo _
      rw [Memory.setByte_nil]
      split
      · simp [Memory.byte, *]
      · simp [Memory.byte]
    | cons e rest ih =>
      obtain ⟨k, v⟩ := e
      intro lo hw
      obtain ⟨h1, h2, h3⟩ := (Memory.wfFrom_cons _ _ _ _).1 hw
      rw [Memory.setByte_cons]
      split
      · rename_i hk
        subst hk
        split
        · rename_i hb
          rw [hb]
          exact Memory.byte_below rest h3 (Nat.le_refl _)
        · simp [Memory.byte_cons]
      · split
        · split
          · rename_i hb
            rw [hb, Memory.byte_cons, if_neg (by omega)]
            exact Memory.byte_below rest h3 (by omega)
          · simp [Memory.byte_cons]
        · rw [Memory.byte_cons, if_neg (by omega)]
          exact ih (some k) h3
  exact key m none h

/-- A byte after one byte was written. -/
theorem Memory.byte_setByte (m : Memory) (a a' : Nat) (b : Byte) (h : m.wf = true) :
    (m.setByte a b).byte a' = if a' = a then b else m.byte a' := by
  by_cases ha : a' = a
  · subst ha; simp [Memory.byte_setByte_same, h]
  · simp [ha, Memory.byte_setByte_other]

theorem Memory.wfFrom_setByte (m : Memory) (lo : Option Nat) (a : Nat) (b : Byte) (hl : ∀ l, lo = some l → l < a)
    (h : m.wfFrom lo = true) : (m.setByte a b).wfFrom lo = true := by
  induction m generalizing lo with
  | nil =>
    rw [Memory.setByte_nil]
    split
    · simp [Memory.wfFrom]
    · rename_i hb
      exact (Memory.wfFrom_cons _ _ _ _).2 ⟨hl, hb, by simp [Memory.wfFrom]⟩
  | cons e rest ih =>
    obtain ⟨k, v⟩ := e
    obtain ⟨h1, h2, h3⟩ := (Memory.wfFrom_cons _ _ _ _).1 h
    rw [Memory.setByte_cons]
    split
    · rename_i hk
      subst hk
      split
      · exact Memory.wfFrom_mono rest lo h3 (fun l e => Nat.le_of_lt (hl l e))
      · rename_i hb
        exact (Memory.wfFrom_cons _ _ _ _).2 ⟨hl, hb, h3⟩
    · split
      · split
        · exact h
        · rename_i hlt hb
          exact (Memory.wfFrom_cons _ _ _ _).2
            ⟨hl, hb, (Memory.wfFrom_cons _ _ _ _).2 ⟨fun l e => by cases e; exact hlt, h2, h3⟩⟩
      · exact (Memory.wfFrom_cons _ _ _ _).2 ⟨h1, h2, ih (some k) (fun l e => by cases e; omega) h3⟩

/-- Writing a byte keeps the canonical form. -/
theorem Memory.wf_setByte (m : Memory) (a : Nat) (b : Byte) (h : m.wf = true) : (m.setByte a b).wf = true :=
  Memory.wfFrom_setByte m none a b (by simp) h

/-! ### Runs of bytes -/

/-- Writing bytes keeps the canonical form. -/
theorem Memory.wf_write (m : Memory) (a n x : Nat) (h : m.wf = true) : (m.write a n x).wf = true := by
  induction n generalizing m a x with
  | zero => exact h
  | succ n ih => exact ih _ _ _ (Memory.wf_setByte m a _ h)

/-- A byte outside the written ones reads as before. -/
theorem Memory.byte_write_other (m : Memory) {a n a' : Nat} (x : Nat) (h : a' < a ∨ a + n ≤ a') :
    (m.write a n x).byte a' = m.byte a' := by
  induction n generalizing m a x with
  | zero => rfl
  | succ n ih =>
    simp only [Memory.write]
    rw [ih _ _ (by omega), Memory.byte_setByte_other _ _ (by omega)]

/-- Byte i of what was written. -/
theorem Memory.byte_write_same (m : Memory) {a n i : Nat} (x : Nat) (h : m.wf = true) (hi : i < n) :
    (m.write a n x).byte (a + i) = BitVec.ofNat 8 (x / 256 ^ i) := by
  induction n generalizing m a x i with
  | zero => omega
  | succ n ih =>
    simp only [Memory.write]
    cases i with
    | zero => rw [Memory.byte_write_other _ _ (by omega), Nat.add_zero, Memory.byte_setByte_same _ _ _ h]; simp
    | succ i =>
      have := ih (m.setByte a (BitVec.ofNat 8 x)) (a := a + 1) (i := i) (x / 256) (Memory.wf_setByte m a _ h) (by omega)
      rw [Nat.pow_succ, Nat.mul_comm, ← Nat.div_div_eq_div_mul, ← this]
      congr 1
      omega

/-- Reading away from the written bytes gives what it gave before. -/
theorem Memory.read_write_other (m : Memory) {a n a' k : Nat} (x : Nat) (h : a' + k ≤ a ∨ a + n ≤ a') :
    (m.write a n x).read a' k = m.read a' k := by
  induction k generalizing a' with
  | zero => rfl
  | succ k ih =>
    simp only [Memory.read]
    rw [Memory.byte_write_other _ _ (by omega), ih (by omega)]

/-- Reading the written bytes gives the number, reduced to their width. -/
theorem Memory.read_write_same (m : Memory) (a n x : Nat) (h : m.wf = true) : (m.write a n x).read a n = x % 256 ^ n := by
  induction n generalizing m a x with
  | zero => simp [Memory.read, Nat.mod_one]
  | succ n ih =>
    simp only [Memory.write, Memory.read]
    rw [Memory.byte_write_other _ _ (by omega), Memory.byte_setByte_same _ _ _ h, ih _ _ _ (Memory.wf_setByte m a _ h)]
    rw [Nat.pow_succ', Nat.mod_mul]
    simp

/-- What n bytes read as is below 256^n. -/
theorem Memory.read_lt (m : Memory) (a n : Nat) : m.read a n < 256 ^ n := by
  induction n generalizing a with
  | zero => simp [Memory.read]
  | succ n ih =>
    have h1 := (m.byte a).isLt
    have h2 := ih (a + 1)
    simp only [Memory.read, Nat.pow_succ]
    omega

/-- Keeping some of the entries keeps the canonical form. -/
theorem Memory.wfFrom_filter (m : Memory) (lo : Option Nat) (p : Host.Cell → Bool) (h : m.wfFrom lo = true) :
    Memory.wfFrom lo (m.filter p) = true := by
  induction m generalizing lo with
  | nil => exact h
  | cons e rest ih =>
    obtain ⟨k, v⟩ := e
    obtain ⟨h1, h2, h3⟩ := (Memory.wfFrom_cons _ _ _ _).1 h
    rw [List.filter_cons]
    split
    · exact (Memory.wfFrom_cons _ _ _ _).2 ⟨h1, h2, ih _ h3⟩
    · exact ih _ (Memory.wfFrom_mono rest lo h3 (fun l e => Nat.le_of_lt (h1 l e)))

/-- Clearing a range keeps the canonical form. -/
theorem Memory.wf_clear (m : Memory) (a n : Nat) (h : m.wf = true) : (m.clear a n).wf = true :=
  Memory.wfFrom_filter m none _ h

end Sys2Proof.Machine
end

