-- ==== Sys2Proof/Laws/State.lean ====
section
/-! SUPPORT. Laws of the updates of the state: each field after each update, and a core or a thread after its own. -/

namespace Sys2Proof.Machine

/-! ### The updates of one core or thread leave every other field of the state -/

@[simp] theorem State.setCore_on (s : State) (c : Nat) (k : CoreSt) : (s.setCore c k).on = s.on := rfl
@[simp] theorem State.setCore_agenda (s : State) (c : Nat) (k : CoreSt) : (s.setCore c k).agenda = s.agenda := rfl
@[simp] theorem State.setCore_cur (s : State) (c : Nat) (k : CoreSt) : (s.setCore c k).cur = s.cur := rfl
@[simp] theorem State.setCore_focus (s : State) (c : Nat) (k : CoreSt) : (s.setCore c k).focus = s.focus := rfl
@[simp] theorem State.setCore_freeCtr (s : State) (c : Nat) (k : CoreSt) : (s.setCore c k).freeCtr = s.freeCtr := rfl
@[simp] theorem State.setCore_nextId (s : State) (c : Nat) (k : CoreSt) : (s.setCore c k).nextId = s.nextId := rfl
@[simp] theorem State.setCore_net (s : State) (c : Nat) (k : CoreSt) : (s.setCore c k).net = s.net := rfl
@[simp] theorem State.setCore_time (s : State) (c : Nat) (k : CoreSt) : (s.setCore c k).time = s.time := rfl
@[simp] theorem State.setCore_logical (s : State) (c : Nat) (k : CoreSt) : (s.setCore c k).logical = s.logical := rfl
@[simp] theorem State.setCore_physical (s : State) (c : Nat) (k : CoreSt) : (s.setCore c k).physical = s.physical := rfl
@[simp] theorem State.setCore_splitc (s : State) (c : Nat) (k : CoreSt) : (s.setCore c k).splitc = s.splitc := rfl
@[simp] theorem State.setCore_keys (s : State) (c : Nat) (k : CoreSt) : (s.setCore c k).keys = s.keys := rfl
@[simp] theorem State.setCore_dram (s : State) (c : Nat) (k : CoreSt) : (s.setCore c k).dram = s.dram := rfl
@[simp] theorem State.setCore_dramKey (s : State) (c : Nat) (k : CoreSt) : (s.setCore c k).dramKey = s.dramKey := rfl
@[simp] theorem State.setCore_dramBad (s : State) (c : Nat) (k : CoreSt) : (s.setCore c k).dramBad = s.dramBad := rfl
@[simp] theorem State.setCore_space (s : State) (c : Nat) (k : CoreSt) : (s.setCore c k).space = s.space := rfl
@[simp] theorem State.setCore_spaceHeld (s : State) (c : Nat) (k : CoreSt) : (s.setCore c k).spaceHeld = s.spaceHeld := rfl
@[simp] theorem State.setCore_leaves (s : State) (c : Nat) (k : CoreSt) : (s.setCore c k).leaves = s.leaves := rfl
@[simp] theorem State.setCore_aliases (s : State) (c : Nat) (k : CoreSt) : (s.setCore c k).aliases = s.aliases := rfl
@[simp] theorem State.setCore_paths (s : State) (c : Nat) (k : CoreSt) : (s.setCore c k).paths = s.paths := rfl
@[simp] theorem State.setCore_subsets (s : State) (c : Nat) (k : CoreSt) : (s.setCore c k).subsets = s.subsets := rfl
@[simp] theorem State.setCore_folios (s : State) (c : Nat) (k : CoreSt) : (s.setCore c k).folios = s.folios := rfl
@[simp] theorem State.setCore_bars (s : State) (c : Nat) (k : CoreSt) : (s.setCore c k).bars = s.bars := rfl
@[simp] theorem State.setCore_dfault (s : State) (c : Nat) (k : CoreSt) : (s.setCore c k).dfault = s.dfault := rfl
@[simp] theorem State.setCore_groups (s : State) (c : Nat) (k : CoreSt) : (s.setCore c k).groups = s.groups := rfl
@[simp] theorem State.setCore_fes (s : State) (c : Nat) (k : CoreSt) : (s.setCore c k).fes = s.fes := rfl
@[simp] theorem State.setCore_trig (s : State) (c : Nat) (k : CoreSt) : (s.setCore c k).trig = s.trig := rfl
@[simp] theorem State.setCore_gstops (s : State) (c : Nat) (k : CoreSt) : (s.setCore c k).gstops = s.gstops := rfl
@[simp] theorem State.setCore_faultLog (s : State) (c : Nat) (k : CoreSt) : (s.setCore c k).faultLog = s.faultLog := rfl
@[simp] theorem State.setCore_ucieUp (s : State) (c : Nat) (k : CoreSt) : (s.setCore c k).ucieUp = s.ucieUp := rfl
@[simp] theorem State.setCore_tree (s : State) (c : Nat) (k : CoreSt) : (s.setCore c k).tree = s.tree := rfl
@[simp] theorem State.setCore_spillDesc (s : State) (c : Nat) (k : CoreSt) : (s.setCore c k).spillDesc = s.spillDesc := rfl
@[simp] theorem State.setCore_ready (s : State) (c : Nat) (k : CoreSt) : (s.setCore c k).ready = s.ready := rfl
@[simp] theorem State.setCore_revision (s : State) (c : Nat) (k : CoreSt) : (s.setCore c k).revision = s.revision := rfl
@[simp] theorem State.setCore_recovery (s : State) (c : Nat) (k : CoreSt) : (s.setCore c k).recovery = s.recovery := rfl
@[simp] theorem State.setCore_ports (s : State) (c : Nat) (k : CoreSt) : (s.setCore c k).ports = s.ports := rfl
@[simp] theorem State.setCore_routes (s : State) (c : Nat) (k : CoreSt) : (s.setCore c k).routes = s.routes := rfl
@[simp] theorem State.setCore_reroute (s : State) (c : Nat) (k : CoreSt) : (s.setCore c k).reroute = s.reroute := rfl
@[simp] theorem State.setCore_notices (s : State) (c : Nat) (k : CoreSt) : (s.setCore c k).notices = s.notices := rfl
@[simp] theorem State.setCore_pids (s : State) (c : Nat) (k : CoreSt) : (s.setCore c k).pids = s.pids := rfl
@[simp] theorem State.setCore_combines (s : State) (c : Nat) (k : CoreSt) : (s.setCore c k).combines = s.combines := rfl
@[simp] theorem State.setCore_forward (s : State) (c : Nat) (k : CoreSt) : (s.setCore c k).forward = s.forward := rfl
@[simp] theorem State.setCore_elog (s : State) (c : Nat) (k : CoreSt) : (s.setCore c k).elog = s.elog := rfl
@[simp] theorem State.setCore_vert (s : State) (c : Nat) (k : CoreSt) : (s.setCore c k).vert = s.vert := rfl
@[simp] theorem State.setCore_power (s : State) (c : Nat) (k : CoreSt) : (s.setCore c k).power = s.power := rfl
@[simp] theorem State.setCore_firm (s : State) (c : Nat) (k : CoreSt) : (s.setCore c k).firm = s.firm := rfl
@[simp] theorem State.setCore_events (s : State) (c : Nat) (k : CoreSt) : (s.setCore c k).events = s.events := rfl
@[simp] theorem State.setCore_ucieOut (s : State) (c : Nat) (k : CoreSt) : (s.setCore c k).ucieOut = s.ucieOut := rfl

@[simp] theorem State.modCore_on (s : State) (c : Nat) (f : CoreSt → CoreSt) : (s.modCore c f).on = s.on := rfl
@[simp] theorem State.modCore_agenda (s : State) (c : Nat) (f : CoreSt → CoreSt) : (s.modCore c f).agenda = s.agenda := rfl
@[simp] theorem State.modCore_cur (s : State) (c : Nat) (f : CoreSt → CoreSt) : (s.modCore c f).cur = s.cur := rfl
@[simp] theorem State.modCore_focus (s : State) (c : Nat) (f : CoreSt → CoreSt) : (s.modCore c f).focus = s.focus := rfl
@[simp] theorem State.modCore_freeCtr (s : State) (c : Nat) (f : CoreSt → CoreSt) : (s.modCore c f).freeCtr = s.freeCtr := rfl
@[simp] theorem State.modCore_nextId (s : State) (c : Nat) (f : CoreSt → CoreSt) : (s.modCore c f).nextId = s.nextId := rfl
@[simp] theorem State.modCore_net (s : State) (c : Nat) (f : CoreSt → CoreSt) : (s.modCore c f).net = s.net := rfl
@[simp] theorem State.modCore_time (s : State) (c : Nat) (f : CoreSt → CoreSt) : (s.modCore c f).time = s.time := rfl
@[simp] theorem State.modCore_logical (s : State) (c : Nat) (f : CoreSt → CoreSt) : (s.modCore c f).logical = s.logical := rfl
@[simp] theorem State.modCore_physical (s : State) (c : Nat) (f : CoreSt → CoreSt) : (s.modCore c f).physical = s.physical := rfl
@[simp] theorem State.modCore_splitc (s : State) (c : Nat) (f : CoreSt → CoreSt) : (s.modCore c f).splitc = s.splitc := rfl
@[simp] theorem State.modCore_keys (s : State) (c : Nat) (f : CoreSt → CoreSt) : (s.modCore c f).keys = s.keys := rfl
@[simp] theorem State.modCore_dram (s : State) (c : Nat) (f : CoreSt → CoreSt) : (s.modCore c f).dram = s.dram := rfl
@[simp] theorem State.modCore_dramKey (s : State) (c : Nat) (f : CoreSt → CoreSt) : (s.modCore c f).dramKey = s.dramKey := rfl
@[simp] theorem State.modCore_dramBad (s : State) (c : Nat) (f : CoreSt → CoreSt) : (s.modCore c f).dramBad = s.dramBad := rfl
@[simp] theorem State.modCore_space (s : State) (c : Nat) (f : CoreSt → CoreSt) : (s.modCore c f).space = s.space := rfl
@[simp] theorem State.modCore_spaceHeld (s : State) (c : Nat) (f : CoreSt → CoreSt) : (s.modCore c f).spaceHeld = s.spaceHeld := rfl
@[simp] theorem State.modCore_leaves (s : State) (c : Nat) (f : CoreSt → CoreSt) : (s.modCore c f).leaves = s.leaves := rfl
@[simp] theorem State.modCore_aliases (s : State) (c : Nat) (f : CoreSt → CoreSt) : (s.modCore c f).aliases = s.aliases := rfl
@[simp] theorem State.modCore_paths (s : State) (c : Nat) (f : CoreSt → CoreSt) : (s.modCore c f).paths = s.paths := rfl
@[simp] theorem State.modCore_subsets (s : State) (c : Nat) (f : CoreSt → CoreSt) : (s.modCore c f).subsets = s.subsets := rfl
@[simp] theorem State.modCore_folios (s : State) (c : Nat) (f : CoreSt → CoreSt) : (s.modCore c f).folios = s.folios := rfl
@[simp] theorem State.modCore_bars (s : State) (c : Nat) (f : CoreSt → CoreSt) : (s.modCore c f).bars = s.bars := rfl
@[simp] theorem State.modCore_dfault (s : State) (c : Nat) (f : CoreSt → CoreSt) : (s.modCore c f).dfault = s.dfault := rfl
@[simp] theorem State.modCore_groups (s : State) (c : Nat) (f : CoreSt → CoreSt) : (s.modCore c f).groups = s.groups := rfl
@[simp] theorem State.modCore_fes (s : State) (c : Nat) (f : CoreSt → CoreSt) : (s.modCore c f).fes = s.fes := rfl
@[simp] theorem State.modCore_trig (s : State) (c : Nat) (f : CoreSt → CoreSt) : (s.modCore c f).trig = s.trig := rfl
@[simp] theorem State.modCore_gstops (s : State) (c : Nat) (f : CoreSt → CoreSt) : (s.modCore c f).gstops = s.gstops := rfl
@[simp] theorem State.modCore_faultLog (s : State) (c : Nat) (f : CoreSt → CoreSt) : (s.modCore c f).faultLog = s.faultLog := rfl
@[simp] theorem State.modCore_ucieUp (s : State) (c : Nat) (f : CoreSt → CoreSt) : (s.modCore c f).ucieUp = s.ucieUp := rfl
@[simp] theorem State.modCore_tree (s : State) (c : Nat) (f : CoreSt → CoreSt) : (s.modCore c f).tree = s.tree := rfl
@[simp] theorem State.modCore_spillDesc (s : State) (c : Nat) (f : CoreSt → CoreSt) : (s.modCore c f).spillDesc = s.spillDesc := rfl
@[simp] theorem State.modCore_ready (s : State) (c : Nat) (f : CoreSt → CoreSt) : (s.modCore c f).ready = s.ready := rfl
@[simp] theorem State.modCore_revision (s : State) (c : Nat) (f : CoreSt → CoreSt) : (s.modCore c f).revision = s.revision := rfl
@[simp] theorem State.modCore_recovery (s : State) (c : Nat) (f : CoreSt → CoreSt) : (s.modCore c f).recovery = s.recovery := rfl
@[simp] theorem State.modCore_ports (s : State) (c : Nat) (f : CoreSt → CoreSt) : (s.modCore c f).ports = s.ports := rfl
@[simp] theorem State.modCore_routes (s : State) (c : Nat) (f : CoreSt → CoreSt) : (s.modCore c f).routes = s.routes := rfl
@[simp] theorem State.modCore_reroute (s : State) (c : Nat) (f : CoreSt → CoreSt) : (s.modCore c f).reroute = s.reroute := rfl
@[simp] theorem State.modCore_notices (s : State) (c : Nat) (f : CoreSt → CoreSt) : (s.modCore c f).notices = s.notices := rfl
@[simp] theorem State.modCore_pids (s : State) (c : Nat) (f : CoreSt → CoreSt) : (s.modCore c f).pids = s.pids := rfl
@[simp] theorem State.modCore_combines (s : State) (c : Nat) (f : CoreSt → CoreSt) : (s.modCore c f).combines = s.combines := rfl
@[simp] theorem State.modCore_forward (s : State) (c : Nat) (f : CoreSt → CoreSt) : (s.modCore c f).forward = s.forward := rfl
@[simp] theorem State.modCore_elog (s : State) (c : Nat) (f : CoreSt → CoreSt) : (s.modCore c f).elog = s.elog := rfl
@[simp] theorem State.modCore_vert (s : State) (c : Nat) (f : CoreSt → CoreSt) : (s.modCore c f).vert = s.vert := rfl
@[simp] theorem State.modCore_power (s : State) (c : Nat) (f : CoreSt → CoreSt) : (s.modCore c f).power = s.power := rfl
@[simp] theorem State.modCore_firm (s : State) (c : Nat) (f : CoreSt → CoreSt) : (s.modCore c f).firm = s.firm := rfl
@[simp] theorem State.modCore_events (s : State) (c : Nat) (f : CoreSt → CoreSt) : (s.modCore c f).events = s.events := rfl
@[simp] theorem State.modCore_ucieOut (s : State) (c : Nat) (f : CoreSt → CoreSt) : (s.modCore c f).ucieOut = s.ucieOut := rfl

@[simp] theorem State.setThread_on (s : State) (c i : Nat) (t : Thread) : (s.setThread c i t).on = s.on := rfl
@[simp] theorem State.setThread_agenda (s : State) (c i : Nat) (t : Thread) : (s.setThread c i t).agenda = s.agenda := rfl
@[simp] theorem State.setThread_cur (s : State) (c i : Nat) (t : Thread) : (s.setThread c i t).cur = s.cur := rfl
@[simp] theorem State.setThread_focus (s : State) (c i : Nat) (t : Thread) : (s.setThread c i t).focus = s.focus := rfl
@[simp] theorem State.setThread_freeCtr (s : State) (c i : Nat) (t : Thread) : (s.setThread c i t).freeCtr = s.freeCtr := rfl
@[simp] theorem State.setThread_nextId (s : State) (c i : Nat) (t : Thread) : (s.setThread c i t).nextId = s.nextId := rfl
@[simp] theorem State.setThread_net (s : State) (c i : Nat) (t : Thread) : (s.setThread c i t).net = s.net := rfl
@[simp] theorem State.setThread_time (s : State) (c i : Nat) (t : Thread) : (s.setThread c i t).time = s.time := rfl
@[simp] theorem State.setThread_logical (s : State) (c i : Nat) (t : Thread) : (s.setThread c i t).logical = s.logical := rfl
@[simp] theorem State.setThread_physical (s : State) (c i : Nat) (t : Thread) : (s.setThread c i t).physical = s.physical := rfl
@[simp] theorem State.setThread_splitc (s : State) (c i : Nat) (t : Thread) : (s.setThread c i t).splitc = s.splitc := rfl
@[simp] theorem State.setThread_keys (s : State) (c i : Nat) (t : Thread) : (s.setThread c i t).keys = s.keys := rfl
@[simp] theorem State.setThread_dram (s : State) (c i : Nat) (t : Thread) : (s.setThread c i t).dram = s.dram := rfl
@[simp] theorem State.setThread_dramKey (s : State) (c i : Nat) (t : Thread) : (s.setThread c i t).dramKey = s.dramKey := rfl
@[simp] theorem State.setThread_dramBad (s : State) (c i : Nat) (t : Thread) : (s.setThread c i t).dramBad = s.dramBad := rfl
@[simp] theorem State.setThread_space (s : State) (c i : Nat) (t : Thread) : (s.setThread c i t).space = s.space := rfl
@[simp] theorem State.setThread_spaceHeld (s : State) (c i : Nat) (t : Thread) : (s.setThread c i t).spaceHeld = s.spaceHeld := rfl
@[simp] theorem State.setThread_leaves (s : State) (c i : Nat) (t : Thread) : (s.setThread c i t).leaves = s.leaves := rfl
@[simp] theorem State.setThread_aliases (s : State) (c i : Nat) (t : Thread) : (s.setThread c i t).aliases = s.aliases := rfl
@[simp] theorem State.setThread_paths (s : State) (c i : Nat) (t : Thread) : (s.setThread c i t).paths = s.paths := rfl
@[simp] theorem State.setThread_subsets (s : State) (c i : Nat) (t : Thread) : (s.setThread c i t).subsets = s.subsets := rfl
@[simp] theorem State.setThread_folios (s : State) (c i : Nat) (t : Thread) : (s.setThread c i t).folios = s.folios := rfl
@[simp] theorem State.setThread_bars (s : State) (c i : Nat) (t : Thread) : (s.setThread c i t).bars = s.bars := rfl
@[simp] theorem State.setThread_dfault (s : State) (c i : Nat) (t : Thread) : (s.setThread c i t).dfault = s.dfault := rfl
@[simp] theorem State.setThread_groups (s : State) (c i : Nat) (t : Thread) : (s.setThread c i t).groups = s.groups := rfl
@[simp] theorem State.setThread_fes (s : State) (c i : Nat) (t : Thread) : (s.setThread c i t).fes = s.fes := rfl
@[simp] theorem State.setThread_trig (s : State) (c i : Nat) (t : Thread) : (s.setThread c i t).trig = s.trig := rfl
@[simp] theorem State.setThread_gstops (s : State) (c i : Nat) (t : Thread) : (s.setThread c i t).gstops = s.gstops := rfl
@[simp] theorem State.setThread_faultLog (s : State) (c i : Nat) (t : Thread) : (s.setThread c i t).faultLog = s.faultLog := rfl
@[simp] theorem State.setThread_ucieUp (s : State) (c i : Nat) (t : Thread) : (s.setThread c i t).ucieUp = s.ucieUp := rfl
@[simp] theorem State.setThread_tree (s : State) (c i : Nat) (t : Thread) : (s.setThread c i t).tree = s.tree := rfl
@[simp] theorem State.setThread_spillDesc (s : State) (c i : Nat) (t : Thread) : (s.setThread c i t).spillDesc = s.spillDesc := rfl
@[simp] theorem State.setThread_ready (s : State) (c i : Nat) (t : Thread) : (s.setThread c i t).ready = s.ready := rfl
@[simp] theorem State.setThread_revision (s : State) (c i : Nat) (t : Thread) : (s.setThread c i t).revision = s.revision := rfl
@[simp] theorem State.setThread_recovery (s : State) (c i : Nat) (t : Thread) : (s.setThread c i t).recovery = s.recovery := rfl
@[simp] theorem State.setThread_ports (s : State) (c i : Nat) (t : Thread) : (s.setThread c i t).ports = s.ports := rfl
@[simp] theorem State.setThread_routes (s : State) (c i : Nat) (t : Thread) : (s.setThread c i t).routes = s.routes := rfl
@[simp] theorem State.setThread_reroute (s : State) (c i : Nat) (t : Thread) : (s.setThread c i t).reroute = s.reroute := rfl
@[simp] theorem State.setThread_notices (s : State) (c i : Nat) (t : Thread) : (s.setThread c i t).notices = s.notices := rfl
@[simp] theorem State.setThread_pids (s : State) (c i : Nat) (t : Thread) : (s.setThread c i t).pids = s.pids := rfl
@[simp] theorem State.setThread_combines (s : State) (c i : Nat) (t : Thread) : (s.setThread c i t).combines = s.combines := rfl
@[simp] theorem State.setThread_forward (s : State) (c i : Nat) (t : Thread) : (s.setThread c i t).forward = s.forward := rfl
@[simp] theorem State.setThread_elog (s : State) (c i : Nat) (t : Thread) : (s.setThread c i t).elog = s.elog := rfl
@[simp] theorem State.setThread_vert (s : State) (c i : Nat) (t : Thread) : (s.setThread c i t).vert = s.vert := rfl
@[simp] theorem State.setThread_power (s : State) (c i : Nat) (t : Thread) : (s.setThread c i t).power = s.power := rfl
@[simp] theorem State.setThread_firm (s : State) (c i : Nat) (t : Thread) : (s.setThread c i t).firm = s.firm := rfl
@[simp] theorem State.setThread_events (s : State) (c i : Nat) (t : Thread) : (s.setThread c i t).events = s.events := rfl
@[simp] theorem State.setThread_ucieOut (s : State) (c i : Nat) (t : Thread) : (s.setThread c i t).ucieOut = s.ucieOut := rfl

@[simp] theorem State.delThread_on (s : State) (c i : Nat) : (s.delThread c i).on = s.on := rfl
@[simp] theorem State.delThread_agenda (s : State) (c i : Nat) : (s.delThread c i).agenda = s.agenda := rfl
@[simp] theorem State.delThread_cur (s : State) (c i : Nat) : (s.delThread c i).cur = s.cur := rfl
@[simp] theorem State.delThread_focus (s : State) (c i : Nat) : (s.delThread c i).focus = s.focus := rfl
@[simp] theorem State.delThread_freeCtr (s : State) (c i : Nat) : (s.delThread c i).freeCtr = s.freeCtr := rfl
@[simp] theorem State.delThread_nextId (s : State) (c i : Nat) : (s.delThread c i).nextId = s.nextId := rfl
@[simp] theorem State.delThread_net (s : State) (c i : Nat) : (s.delThread c i).net = s.net := rfl
@[simp] theorem State.delThread_time (s : State) (c i : Nat) : (s.delThread c i).time = s.time := rfl
@[simp] theorem State.delThread_logical (s : State) (c i : Nat) : (s.delThread c i).logical = s.logical := rfl
@[simp] theorem State.delThread_physical (s : State) (c i : Nat) : (s.delThread c i).physical = s.physical := rfl
@[simp] theorem State.delThread_splitc (s : State) (c i : Nat) : (s.delThread c i).splitc = s.splitc := rfl
@[simp] theorem State.delThread_keys (s : State) (c i : Nat) : (s.delThread c i).keys = s.keys := rfl
@[simp] theorem State.delThread_dram (s : State) (c i : Nat) : (s.delThread c i).dram = s.dram := rfl
@[simp] theorem State.delThread_dramKey (s : State) (c i : Nat) : (s.delThread c i).dramKey = s.dramKey := rfl
@[simp] theorem State.delThread_dramBad (s : State) (c i : Nat) : (s.delThread c i).dramBad = s.dramBad := rfl
@[simp] theorem State.delThread_space (s : State) (c i : Nat) : (s.delThread c i).space = s.space := rfl
@[simp] theorem State.delThread_spaceHeld (s : State) (c i : Nat) : (s.delThread c i).spaceHeld = s.spaceHeld := rfl
@[simp] theorem State.delThread_leaves (s : State) (c i : Nat) : (s.delThread c i).leaves = s.leaves := rfl
@[simp] theorem State.delThread_aliases (s : State) (c i : Nat) : (s.delThread c i).aliases = s.aliases := rfl
@[simp] theorem State.delThread_paths (s : State) (c i : Nat) : (s.delThread c i).paths = s.paths := rfl
@[simp] theorem State.delThread_subsets (s : State) (c i : Nat) : (s.delThread c i).subsets = s.subsets := rfl
@[simp] theorem State.delThread_folios (s : State) (c i : Nat) : (s.delThread c i).folios = s.folios := rfl
@[simp] theorem State.delThread_bars (s : State) (c i : Nat) : (s.delThread c i).bars = s.bars := rfl
@[simp] theorem State.delThread_dfault (s : State) (c i : Nat) : (s.delThread c i).dfault = s.dfault := rfl
@[simp] theorem State.delThread_groups (s : State) (c i : Nat) : (s.delThread c i).groups = s.groups := rfl
@[simp] theorem State.delThread_fes (s : State) (c i : Nat) : (s.delThread c i).fes = s.fes := rfl
@[simp] theorem State.delThread_trig (s : State) (c i : Nat) : (s.delThread c i).trig = s.trig := rfl
@[simp] theorem State.delThread_gstops (s : State) (c i : Nat) : (s.delThread c i).gstops = s.gstops := rfl
@[simp] theorem State.delThread_faultLog (s : State) (c i : Nat) : (s.delThread c i).faultLog = s.faultLog := rfl
@[simp] theorem State.delThread_ucieUp (s : State) (c i : Nat) : (s.delThread c i).ucieUp = s.ucieUp := rfl
@[simp] theorem State.delThread_tree (s : State) (c i : Nat) : (s.delThread c i).tree = s.tree := rfl
@[simp] theorem State.delThread_spillDesc (s : State) (c i : Nat) : (s.delThread c i).spillDesc = s.spillDesc := rfl
@[simp] theorem State.delThread_ready (s : State) (c i : Nat) : (s.delThread c i).ready = s.ready := rfl
@[simp] theorem State.delThread_revision (s : State) (c i : Nat) : (s.delThread c i).revision = s.revision := rfl
@[simp] theorem State.delThread_recovery (s : State) (c i : Nat) : (s.delThread c i).recovery = s.recovery := rfl
@[simp] theorem State.delThread_ports (s : State) (c i : Nat) : (s.delThread c i).ports = s.ports := rfl
@[simp] theorem State.delThread_routes (s : State) (c i : Nat) : (s.delThread c i).routes = s.routes := rfl
@[simp] theorem State.delThread_reroute (s : State) (c i : Nat) : (s.delThread c i).reroute = s.reroute := rfl
@[simp] theorem State.delThread_notices (s : State) (c i : Nat) : (s.delThread c i).notices = s.notices := rfl
@[simp] theorem State.delThread_pids (s : State) (c i : Nat) : (s.delThread c i).pids = s.pids := rfl
@[simp] theorem State.delThread_combines (s : State) (c i : Nat) : (s.delThread c i).combines = s.combines := rfl
@[simp] theorem State.delThread_forward (s : State) (c i : Nat) : (s.delThread c i).forward = s.forward := rfl
@[simp] theorem State.delThread_elog (s : State) (c i : Nat) : (s.delThread c i).elog = s.elog := rfl
@[simp] theorem State.delThread_vert (s : State) (c i : Nat) : (s.delThread c i).vert = s.vert := rfl
@[simp] theorem State.delThread_power (s : State) (c i : Nat) : (s.delThread c i).power = s.power := rfl
@[simp] theorem State.delThread_firm (s : State) (c i : Nat) : (s.delThread c i).firm = s.firm := rfl
@[simp] theorem State.delThread_events (s : State) (c i : Nat) : (s.delThread c i).events = s.events := rfl
@[simp] theorem State.delThread_ucieOut (s : State) (c i : Nat) : (s.delThread c i).ucieOut = s.ucieOut := rfl

@[simp] theorem State.tick_on (s : State) : s.tick.on = s.on := rfl
@[simp] theorem State.tick_agenda (s : State) : s.tick.agenda = s.agenda := rfl
@[simp] theorem State.tick_cur (s : State) : s.tick.cur = s.cur := rfl
@[simp] theorem State.tick_focus (s : State) : s.tick.focus = s.focus := rfl
@[simp] theorem State.tick_freeCtr (s : State) : s.tick.freeCtr = s.freeCtr + 1 := rfl
@[simp] theorem State.tick_nextId (s : State) : s.tick.nextId = s.nextId := rfl
@[simp] theorem State.tick_cores (s : State) : s.tick.cores = s.cores := rfl
@[simp] theorem State.tick_net (s : State) : s.tick.net = s.net := rfl
@[simp] theorem State.tick_time (s : State) : s.tick.time = s.time := rfl
@[simp] theorem State.tick_logical (s : State) : s.tick.logical = s.logical := rfl
@[simp] theorem State.tick_physical (s : State) : s.tick.physical = s.physical := rfl
@[simp] theorem State.tick_splitc (s : State) : s.tick.splitc = s.splitc := rfl
@[simp] theorem State.tick_keys (s : State) : s.tick.keys = s.keys := rfl
@[simp] theorem State.tick_dram (s : State) : s.tick.dram = s.dram := rfl
@[simp] theorem State.tick_dramKey (s : State) : s.tick.dramKey = s.dramKey := rfl
@[simp] theorem State.tick_dramBad (s : State) : s.tick.dramBad = s.dramBad := rfl
@[simp] theorem State.tick_space (s : State) : s.tick.space = s.space := rfl
@[simp] theorem State.tick_spaceHeld (s : State) : s.tick.spaceHeld = s.spaceHeld := rfl
@[simp] theorem State.tick_leaves (s : State) : s.tick.leaves = s.leaves := rfl
@[simp] theorem State.tick_aliases (s : State) : s.tick.aliases = s.aliases := rfl
@[simp] theorem State.tick_paths (s : State) : s.tick.paths = s.paths := rfl
@[simp] theorem State.tick_subsets (s : State) : s.tick.subsets = s.subsets := rfl
@[simp] theorem State.tick_folios (s : State) : s.tick.folios = s.folios := rfl
@[simp] theorem State.tick_bars (s : State) : s.tick.bars = s.bars := rfl
@[simp] theorem State.tick_dfault (s : State) : s.tick.dfault = s.dfault := rfl
@[simp] theorem State.tick_groups (s : State) : s.tick.groups = s.groups := rfl
@[simp] theorem State.tick_fes (s : State) : s.tick.fes = s.fes := rfl
@[simp] theorem State.tick_trig (s : State) : s.tick.trig = s.trig := rfl
@[simp] theorem State.tick_gstops (s : State) : s.tick.gstops = s.gstops := rfl
@[simp] theorem State.tick_faultLog (s : State) : s.tick.faultLog = s.faultLog := rfl
@[simp] theorem State.tick_ucieUp (s : State) : s.tick.ucieUp = s.ucieUp := rfl
@[simp] theorem State.tick_tree (s : State) : s.tick.tree = s.tree := rfl
@[simp] theorem State.tick_spillDesc (s : State) : s.tick.spillDesc = s.spillDesc := rfl
@[simp] theorem State.tick_ready (s : State) : s.tick.ready = s.ready := rfl
@[simp] theorem State.tick_revision (s : State) : s.tick.revision = s.revision := rfl
@[simp] theorem State.tick_recovery (s : State) : s.tick.recovery = s.recovery := rfl
@[simp] theorem State.tick_ports (s : State) : s.tick.ports = s.ports := rfl
@[simp] theorem State.tick_routes (s : State) : s.tick.routes = s.routes := rfl
@[simp] theorem State.tick_reroute (s : State) : s.tick.reroute = s.reroute := rfl
@[simp] theorem State.tick_notices (s : State) : s.tick.notices = s.notices := rfl
@[simp] theorem State.tick_pids (s : State) : s.tick.pids = s.pids := rfl
@[simp] theorem State.tick_combines (s : State) : s.tick.combines = s.combines := rfl
@[simp] theorem State.tick_forward (s : State) : s.tick.forward = s.forward := rfl
@[simp] theorem State.tick_elog (s : State) : s.tick.elog = s.elog := rfl
@[simp] theorem State.tick_vert (s : State) : s.tick.vert = s.vert := rfl
@[simp] theorem State.tick_power (s : State) : s.tick.power = s.power := rfl
@[simp] theorem State.tick_firm (s : State) : s.tick.firm = s.firm := rfl
@[simp] theorem State.tick_events (s : State) : s.tick.events = s.events := rfl
@[simp] theorem State.tick_ucieOut (s : State) : s.tick.ucieOut = s.ucieOut := rfl

@[simp] theorem State.bump_on (s : State) : s.bump.on = s.on := rfl
@[simp] theorem State.bump_agenda (s : State) : s.bump.agenda = s.agenda := rfl
@[simp] theorem State.bump_cur (s : State) : s.bump.cur = s.cur := rfl
@[simp] theorem State.bump_focus (s : State) : s.bump.focus = s.focus := rfl
@[simp] theorem State.bump_freeCtr (s : State) : s.bump.freeCtr = s.freeCtr := rfl
@[simp] theorem State.bump_nextId (s : State) : s.bump.nextId = s.nextId + 1 := rfl
@[simp] theorem State.bump_cores (s : State) : s.bump.cores = s.cores := rfl
@[simp] theorem State.bump_net (s : State) : s.bump.net = s.net := rfl
@[simp] theorem State.bump_time (s : State) : s.bump.time = s.time := rfl
@[simp] theorem State.bump_logical (s : State) : s.bump.logical = s.logical := rfl
@[simp] theorem State.bump_physical (s : State) : s.bump.physical = s.physical := rfl
@[simp] theorem State.bump_splitc (s : State) : s.bump.splitc = s.splitc := rfl
@[simp] theorem State.bump_keys (s : State) : s.bump.keys = s.keys := rfl
@[simp] theorem State.bump_dram (s : State) : s.bump.dram = s.dram := rfl
@[simp] theorem State.bump_dramKey (s : State) : s.bump.dramKey = s.dramKey := rfl
@[simp] theorem State.bump_dramBad (s : State) : s.bump.dramBad = s.dramBad := rfl
@[simp] theorem State.bump_space (s : State) : s.bump.space = s.space := rfl
@[simp] theorem State.bump_spaceHeld (s : State) : s.bump.spaceHeld = s.spaceHeld := rfl
@[simp] theorem State.bump_leaves (s : State) : s.bump.leaves = s.leaves := rfl
@[simp] theorem State.bump_aliases (s : State) : s.bump.aliases = s.aliases := rfl
@[simp] theorem State.bump_paths (s : State) : s.bump.paths = s.paths := rfl
@[simp] theorem State.bump_subsets (s : State) : s.bump.subsets = s.subsets := rfl
@[simp] theorem State.bump_folios (s : State) : s.bump.folios = s.folios := rfl
@[simp] theorem State.bump_bars (s : State) : s.bump.bars = s.bars := rfl
@[simp] theorem State.bump_dfault (s : State) : s.bump.dfault = s.dfault := rfl
@[simp] theorem State.bump_groups (s : State) : s.bump.groups = s.groups := rfl
@[simp] theorem State.bump_fes (s : State) : s.bump.fes = s.fes := rfl
@[simp] theorem State.bump_trig (s : State) : s.bump.trig = s.trig := rfl
@[simp] theorem State.bump_gstops (s : State) : s.bump.gstops = s.gstops := rfl
@[simp] theorem State.bump_faultLog (s : State) : s.bump.faultLog = s.faultLog := rfl
@[simp] theorem State.bump_ucieUp (s : State) : s.bump.ucieUp = s.ucieUp := rfl
@[simp] theorem State.bump_tree (s : State) : s.bump.tree = s.tree := rfl
@[simp] theorem State.bump_spillDesc (s : State) : s.bump.spillDesc = s.spillDesc := rfl
@[simp] theorem State.bump_ready (s : State) : s.bump.ready = s.ready := rfl
@[simp] theorem State.bump_revision (s : State) : s.bump.revision = s.revision := rfl
@[simp] theorem State.bump_recovery (s : State) : s.bump.recovery = s.recovery := rfl
@[simp] theorem State.bump_ports (s : State) : s.bump.ports = s.ports := rfl
@[simp] theorem State.bump_routes (s : State) : s.bump.routes = s.routes := rfl
@[simp] theorem State.bump_reroute (s : State) : s.bump.reroute = s.reroute := rfl
@[simp] theorem State.bump_notices (s : State) : s.bump.notices = s.notices := rfl
@[simp] theorem State.bump_pids (s : State) : s.bump.pids = s.pids := rfl
@[simp] theorem State.bump_combines (s : State) : s.bump.combines = s.combines := rfl
@[simp] theorem State.bump_forward (s : State) : s.bump.forward = s.forward := rfl
@[simp] theorem State.bump_elog (s : State) : s.bump.elog = s.elog := rfl
@[simp] theorem State.bump_vert (s : State) : s.bump.vert = s.vert := rfl
@[simp] theorem State.bump_power (s : State) : s.bump.power = s.power := rfl
@[simp] theorem State.bump_firm (s : State) : s.bump.firm = s.firm := rfl
@[simp] theorem State.bump_events (s : State) : s.bump.events = s.events := rfl
@[simp] theorem State.bump_ucieOut (s : State) : s.bump.ucieOut = s.ucieOut := rfl

@[simp] theorem State.modThread_on (s : State) (c i : Nat) (f : Thread → Thread) :
    (s.modThread c i f).on = s.on := by
  unfold State.modThread; split <;> rfl
@[simp] theorem State.modThread_agenda (s : State) (c i : Nat) (f : Thread → Thread) :
    (s.modThread c i f).agenda = s.agenda := by
  unfold State.modThread; split <;> rfl
@[simp] theorem State.modThread_cur (s : State) (c i : Nat) (f : Thread → Thread) :
    (s.modThread c i f).cur = s.cur := by
  unfold State.modThread; split <;> rfl
@[simp] theorem State.modThread_focus (s : State) (c i : Nat) (f : Thread → Thread) :
    (s.modThread c i f).focus = s.focus := by
  unfold State.modThread; split <;> rfl
@[simp] theorem State.modThread_freeCtr (s : State) (c i : Nat) (f : Thread → Thread) :
    (s.modThread c i f).freeCtr = s.freeCtr := by
  unfold State.modThread; split <;> rfl
@[simp] theorem State.modThread_nextId (s : State) (c i : Nat) (f : Thread → Thread) :
    (s.modThread c i f).nextId = s.nextId := by
  unfold State.modThread; split <;> rfl
@[simp] theorem State.modThread_net (s : State) (c i : Nat) (f : Thread → Thread) :
    (s.modThread c i f).net = s.net := by
  unfold State.modThread; split <;> rfl
@[simp] theorem State.modThread_time (s : State) (c i : Nat) (f : Thread → Thread) :
    (s.modThread c i f).time = s.time := by
  unfold State.modThread; split <;> rfl
@[simp] theorem State.modThread_logical (s : State) (c i : Nat) (f : Thread → Thread) :
    (s.modThread c i f).logical = s.logical := by
  unfold State.modThread; split <;> rfl
@[simp] theorem State.modThread_physical (s : State) (c i : Nat) (f : Thread → Thread) :
    (s.modThread c i f).physical = s.physical := by
  unfold State.modThread; split <;> rfl
@[simp] theorem State.modThread_splitc (s : State) (c i : Nat) (f : Thread → Thread) :
    (s.modThread c i f).splitc = s.splitc := by
  unfold State.modThread; split <;> rfl
@[simp] theorem State.modThread_keys (s : State) (c i : Nat) (f : Thread → Thread) :
    (s.modThread c i f).keys = s.keys := by
  unfold State.modThread; split <;> rfl
@[simp] theorem State.modThread_dram (s : State) (c i : Nat) (f : Thread → Thread) :
    (s.modThread c i f).dram = s.dram := by
  unfold State.modThread; split <;> rfl
@[simp] theorem State.modThread_dramKey (s : State) (c i : Nat) (f : Thread → Thread) :
    (s.modThread c i f).dramKey = s.dramKey := by
  unfold State.modThread; split <;> rfl
@[simp] theorem State.modThread_dramBad (s : State) (c i : Nat) (f : Thread → Thread) :
    (s.modThread c i f).dramBad = s.dramBad := by
  unfold State.modThread; split <;> rfl
@[simp] theorem State.modThread_space (s : State) (c i : Nat) (f : Thread → Thread) :
    (s.modThread c i f).space = s.space := by
  unfold State.modThread; split <;> rfl
@[simp] theorem State.modThread_spaceHeld (s : State) (c i : Nat) (f : Thread → Thread) :
    (s.modThread c i f).spaceHeld = s.spaceHeld := by
  unfold State.modThread; split <;> rfl
@[simp] theorem State.modThread_leaves (s : State) (c i : Nat) (f : Thread → Thread) :
    (s.modThread c i f).leaves = s.leaves := by
  unfold State.modThread; split <;> rfl
@[simp] theorem State.modThread_aliases (s : State) (c i : Nat) (f : Thread → Thread) :
    (s.modThread c i f).aliases = s.aliases := by
  unfold State.modThread; split <;> rfl
@[simp] theorem State.modThread_paths (s : State) (c i : Nat) (f : Thread → Thread) :
    (s.modThread c i f).paths = s.paths := by
  unfold State.modThread; split <;> rfl
@[simp] theorem State.modThread_subsets (s : State) (c i : Nat) (f : Thread → Thread) :
    (s.modThread c i f).subsets = s.subsets := by
  unfold State.modThread; split <;> rfl
@[simp] theorem State.modThread_folios (s : State) (c i : Nat) (f : Thread → Thread) :
    (s.modThread c i f).folios = s.folios := by
  unfold State.modThread; split <;> rfl
@[simp] theorem State.modThread_bars (s : State) (c i : Nat) (f : Thread → Thread) :
    (s.modThread c i f).bars = s.bars := by
  unfold State.modThread; split <;> rfl
@[simp] theorem State.modThread_dfault (s : State) (c i : Nat) (f : Thread → Thread) :
    (s.modThread c i f).dfault = s.dfault := by
  unfold State.modThread; split <;> rfl
@[simp] theorem State.modThread_groups (s : State) (c i : Nat) (f : Thread → Thread) :
    (s.modThread c i f).groups = s.groups := by
  unfold State.modThread; split <;> rfl
@[simp] theorem State.modThread_fes (s : State) (c i : Nat) (f : Thread → Thread) :
    (s.modThread c i f).fes = s.fes := by
  unfold State.modThread; split <;> rfl
@[simp] theorem State.modThread_trig (s : State) (c i : Nat) (f : Thread → Thread) :
    (s.modThread c i f).trig = s.trig := by
  unfold State.modThread; split <;> rfl
@[simp] theorem State.modThread_gstops (s : State) (c i : Nat) (f : Thread → Thread) :
    (s.modThread c i f).gstops = s.gstops := by
  unfold State.modThread; split <;> rfl
@[simp] theorem State.modThread_faultLog (s : State) (c i : Nat) (f : Thread → Thread) :
    (s.modThread c i f).faultLog = s.faultLog := by
  unfold State.modThread; split <;> rfl
@[simp] theorem State.modThread_ucieUp (s : State) (c i : Nat) (f : Thread → Thread) :
    (s.modThread c i f).ucieUp = s.ucieUp := by
  unfold State.modThread; split <;> rfl
@[simp] theorem State.modThread_tree (s : State) (c i : Nat) (f : Thread → Thread) :
    (s.modThread c i f).tree = s.tree := by
  unfold State.modThread; split <;> rfl
@[simp] theorem State.modThread_spillDesc (s : State) (c i : Nat) (f : Thread → Thread) :
    (s.modThread c i f).spillDesc = s.spillDesc := by
  unfold State.modThread; split <;> rfl
@[simp] theorem State.modThread_ready (s : State) (c i : Nat) (f : Thread → Thread) :
    (s.modThread c i f).ready = s.ready := by
  unfold State.modThread; split <;> rfl
@[simp] theorem State.modThread_revision (s : State) (c i : Nat) (f : Thread → Thread) :
    (s.modThread c i f).revision = s.revision := by
  unfold State.modThread; split <;> rfl
@[simp] theorem State.modThread_recovery (s : State) (c i : Nat) (f : Thread → Thread) :
    (s.modThread c i f).recovery = s.recovery := by
  unfold State.modThread; split <;> rfl
@[simp] theorem State.modThread_ports (s : State) (c i : Nat) (f : Thread → Thread) :
    (s.modThread c i f).ports = s.ports := by
  unfold State.modThread; split <;> rfl
@[simp] theorem State.modThread_routes (s : State) (c i : Nat) (f : Thread → Thread) :
    (s.modThread c i f).routes = s.routes := by
  unfold State.modThread; split <;> rfl
@[simp] theorem State.modThread_reroute (s : State) (c i : Nat) (f : Thread → Thread) :
    (s.modThread c i f).reroute = s.reroute := by
  unfold State.modThread; split <;> rfl
@[simp] theorem State.modThread_notices (s : State) (c i : Nat) (f : Thread → Thread) :
    (s.modThread c i f).notices = s.notices := by
  unfold State.modThread; split <;> rfl
@[simp] theorem State.modThread_pids (s : State) (c i : Nat) (f : Thread → Thread) :
    (s.modThread c i f).pids = s.pids := by
  unfold State.modThread; split <;> rfl
@[simp] theorem State.modThread_combines (s : State) (c i : Nat) (f : Thread → Thread) :
    (s.modThread c i f).combines = s.combines := by
  unfold State.modThread; split <;> rfl
@[simp] theorem State.modThread_forward (s : State) (c i : Nat) (f : Thread → Thread) :
    (s.modThread c i f).forward = s.forward := by
  unfold State.modThread; split <;> rfl
@[simp] theorem State.modThread_elog (s : State) (c i : Nat) (f : Thread → Thread) :
    (s.modThread c i f).elog = s.elog := by
  unfold State.modThread; split <;> rfl
@[simp] theorem State.modThread_vert (s : State) (c i : Nat) (f : Thread → Thread) :
    (s.modThread c i f).vert = s.vert := by
  unfold State.modThread; split <;> rfl
@[simp] theorem State.modThread_power (s : State) (c i : Nat) (f : Thread → Thread) :
    (s.modThread c i f).power = s.power := by
  unfold State.modThread; split <;> rfl
@[simp] theorem State.modThread_firm (s : State) (c i : Nat) (f : Thread → Thread) :
    (s.modThread c i f).firm = s.firm := by
  unfold State.modThread; split <;> rfl
@[simp] theorem State.modThread_events (s : State) (c i : Nat) (f : Thread → Thread) :
    (s.modThread c i f).events = s.events := by
  unfold State.modThread; split <;> rfl
@[simp] theorem State.modThread_ucieOut (s : State) (c i : Nat) (f : Thread → Thread) :
    (s.modThread c i f).ucieOut = s.ucieOut := by
  unfold State.modThread; split <;> rfl

/-! ### A core or a thread after its own update -/

@[simp] theorem State.core_setCore (s : State) (c : Nat) (k : CoreSt) : (s.setCore c k).core c = k := by
  simp [State.core, State.setCore]

theorem State.core_setCore_other (s : State) {c c' : Nat} (k : CoreSt) (h : c' ≠ c) :
    (s.setCore c k).core c' = s.core c' := by
  simp [State.core, State.setCore, tget_tset_other _ _ h]

@[simp] theorem State.core_modCore (s : State) (c : Nat) (f : CoreSt → CoreSt) :
    (s.modCore c f).core c = f (s.core c) := by
  simp [State.modCore]

theorem State.core_modCore_other (s : State) {c c' : Nat} (f : CoreSt → CoreSt) (h : c' ≠ c) :
    (s.modCore c f).core c' = s.core c' := by
  simp [State.modCore, State.core_setCore_other, h]

@[simp] theorem State.core_setThread (s : State) (c i : Nat) (t : Thread) :
    (s.setThread c i t).core c = { s.core c with threads := tset (s.core c).threads i t } := by
  simp [State.setThread]

theorem State.core_setThread_other (s : State) {c c' : Nat} (i : Nat) (t : Thread) (h : c' ≠ c) :
    (s.setThread c i t).core c' = s.core c' := by
  simp [State.setThread, State.core_modCore_other, h]

@[simp] theorem State.thread_setThread (s : State) (c i : Nat) (t : Thread) :
    (s.setThread c i t).thread? c i = some t := by
  simp [State.thread?]

theorem State.thread_setThread_other (s : State) (c : Nat) {i j : Nat} (t : Thread) (h : j ≠ i) :
    (s.setThread c i t).thread? c j = s.thread? c j := by
  simp [State.thread?, tget_tset_other _ _ h]

theorem State.modThread_eq {s : State} {c i : Nat} {t : Thread} (f : Thread → Thread) (h : s.thread? c i = some t) :
    s.modThread c i f = s.setThread c i (f t) := by
  simp [State.modThread, h]

@[simp] theorem State.core_tick (s : State) (c : Nat) : s.tick.core c = s.core c := rfl
@[simp] theorem State.core_bump (s : State) (c : Nat) : s.bump.core c = s.core c := rfl
@[simp] theorem State.thread_tick (s : State) (c i : Nat) : s.tick.thread? c i = s.thread? c i := rfl
@[simp] theorem State.thread_bump (s : State) (c i : Nat) : s.bump.thread? c i = s.thread? c i := rfl

/-- The registers of a thread after one of them was written (R25, R26). -/
theorem Thread.greg_setGreg (t : Thread) (n m : Nat) (x : Word) :
    (t.setGreg n x).greg m = if m = n ∧ n < 10 then x else t.greg m := by
  simp only [Thread.greg, Thread.setGreg, Vector.getElem?_setIfInBounds]
  by_cases h : n = m
  · subst h
    by_cases hn : n < 10 <;> simp [hn]
  · simp [h, Ne.symm h]

end Sys2Proof.Machine
end

