-- ==== Sys2Proof/Laws/Issue.lean ====
section
/-! SUPPORT. Laws of the issue of a chain: when it executes, what its body is given, and how the thread goes on. -/

namespace Sys2Proof.Machine

@[simp] theorem ctxOf_core (s : State) (t : Thread) (o : Op) (c : Chain) : (ctxOf s t o c).core = s.cur.1 := rfl
@[simp] theorem ctxOf_slot (s : State) (t : Thread) (o : Op) (c : Chain) : (ctxOf s t o c).slot = s.cur.2 := rfl
@[simp] theorem ctxOf_o (s : State) (t : Thread) (o : Op) (c : Chain) : (ctxOf s t o c).o = o := rfl
@[simp] theorem ctxOf_c (s : State) (t : Thread) (o : Op) (c : Chain) : (ctxOf s t o c).c = c := rfl
@[simp] theorem ctxOf_start (s : State) (t : Thread) (o : Op) (c : Chain) : (ctxOf s t o c).start = t.pc := rfl
@[simp] theorem ctxOf_next (s : State) (t : Thread) (o : Op) (c : Chain) : (ctxOf s t o c).next = nextPc o c t := rfl
@[simp] theorem ctxOf_pw (s : State) (t : Thread) (o : Op) (c : Chain) : (ctxOf s t o c).pw = t.pw := rfl
@[simp] theorem ctxOf_imm (s : State) (t : Thread) (o : Op) (c : Chain) : (ctxOf s t o c).imm = immVal o c := rfl

@[simp] theorem ctxOf_et (s : State) (t : Thread) (o : Op) (c : Chain) : (ctxOf s t o c).et = etCode o c := rfl
@[simp] theorem ctxOf_immNat (s : State) (t : Thread) (o : Op) (c : Chain) :
    (ctxOf s t o c).immNat = (immInt o c).toNat := rfl

@[simp] theorem issuedThread_scalar (s : State) (t : Thread) (f : BitVec 4) :
    (issuedThread s t).scalar f = t.scalar f := rfl
@[simp] theorem issuedThread_greg (s : State) (t : Thread) (n : Nat) : (issuedThread s t).greg n = t.greg n := rfl
@[simp] theorem issuedThread_vreg (s : State) (t : Thread) (n : Nat) : (issuedThread s t).vreg n = t.vreg n := rfl
@[simp] theorem issuedThread_mask (s : State) (t : Thread) (n : Nat) : (issuedThread s t).mask n = t.mask n := rfl

/-- The issue takes its slot: the core's cycle, the thread's note, the cleared PP. -/
theorem issued_eq {s : State} {t : Thread} (o : Op) (c : Chain) (h : s.here = some t) :
    issued s (ctxOf s t o c) =
      ((s.modCore s.cur.1 fun k => { k with cyc := issueCycle s s.cur.1 t }).setThread s.cur.1 s.cur.2
        { t with lastIssue := some (issueCycle s s.cur.1 t) }).tick.setThread s.cur.1 s.cur.2 (issuedThread s t) := by
  have h' : s.thread? s.cur.1 s.cur.2 = some t := h
  have h1 : (s.modCore s.cur.1 fun k => { k with cyc := issueCycle s s.cur.1 t }).thread? s.cur.1 s.cur.2 = some t := by
    simpa [State.thread?] using h'
  simp only [issued, State.issueAt, ctxOf_core, ctxOf_slot, h', State.modThread_eq _ h1]
  rw [State.modThread_eq (t := { t with lastIssue := some (issueCycle s s.cur.1 t) }) _ (by simp)]
  rfl

@[simp] theorem issued_here {s : State} {t : Thread} (o : Op) (c : Chain) (h : s.here = some t) :
    (issued s (ctxOf s t o c)).thread? s.cur.1 s.cur.2 = some (issuedThread s t) := by
  rw [issued_eq o c h]; simp

/-- A chain that passes every check executes (R38). -/
theorem issueChain_executes {o : Op} {c : Chain} {s : State} {t : Thread} (body : Ctx → Thread → State → Out)
    (h : s.here = some t) (hx : executable s t o c = true) :
    issueChain o c body s = .next (conclude s (ctxOf s t o c)
      (body (ctxOf s t o c) (issuedThread s t) (issued s (ctxOf s t o c)))) := by
  have h' : s.thread? s.cur.1 s.cur.2 = some t := h
  simp only [executable, Bool.and_eq_true, Bool.not_eq_true', Option.isNone_iff_eq_none] at hx
  obtain ⟨⟨⟨⟨⟨⟨⟨h1, h2⟩, h3⟩, h4⟩, h5⟩, h6⟩, h7⟩, h8⟩ := hx
  have hi := issued_here o c h
  simp only [ctxOf] at hi ⊢
  simp only [issueChain, h', h1, h2, h3, h4, h5, h6, h7, h8, hi, orPoison, Option.isSome_none, Bool.not_true,
    Bool.false_eq_true, if_false]

/-! ### Frames -/

theorem SameMemory.refl (s : State) : SameMemory s s := ⟨fun _ => rfl, fun _ _ => ⟨rfl, rfl, rfl⟩⟩

theorem Framed.refl (s : State) : Framed s s :=
  ⟨rfl, fun _ _ => rfl, rfl, fun _ _ => rfl, SameMemory.refl s⟩

/-- A state framed but for its memories keeps them, since they are fields of what is kept. -/
theorem framed_of {s u : State} (h1 : u = { s with cores := u.cores, freeCtr := u.freeCtr, nextId := u.nextId })
    (h2 : ∀ c, c ≠ s.cur.1 → u.core c = s.core c)
    (h3 : u.hereCore = { s.hereCore with cyc := u.hereCore.cyc, threads := u.hereCore.threads })
    (h4 : ∀ i, i ≠ s.cur.2 → u.thread? s.cur.1 i = s.thread? s.cur.1 i) : Framed s u := by
  refine ⟨h1, h2, h3, h4, ?_, ?_⟩
  · intro a; rw [h1]
  · intro c a
    by_cases hc : c = s.cur.1
    · subst hc
      have hcur : u.cur = s.cur := by rw [h1]
      have h3' : u.core s.cur.1 = { s.core s.cur.1 with
          cyc := u.hereCore.cyc, threads := u.hereCore.threads } := by
        have := h3
        simp only [State.hereCore, hcur] at this ⊢
        exact this
      rw [h3']
      exact ⟨rfl, rfl, rfl⟩
    · rw [h2 c hc]; exact ⟨rfl, rfl, rfl⟩

theorem Framed.cur {s u : State} (h : Framed s u) : u.cur = s.cur := by rw [h.1]

theorem Framed.setThread {s u : State} (h : Framed s u) (t : Thread) : Framed s (u.setThread s.cur.1 s.cur.2 t) := by
  have hc := h.cur
  obtain ⟨h1, h2, h3, h4, -⟩ := h
  apply framed_of
  · conv_lhs => rw [State.setThread, State.modCore, State.setCore, h1]
    rfl
  · intro c hne
    rw [State.core_setThread_other _ _ _ hne]
    exact h2 c hne
  · simp only [State.hereCore, State.setThread_cur, hc, State.core_setThread] at h3 ⊢
    rw [h3]
  · intro i hi
    rw [State.thread_setThread_other _ _ _ hi]
    exact h4 i hi

theorem Framed.tick {s u : State} (h : Framed s u) : Framed s u.tick := by
  obtain ⟨h1, h2, h3, h4, h5⟩ := h
  refine ⟨?_, h2, h3, h4, h5⟩
  conv_lhs => rw [State.tick, h1]
  rfl

theorem Framed.bump {s u : State} (h : Framed s u) : Framed s u.bump := by
  obtain ⟨h1, h2, h3, h4, h5⟩ := h
  refine ⟨?_, h2, h3, h4, h5⟩
  conv_lhs => rw [State.bump, h1]
  rfl

theorem Framed.cyc {s u : State} (h : Framed s u) (n : Nat) :
    Framed s (u.modCore s.cur.1 fun k => { k with cyc := n }) := by
  have hc := h.cur
  obtain ⟨h1, h2, h3, h4, -⟩ := h
  apply framed_of
  · conv_lhs => rw [State.modCore, State.setCore, h1]
    rfl
  · intro c hne
    rw [State.core_modCore_other _ _ hne]
    exact h2 c hne
  · simp only [State.hereCore, State.modCore_cur, hc, State.core_modCore] at h3 ⊢
    rw [h3]
  · intro i hi
    simp only [State.thread?, State.core_modCore] at h4 ⊢
    exact h4 i hi

theorem Framed.modThread {s u : State} (h : Framed s u) (f : Thread → Thread) :
    Framed s (u.modThread s.cur.1 s.cur.2 f) := by
  unfold State.modThread
  split
  · exact h
  · exact h.setThread _

theorem Framed.issued {s : State} {t : Thread} (o : Op) (c : Chain) (h : s.here = some t) :
    Framed s (issued s (ctxOf s t o c)) := by
  rw [issued_eq o c h]
  exact ((((Framed.refl s).cyc _).setThread _).tick).setThread _

theorem Framed.addPend {s u : State} (h : Framed s u) (res : List Res) (ws : Option (List RegWrite)) :
    Framed s (addPend u s.cur.1 s.cur.2 res ws) := (h.modThread _).bump

theorem Framed.settle {s u : State} (h : Framed s u) : Framed s (settle u s.cur.1 s.cur.2) := by
  unfold Machine.settle
  split
  · exact h
  · split
    · split
      · exact (h.setThread _).bump
      · exact h
    · exact h

theorem Framed.finishAt {s u : State} {t : Thread} {o : Op} {c : Chain} (h : Framed s u) (pc : Nat) :
    Framed s (finishAt u (ctxOf s t o c) pc) := by
  unfold Machine.finishAt
  split
  · exact ((h.modThread _).modThread _).settle
  · exact h.modThread _

/-! ### The cycle counters -/

@[simp] theorem State.cyc_setThread (s : State) (c i d : Nat) (t : Thread) : (s.setThread c i t).cyc d = s.cyc d := by
  unfold State.cyc
  by_cases h : d = c
  · subst h; rw [State.core_setThread]
  · rw [State.core_setThread_other _ _ _ h]

@[simp] theorem State.cyc_modThread (s : State) (c i d : Nat) (f : Thread → Thread) :
    (s.modThread c i f).cyc d = s.cyc d := by
  unfold State.modThread
  split
  · rfl
  · rw [State.cyc_setThread]

@[simp] theorem State.cyc_settle (s : State) (c i d : Nat) : (settle s c i).cyc d = s.cyc d := by
  unfold Machine.settle
  split
  · rfl
  · split
    · split
      · exact State.cyc_setThread _ _ _ _ _
      · rfl
    · rfl

@[simp] theorem State.cyc_finishAt (s : State) (x : Ctx) (pc d : Nat) : (finishAt s x pc).cyc d = s.cyc d := by
  unfold Machine.finishAt
  split <;> simp

theorem issued_cyc {s : State} {t : Thread} (o : Op) (c : Chain) (h : s.here = some t) :
    (issued s (ctxOf s t o c)).cyc s.cur.1 = issueCycle s s.cur.1 t := by
  rw [issued_eq o c h, State.cyc_setThread]
  show ((s.modCore s.cur.1 _).setThread _ _ _).cyc _ = _
  rw [State.cyc_setThread]
  simp [State.cyc]

/-! ### How the thread goes on -/

/-- The thread after the end of a chain (R35). -/
def endedThread (c : Chain) (t : Thread) (pc : Nat) : Thread :=
  if c.marker then
    if t.pend = [] then { t with pc := pc, atHome := none, span := [], status := .ready }
    else { t with pc := pc, atHome := none, status := .parked false }
  else { t with pc := pc, atHome := none }

theorem finishAt_thread {s u : State} {t0 t : Thread} {o : Op} {c : Chain} (pc : Nat)
    (h : u.thread? s.cur.1 s.cur.2 = some t) :
    (finishAt u (ctxOf s t0 o c) pc).thread? s.cur.1 s.cur.2 = some (endedThread c t pc) := by
  unfold Machine.finishAt endedThread
  simp only [ctxOf_core, ctxOf_slot, ctxOf_c]
  rw [State.modThread_eq _ h]
  by_cases hm : c.marker = true
  · simp only [hm, if_true]
    rw [State.modThread_eq (t := { t with pc := pc, atHome := none }) _ (by simp)]
    unfold settle
    simp only [State.thread_setThread, List.isEmpty_iff]
    by_cases hp : t.pend = []
    · simp only [hp, if_true, State.thread_bump, State.thread_setThread, Thread.newSpan]
      simp
    · simp only [hp, if_false, State.thread_setThread]
  · simp [hm]

/-- Where a chain is `done`, the thread goes on at the next chain. -/
theorem conclude_done {s u : State} {t t' : Thread} {o : Op} {c : Chain} (h : u.thread? s.cur.1 s.cur.2 = some t')
    (hf : Framed s u) :
    (conclude s (ctxOf s t o c) (.done u)).here = some (endedThread c t' (nextPc o c t)) ∧
      Framed s (conclude s (ctxOf s t o c) (.done u)) := by
  have hf' : Framed s (finishAt u (ctxOf s t o c) (nextPc o c t)) := hf.finishAt _
  have hc : (finishAt u (ctxOf s t o c) (nextPc o c t)).cur = s.cur := hf'.cur
  refine ⟨?_, hf'⟩
  simp only [conclude, ctxOf_next, State.here, hc]
  exact finishAt_thread _ h

/-- Where a chain is a `jump`, the thread goes on at its target. -/
theorem conclude_jump {s u : State} {t t' : Thread} {o : Op} {c : Chain} (pc : Nat)
    (h : u.thread? s.cur.1 s.cur.2 = some t') (hf : Framed s u) :
    (conclude s (ctxOf s t o c) (.jump u pc)).here = some (endedThread c t' pc) ∧
      Framed s (conclude s (ctxOf s t o c) (.jump u pc)) := by
  have hf' : Framed s (finishAt u (ctxOf s t o c) pc) := hf.finishAt _
  have hc : (finishAt u (ctxOf s t o c) pc).cur = s.cur := hf'.cur
  refine ⟨?_, hf'⟩
  simp only [conclude, State.here, hc]
  exact finishAt_thread _ h

theorem goesOn_ended (c : Chain) (t : Thread) (pc : Nat) (hr : t.status = .ready) :
    GoesOn c (endedThread c t pc) pc t.pend t.span := by
  unfold GoesOn endedThread
  by_cases hm : c.marker = true
  · by_cases hp : t.pend = [] <;> simp [hm, hp]
  · simp [hm, hr]

/-- A thread that ends a chain keeps what the issue does not touch. -/
theorem kept_ended {t t' : Thread} (c : Chain) (pc : Nat) (h : Kept t t') : Kept t (endedThread c t' pc) := by
  unfold Kept at h ⊢
  unfold endedThread
  split
  · split <;> (rw [h])
  · rw [h]

@[simp] theorem endedThread_greg (c : Chain) (t : Thread) (pc n : Nat) :
    (endedThread c t pc).greg n = t.greg n := by
  unfold endedThread; split
  · split <;> rfl
  · rfl

@[simp] theorem endedThread_pw (c : Chain) (t : Thread) (pc : Nat) : (endedThread c t pc).pw = t.pw := by
  unfold endedThread; split
  · split <;> rfl
  · rfl

theorem isReady_status {t : Thread} (h : t.isReady = true) : t.status = .ready := by
  simp only [Thread.isReady, Bool.and_eq_true, beq_iff_eq] at h
  exact h.1

theorem executable_ready {s : State} {t : Thread} {o : Op} {c : Chain} (h : executable s t o c = true) :
    t.status = .ready := by
  simp only [executable, Bool.and_eq_true] at h
  exact isReady_status h.1.1.1.1.1.1.1

end Sys2Proof.Machine
end

