-- ==== Sys2Proof/Laws/Operands.lean ====
section
/-! SUPPORT. Laws of the operand forms: what a field without a queue port reads, and what a result written at once, a
predicate, the predicate word or a pending result leaves. -/

namespace Sys2Proof.Machine

@[simp] theorem pwOrFlags_zero (pw : Word) : pwOrFlags pw 0#5 = pw := by simp [pwOrFlags, word]

theorem pwOrFlags_none (pw : Word) : pwOrFlags pw 0 = pw := pwOrFlags_zero pw

/-- A source field that names no queue port is a register (R25). -/
theorem readField_reg {s : State} {x : Ctx} {t : Thread} {f : BitVec 4} (h : isQueue f = false) :
    readField s x t f = .ok (t.scalar f, s, false) := by
  simp [readField, h]

/-- The operands x and y without a queue port. -/
theorem sources2_plain {s : State} {x : Ctx} {t : Thread} (h : portless x.c = true) :
    sources2 s x t = .ok (operandX x.c t, operandY x.o x.c t, s, false) := by
  simp only [portless, Bool.and_eq_true, Bool.or_eq_true, Bool.not_eq_true'] at h
  simp only [sources2, readField_reg h.1, operandX, operandY, Ctx.imm]
  by_cases h1 : x.c.hasImm = true
  · simp [h1]
  · by_cases h2 : x.c.hasReg = true
    · have hb : isQueue x.c.b = false := by have := h.2; simp_all
      simp [h1, h2, readField_reg hb]
    · simp [h1, h2]

/-- The effective address without a queue port. -/
theorem memAddr_plain {s : State} {x : Ctx} {t : Thread} (h : portless x.c = true) :
    memAddr s x t = .ok (addressOf x.o x.c t, s, false) := by
  simp only [portless, Bool.and_eq_true, Bool.or_eq_true, Bool.not_eq_true'] at h
  simp only [memAddr, addressOf, Ctx.imm]
  by_cases h1 : x.c.hasImm = true
  · simp [h1]
  · by_cases h2 : x.c.hasReg = true
    · have hb : isQueue x.c.b = false := by have := h.2; simp_all
      simp [h1, h2, readField_reg hb]
    · simp [h1, h2]

/-- The effective address of an issued chain without a queue port. -/
theorem memAddr_issued {s s' : State} {t : Thread} {o : Op} {c : Chain} (h : portless c = true) :
    memAddr s' (ctxOf s t o c) (issuedThread s t) = .ok (addressOf o c t, s', false) := memAddr_plain h

/-- The end of a chain whose effect is a change of its thread's registers, predicate word and pending results. -/
theorem done_thread {s : State} {t t' : Thread} {o : Op} {c : Chain} (h : s.here = some t)
    (hk : Kept t t') (hr : t'.status = .ready) :
    ∃ u τ, conclude s (ctxOf s t o c) (.done ((issued s (ctxOf s t o c)).setThread s.cur.1 s.cur.2 t')) = u ∧
      u.here = some τ ∧ Framed s u ∧ Kept t τ ∧ GoesOn c τ (nextPc o c t) t'.pend t'.span ∧ τ.pw = t'.pw ∧
      ∀ n, τ.greg n = t'.greg n := by
  obtain ⟨h1, h2⟩ := conclude_done (s := s) (t := t) (o := o) (c := c)
    (u := (issued s (ctxOf s t o c)).setThread s.cur.1 s.cur.2 t') (t' := t')
    (State.thread_setThread _ _ _ _) ((Framed.issued o c h).setThread _)
  exact ⟨_, _, rfl, h1, h2, kept_ended _ _ hk, goesOn_ended _ _ _ hr, endedThread_pw _ _ _, fun _ => endedThread_greg _ _ _ _⟩

/-- The thread at hand with a scalar register and its predicate word written. -/
def wroteScalar (s : State) (t : Thread) (d : BitVec 4) (v pw : Word) : Thread :=
  { (issuedThread s t).setScalar d v with pw := pw }

theorem wroteScalar_kept (s : State) (t : Thread) (d : BitVec 4) (v pw : Word) : Kept t (wroteScalar s t d v pw) := by
  unfold Kept; rfl

theorem wroteScalar_ready {s : State} {t : Thread} {d : BitVec 4} {v pw : Word} (h : t.status = .ready) :
    (wroteScalar s t d v pw).status = .ready := h

theorem wroteScalar_pw {s : State} {t : Thread} {d : BitVec 4} {v pw : Word} : (wroteScalar s t d v pw).pw = pw := rfl

theorem wroteScalar_pend {s : State} {t : Thread} {d : BitVec 4} {v pw : Word} :
    (wroteScalar s t d v pw).pend = t.pend := rfl

theorem wroteScalar_span {s : State} {t : Thread} {d : BitVec 4} {v pw : Word} :
    (wroteScalar s t d v pw).span = t.span := rfl

theorem wroteScalar_greg (s : State) (t : Thread) (d : BitVec 4) (v pw : Word) (n : Nat) :
    (wroteScalar s t d v pw).greg n = if n = d.toNat ∧ d.toNat < 10 then v else t.greg n :=
  Thread.greg_setGreg (issuedThread s t) d.toNat n v

/-- What a result written to a register at once leaves of the thread. -/
theorem writeField_short {s : State} {t : Thread} {o : Op} {c : Chain} (v : Word) (fl : Flags) (h : s.here = some t)
    (hd : isQueue c.d = false) :
    writeField (issued s (ctxOf s t o c)) (ctxOf s t o c) c.d v false fl =
      .done ((issued s (ctxOf s t o c)).setThread s.cur.1 s.cur.2
        (wroteScalar s t c.d v (pwOrFlags (clearPP t.pw) fl))) := by
  simp only [writeField, hd, ctxOf_core, ctxOf_slot, Bool.false_eq_true, if_false]
  rw [State.modThread_eq _ (issued_here o c h)]
  rfl

/-- A register write without exceptions. -/
theorem writeField_plain {s : State} {t : Thread} {o : Op} {c : Chain} (v : Word) (h : s.here = some t)
    (hd : isQueue c.d = false) :
    writeField (issued s (ctxOf s t o c)) (ctxOf s t o c) c.d v false 0 =
      .done ((issued s (ctxOf s t o c)).setThread s.cur.1 s.cur.2 (wroteScalar s t c.d v (clearPP t.pw))) := by
  rw [writeField_short v 0 h hd, pwOrFlags_none]

/-- A result written to a register at once. -/
theorem short_result {s : State} {t : Thread} {o : Op} {c : Chain} (v : Word) (fl : Flags) (h : s.here = some t)
    (hx : executable s t o c = true) (hd : isQueue c.d = false) :
    ∃ u τ, conclude s (ctxOf s t o c) (writeField (issued s (ctxOf s t o c)) (ctxOf s t o c) c.d v false fl) = u ∧
      u.here = some τ ∧ ShortResult o c s u t τ v fl := by
  rw [writeField_short v fl h hd]
  obtain ⟨u, τ, h1, h2, h3, h4, h5, h6, h7⟩ := done_thread (o := o) (c := c) h
    (wroteScalar_kept s t c.d v (pwOrFlags (clearPP t.pw) fl)) (wroteScalar_ready (executable_ready hx))
  rw [wroteScalar_pend, wroteScalar_span] at h5
  rw [wroteScalar_pw] at h6
  refine ⟨u, τ, h1, h2, h3, h4, h5, h6, ?_, ?_⟩
  · intro n hn hne
    rw [h7, wroteScalar_greg]
    simp only [List.mem_singleton] at hne
    simp [hne]
  · intro hn
    rw [h7, wroteScalar_greg]
    simp [hn]

/-- The thread at hand with its predicate word written. -/
def wrotePw (s : State) (t : Thread) (pw : Word) : Thread := { issuedThread s t with pw := pw }

theorem wrotePw_kept (s : State) (t : Thread) (pw : Word) : Kept t (wrotePw s t pw) := by unfold Kept; rfl

theorem wrotePw_ready {s : State} {t : Thread} {pw : Word} (h : t.status = .ready) :
    (wrotePw s t pw).status = .ready := h

/-- A result written to a predicate at once. -/
theorem pred_result {s : State} {t : Thread} {o : Op} {c : Chain} (b : Bool) (fl : Flags) (h : s.here = some t)
    (hx : executable s t o c = true) :
    ∃ u τ, conclude s (ctxOf s t o c) (writePred (issued s (ctxOf s t o c)) (ctxOf s t o c) c.d.toNat b false fl) = u ∧
      u.here = some τ ∧ PredResult o c s u t τ b fl := by
  have hb : writePred (issued s (ctxOf s t o c)) (ctxOf s t o c) c.d.toNat b false fl =
      .done ((issued s (ctxOf s t o c)).setThread s.cur.1 s.cur.2
        (wrotePw s t (pwOrFlags (pwSetPred (clearPP t.pw) c.d.toNat b) fl))) := by
    simp only [writePred, ctxOf_core, ctxOf_slot, Bool.false_eq_true, if_false]
    rw [State.modThread_eq _ (issued_here o c h)]
    rfl
  rw [hb]
  obtain ⟨u, τ, h1, h2, h3, h4, h5, h6, h7⟩ := done_thread (o := o) (c := c) h
    (wrotePw_kept s t (pwOrFlags (pwSetPred (clearPP t.pw) c.d.toNat b) fl)) (wrotePw_ready (executable_ready hx))
  exact ⟨u, τ, h1, h2, h3, h4, h5, h6, fun n _ _ => h7 n⟩

/-- A change of the predicate word alone. -/
theorem pw_result {s : State} {t t' : Thread} {o : Op} {c : Chain} (body : Ctx → Thread → State → Out)
    (h : s.here = some t) (hx : executable s t o c = true) (f : Thread → Thread)
    (hb : body (ctxOf s t o c) (issuedThread s t) (issued s (ctxOf s t o c)) =
      .done ((issued s (ctxOf s t o c)).modThread s.cur.1 s.cur.2 f))
    (hf : f (issuedThread s t) = t') (hk : Kept t t') (hr : t'.status = t.status) (hp : t'.pend = t.pend)
    (hs : t'.span = t.span) (hg : ∀ n, t'.greg n = t.greg n) :
    ∃ u τ, issueChain o c body s = .next u ∧ u.here = some τ ∧ PwResult o c s u t τ t'.pw := by
  rw [issueChain_executes _ h hx, hb, State.modThread_eq _ (issued_here o c h), hf]
  obtain ⟨u, τ, h1, h2, h3, h4, h5, h6, h7⟩ := done_thread (o := o) (c := c) h hk (hr.trans (executable_ready hx))
  rw [hp, hs] at h5
  exact ⟨u, τ, congrArg _ h1, h2, h3, h4, h5, h6, fun n _ _ => (h7 n).trans (hg n)⟩

/-- A chain that goes on at a pc with its thread unchanged. -/
theorem jump_result {s : State} {t : Thread} {o : Op} {c : Chain} (pc : Nat) (h : s.here = some t)
    (hx : executable s t o c = true) :
    ∃ u τ, conclude s (ctxOf s t o c) (.jump (issued s (ctxOf s t o c)) pc) = u ∧
      u.here = some τ ∧ FlowResult c s u t τ pc [] := by
  obtain ⟨h1, h2⟩ := conclude_jump (s := s) (t := t) (o := o) (c := c) pc (issued_here o c h) (Framed.issued o c h)
  have hk : Kept t (wrotePw s t (clearPP t.pw)) := wrotePw_kept _ _ _
  exact ⟨_, _, rfl, h1, h2, kept_ended _ _ hk, goesOn_ended _ _ _ (wrotePw_ready (executable_ready hx)),
    endedThread_pw _ _ _, fun n _ _ => endedThread_greg _ _ _ _⟩

/-- A chain that goes on at a pc with a link written. -/
theorem link_result {s : State} {t : Thread} {o : Op} {c : Chain} (v : Word) (pc : Nat) (h : s.here = some t)
    (hx : executable s t o c = true) :
    ∃ u τ, conclude s (ctxOf s t o c) (.jump ((issued s (ctxOf s t o c)).setThread s.cur.1 s.cur.2
        (wroteScalar s t c.d v (clearPP t.pw))) pc) = u ∧
      u.here = some τ ∧ FlowResult c s u t τ pc [c.d.toNat] ∧ (c.d.toNat < 10 → τ.greg c.d.toNat = v) := by
  obtain ⟨h1, h2⟩ := conclude_jump (s := s) (t := t) (o := o) (c := c)
    (u := (issued s (ctxOf s t o c)).setThread s.cur.1 s.cur.2 (wroteScalar s t c.d v (clearPP t.pw)))
    (t' := wroteScalar s t c.d v (clearPP t.pw)) pc (State.thread_setThread _ _ _ _) ((Framed.issued o c h).setThread _)
  refine ⟨_, _, rfl, h1, ⟨h2, kept_ended _ _ (wroteScalar_kept _ _ _ _ _),
    goesOn_ended _ _ _ (wroteScalar_ready (executable_ready hx)), endedThread_pw _ _ _, ?_⟩, ?_⟩
  · intro n hn hne
    rw [endedThread_greg, wroteScalar_greg]
    simp only [List.mem_singleton] at hne
    simp [hne]
  · intro hn
    rw [endedThread_greg, wroteScalar_greg]
    simp [hn]

/-- The thread at hand with a pending result. -/
def wrotePend (s : State) (t : Thread) (res : List Res) (p : Pend) : Thread :=
  { issuedThread s t with span := t.span ++ res, pend := t.pend ++ [p] }

theorem wrotePend_ready {s : State} {t : Thread} {res : List Res} {p : Pend} (h : t.status = .ready) :
    (wrotePend s t res p).status = .ready := h

/-- A long result becomes pending. -/
theorem long_result {s : State} {t : Thread} {o : Op} {c : Chain} (res : List Res) (ws : List RegWrite)
    (h : s.here = some t) (hx : executable s t o c = true) (hr : res ≠ []) :
    ∃ u τ, conclude s (ctxOf s t o c) (.done (addPend (issued s (ctxOf s t o c)) s.cur.1 s.cur.2 res (some ws))) = u ∧
      u.here = some τ ∧ LongResult o c s u t τ res ws := by
  have he : res.isEmpty = false := by simpa [List.isEmpty_iff] using hr
  have hb : addPend (issued s (ctxOf s t o c)) s.cur.1 s.cur.2 res (some ws) =
      ((issued s (ctxOf s t o c)).setThread s.cur.1 s.cur.2
        (wrotePend s t res ⟨(issued s (ctxOf s t o c)).nextId, some ws, resReg res⟩)).bump := by
    unfold addPend
    rw [State.modThread_eq _ (issued_here o c h)]
    simp only [he, Bool.false_eq_true, if_false]
    rfl
  rw [hb]
  generalize (issued s (ctxOf s t o c)).nextId = id
  obtain ⟨h1, h2⟩ := conclude_done (s := s) (t := t) (o := o) (c := c)
    (u := ((issued s (ctxOf s t o c)).setThread s.cur.1 s.cur.2 (wrotePend s t res ⟨id, some ws, resReg res⟩)).bump)
    (by rw [State.thread_bump, State.thread_setThread]) (((Framed.issued o c h).setThread _).bump)
  have hk : Kept t (wrotePend s t res ⟨id, some ws, resReg res⟩) := by unfold Kept; rfl
  refine ⟨_, _, rfl, h1, h2, kept_ended _ _ hk, fun n _ _ => endedThread_greg _ _ _ _, ?_⟩
  rw [if_neg hr]
  exact ⟨⟨id, goesOn_ended _ _ _ (wrotePend_ready (executable_ready hx))⟩, endedThread_pw _ _ _⟩

/-- A long result of a scalar register; one of zr is discarded. -/
theorem long_scalar_result {s : State} {t : Thread} {o : Op} {c : Chain} (v : Word) (fl : Flags) (extra : List Res)
    (h : s.here = some t) (hx : executable s t o c = true) :
    ∃ u τ, conclude s (ctxOf s t o c) (.done (addPend (issued s (ctxOf s t o c)) s.cur.1 s.cur.2 (gRes c.d ++ extra)
        (some [.g c.d.toNat v, .flags fl]))) = u ∧
      u.here = some τ ∧ LongResult o c s u t τ (gRes c.d ++ extra) [.g c.d.toNat v, .flags fl] := by
  by_cases hr : gRes c.d ++ extra = []
  · have hd : ¬ c.d.toNat < 10 := by
      intro hd
      simp [gRes, hd] at hr
    have hb : addPend (issued s (ctxOf s t o c)) s.cur.1 s.cur.2 (gRes c.d ++ extra) (some [.g c.d.toNat v, .flags fl]) =
        ((issued s (ctxOf s t o c)).setThread s.cur.1 s.cur.2
          (wroteScalar s t c.d v (pwOrFlags (clearPP t.pw) fl))).bump := by
      unfold addPend
      rw [State.modThread_eq _ (issued_here o c h), hr]
      rfl
    rw [hb]
    obtain ⟨h1, h2⟩ := conclude_done (s := s) (t := t) (o := o) (c := c)
      (u := ((issued s (ctxOf s t o c)).setThread s.cur.1 s.cur.2
        (wroteScalar s t c.d v (pwOrFlags (clearPP t.pw) fl))).bump)
      (by rw [State.thread_bump, State.thread_setThread]) (((Framed.issued o c h).setThread _).bump)
    refine ⟨_, _, rfl, h1, h2, kept_ended _ _ (wroteScalar_kept _ _ _ _ _), ?_, ?_⟩
    · intro n hn _
      rw [endedThread_greg, wroteScalar_greg]
      simp [hd]
    · rw [if_pos hr]
      exact ⟨goesOn_ended _ _ _ (wroteScalar_ready (executable_ready hx)), endedThread_pw _ _ _⟩
  · exact long_result _ _ h hx hr

/-- A long result of a scalar destination. -/
theorem writeField_long {s : State} {x : Ctx} {f : BitVec 4} (v : Word) (fl : Flags) (extra : List Res)
    (hd : isQueue f = false) :
    writeField s x f v true fl extra = .done (addPend s x.core x.slot (gRes f ++ extra) (some [.g f.toNat v, .flags fl])) := by
  simp [writeField, hd]

end Sys2Proof.Machine
end

