-- ==== Sys2Proof/Laws/Scalar.lean ====
section
/-! SUPPORT. Laws of the scalar shapes: what a chain with each body does where no field names a queue port. -/

namespace Sys2Proof.Machine

theorem portless_a {c : Chain} (h : portless c = true) : isQueue c.a = false := by
  simp only [portless, Bool.and_eq_true, Bool.not_eq_true'] at h
  exact h.1

/-- d := f(x, y), short (R93). -/
theorem alu2_result (f : Word → Word → Word) {o : Op} {c : Chain} {s : State} {t : Thread} (h : s.here = some t)
    (hx : executable s t o c = true) (hp : portless c = true) (hd : isQueue c.d = false) :
    ∃ u τ, issueChain o c (alu2 f) s = .next u ∧ u.here = some τ ∧
      ShortResult o c s u t τ (f (operandX c t) (operandY o c t)) 0 := by
  rw [issueChain_executes _ h hx]
  simp only [alu2]
  rw [sources2_plain (x := ctxOf s t o c) hp]
  obtain ⟨u, τ, h1, h2⟩ := short_result (o := o) (f (operandX c t) (operandY o c t)) 0 h hx hd
  exact ⟨u, τ, congrArg _ h1, h2⟩

/-- d := f(x, y), long (R94). -/
theorem alu2Long_result (f : Word → Word → Word) {o : Op} {c : Chain} {s : State} {t : Thread} (h : s.here = some t)
    (hx : executable s t o c = true) (hp : portless c = true) (hd : isQueue c.d = false) :
    ∃ u τ, issueChain o c (alu2Long f) s = .next u ∧ u.here = some τ ∧
      LongResult o c s u t τ (gRes c.d) [.g c.d.toNat (f (operandX c t) (operandY o c t)), .flags 0] := by
  rw [issueChain_executes _ h hx]
  simp only [alu2Long]
  rw [sources2_plain (x := ctxOf s t o c) hp]
  have hw := writeField_long (s := issued s (ctxOf s t o c)) (x := ctxOf s t o c)
    (f (operandX c t) (operandY o c t)) 0 [] hd
  obtain ⟨u, τ, h1, h2⟩ := long_scalar_result (o := o) (c := c) (f (operandX c t) (operandY o c t)) 0 [] h hx
  simp only [List.append_nil] at hw h1 h2
  refine ⟨u, τ, congrArg _ ?_, h2⟩
  rw [← h1]
  exact congrArg _ hw

/-- d := f(a) (R95). -/
theorem alu1_result (f : Word → Word) {o : Op} {c : Chain} {s : State} {t : Thread} (h : s.here = some t)
    (hx : executable s t o c = true) (ha : isQueue c.a = false) (hd : isQueue c.d = false) :
    ∃ u τ, issueChain o c (alu1 f) s = .next u ∧ u.here = some τ ∧
      ShortResult o c s u t τ (f (t.scalar c.a)) 0 := by
  rw [issueChain_executes _ h hx]
  simp only [alu1]
  rw [readField_reg (x := ctxOf s t o c) (f := (ctxOf s t o c).c.a) ha]
  obtain ⟨u, τ, h1, h2⟩ := short_result (o := o) (f (t.scalar c.a)) 0 h hx hd
  exact ⟨u, τ, congrArg _ h1, h2⟩

/-- p := f(a, second operand) (R97). -/
theorem cmp2_result (f : Word → Word → Bool) {o : Op} {c : Chain} {s : State} {t : Thread} (h : s.here = some t)
    (hx : executable s t o c = true) (hp : portless c = true) :
    ∃ u τ, issueChain o c (cmp2 f) s = .next u ∧ u.here = some τ ∧
      PredResult o c s u t τ (f (t.scalar c.a) (secondOf o c t)) 0 := by
  rw [issueChain_executes _ h hx]
  obtain ⟨u, τ, h1, h2⟩ := pred_result (o := o) (c := c) (f (t.scalar c.a) (secondOf o c t)) 0 h hx
  refine ⟨u, τ, congrArg _ ?_, h2⟩
  rw [← h1]
  congr 1
  simp only [portless, Bool.and_eq_true, Bool.or_eq_true, Bool.not_eq_true'] at hp
  simp only [cmp2]
  rw [readField_reg (x := ctxOf s t o c) (f := (ctxOf s t o c).c.a) hp.1]
  simp only [secondOf, ctxOf_c, ctxOf_imm]
  by_cases hi : c.hasImm = true
  · simp [hi]
  · by_cases hr : c.hasReg = true
    · have hb : isQueue c.b = false := by have := hp.2; simp_all
      simp [hi, hr, readField_reg hb]
    · simp [hi, hr]

/-- A predicate result without a port. -/
theorem writePred_result (b : Bool) (fl : Flags) (body : Ctx → Thread → State → Out) {o : Op} {c : Chain} {s : State}
    {t : Thread} (h : s.here = some t) (hx : executable s t o c = true)
    (hb : body (ctxOf s t o c) (issuedThread s t) (issued s (ctxOf s t o c)) =
      writePred (issued s (ctxOf s t o c)) (ctxOf s t o c) c.d.toNat b false fl) :
    ∃ u τ, issueChain o c body s = .next u ∧ u.here = some τ ∧ PredResult o c s u t τ b fl := by
  rw [issueChain_executes _ h hx, hb]
  obtain ⟨u, τ, h1, h2⟩ := pred_result (o := o) (c := c) b fl h hx
  exact ⟨u, τ, congrArg _ h1, h2⟩

/-- A register result without a port. -/
theorem writeField_result (v : Word) (fl : Flags) (body : Ctx → Thread → State → Out) {o : Op} {c : Chain} {s : State}
    {t : Thread} (h : s.here = some t) (hx : executable s t o c = true) (hd : isQueue c.d = false)
    (hb : body (ctxOf s t o c) (issuedThread s t) (issued s (ctxOf s t o c)) =
      writeField (issued s (ctxOf s t o c)) (ctxOf s t o c) c.d v false fl) :
    ∃ u τ, issueChain o c body s = .next u ∧ u.here = some τ ∧ ShortResult o c s u t τ v fl := by
  rw [issueChain_executes _ h hx, hb]
  obtain ⟨u, τ, h1, h2⟩ := short_result (o := o) (c := c) v fl h hx hd
  exact ⟨u, τ, congrArg _ h1, h2⟩

/-- A long register result without a port. -/
theorem writeLong_result (v : Word) (fl : Flags) (extra : List Res) (body : Ctx → Thread → State → Out) {o : Op}
    {c : Chain} {s : State} {t : Thread} (h : s.here = some t) (hx : executable s t o c = true)
    (hd : isQueue c.d = false)
    (hb : body (ctxOf s t o c) (issuedThread s t) (issued s (ctxOf s t o c)) =
      writeField (issued s (ctxOf s t o c)) (ctxOf s t o c) c.d v true fl extra) :
    ∃ u τ, issueChain o c body s = .next u ∧ u.here = some τ ∧
      LongResult o c s u t τ (gRes c.d ++ extra) [.g c.d.toNat v, .flags fl] := by
  rw [issueChain_executes _ h hx, hb, writeField_long v fl extra hd]
  obtain ⟨u, τ, h1, h2⟩ := long_scalar_result (o := o) (c := c) v fl extra h hx
  exact ⟨u, τ, congrArg _ h1, h2⟩

/-- A predicate of predicates (R98). -/
theorem pred2_result (f : Bool → Bool → Bool) {o : Op} {c : Chain} {s : State} {t : Thread} (h : s.here = some t)
    (hx : executable s t o c = true) :
    ∃ u τ, issueChain o c (pred2 f) s = .next u ∧ u.here = some τ ∧
      PredResult o c s u t τ (if c.hasReg then f (pwPred (clearPP t.pw) c.a.toNat) (pwPred (clearPP t.pw) c.b.toNat)
        else f (pwPred (clearPP t.pw) c.d.toNat) (pwPred (clearPP t.pw) c.a.toNat)) 0 :=
  writePred_result _ 0 _ h hx rfl

/-- Clearing PP and FSEL leaves the predicates (R32, R33). -/
theorem pwPred_clearPP (pw : Word) (n : BitVec 4) : pwPred (clearPP pw) n.toNat = pwPred pw n.toNat := by
  have h : n.toNat < 16 := n.isLt
  unfold pwPred clearPP bit
  congr 1
  rw [BitVec.getLsbD_and]
  have : (~~~ (0x0000_0003_FFE0_0000 : Word)).getLsbD n.toNat = true := by
    generalize n.toNat = k at h
    interval_cases k <;> decide
  rw [this, Bool.and_true]

end Sys2Proof.Machine
end

