-- ==== Sys2Proof/Laws/Vector.lean ====
section
/-! SUPPORT. Laws of vector elements and of the vector shapes: which element of a result holds what. -/

namespace Sys2Proof.Machine

/-! ### Elements -/

theorem packLanes_lt (w : Nat) (l : List Nat) : packLanes w l < 2 ^ (w * l.length) := by
  induction l with
  | nil => simp [packLanes]
  | cons x rest ih =>
    simp only [packLanes, List.length_cons]
    have hx : x % 2 ^ w < 2 ^ w := Nat.mod_lt _ (Nat.two_pow_pos w)
    have : w * (rest.length + 1) = w + w * rest.length := by ring
    rw [this, Nat.pow_add]
    calc x % 2 ^ w + 2 ^ w * packLanes w rest < 2 ^ w + 2 ^ w * packLanes w rest := by omega
      _ = 2 ^ w * (packLanes w rest + 1) := by ring
      _ ≤ 2 ^ w * 2 ^ (w * rest.length) := Nat.mul_le_mul_left _ ih

theorem lane_packLanes (w : Nat) (l : List Nat) (i : Nat) : lane w (packLanes w l) i = l.getD i 0 % 2 ^ w := by
  induction l generalizing i with
  | nil => simp [packLanes, lane]
  | cons x rest ih =>
    have hx : x % 2 ^ w < 2 ^ w := Nat.mod_lt _ (Nat.two_pow_pos w)
    cases i with
    | zero => simp [packLanes, lane, Nat.add_mul_mod_self_left]
    | succ k =>
      have h1 : (x % 2 ^ w + 2 ^ w * packLanes w rest) / 2 ^ (w * (k + 1)) = packLanes w rest / 2 ^ (w * k) := by
        have : w * (k + 1) = w + w * k := by ring
        rw [this, Nat.pow_add, ← Nat.div_div_eq_div_mul, Nat.add_mul_div_left _ _ (Nat.two_pow_pos w),
          Nat.div_eq_of_lt hx, Nat.zero_add]
      simp only [packLanes, lane, h1, List.getD_cons_succ]
      exact ih k

/-- The elements of a register of b bits that a list of at most b bits fills. -/
theorem lane_ofNat {b w : Nat} {l : List Nat} (h : w * l.length ≤ b) (i : Nat) :
    lane w (BitVec.ofNat b (packLanes w l)).toNat i = l.getD i 0 % 2 ^ w := by
  rw [BitVec.toNat_ofNat, Nat.mod_eq_of_lt, lane_packLanes]
  exact lt_of_lt_of_le (packLanes_lt w l) (Nat.pow_le_pow_right (by omega) h)

theorem active_eq (s : State) (t : Thread) (o : Op) (c : Chain) (i : Nat) :
    (ctxOf s t o c).active (issuedThread s t) i = laneActive o c t i := rfl

theorem zeroing_eq (s : State) (t : Thread) (o : Op) (c : Chain) : (ctxOf s t o c).zeroing = bit (immVal o c) 3 := rfl

/-- The elements and the exceptions of a result under mask control (R126, R127). -/
theorem lanesOf_lanes {s : State} {t : Thread} {o : Op} {c : Chain} {b n w : Nat} (old : Nat) (f : Nat → Nat × Flags)
    (h : w * n ≤ b) :
    LanesAre o c t n w old (fun i => (f i).1)
      (BitVec.ofNat b (lanesOf (ctxOf s t o c) (issuedThread s t) n w old f).1).toNat ∧
    (lanesOf (ctxOf s t o c) (issuedThread s t) n w old f).2 = lanesFlags o c t n fun i => (f i).2 := by
  constructor
  · intro i hi
    simp only [lanesOf, active_eq, zeroing_eq]
    rw [lane_ofNat (by simpa using h)]
    simp only [List.map_map, List.getD_eq_getElem?_getD, List.getElem?_map, List.getElem?_range hi, Option.map_some,
      Option.getD_some, Function.comp]
    by_cases ha : laneActive o c t i = true
    · simp [ha]
    · by_cases hz : bit (immVal o c) 3 = true <;> simp [ha, hz]
  · simp only [lanesOf, active_eq, zeroing_eq, lanesFlags, List.foldl_map]
    congr 1
    funext a i
    by_cases ha : laneActive o c t i = true <;> simp [ha]

/-! ### Sources and results -/

theorem stream_issued (s : State) (t : Thread) (n : Nat) : (issuedThread s t).stream? n = t.stream? n := rfl

@[simp] theorem issuedThread_vecReg (s : State) (t : Thread) (n : Nat) : vecReg (issuedThread s t) n = vecReg t n := rfl

theorem readVec_reg {s : State} {x : Ctx} {t : Thread} {n : Nat} (h : (t.stream? n).isNone = true) :
    readVec s x t n = .ok (vecReg t n, s) := by
  simp only [Option.isNone_iff_eq_none] at h
  simp [readVec, h, vecReg]

theorem vsources_plain {s s' : State} {t : Thread} {o : Op} {c : Chain} (ha : (t.stream? c.va).isNone = true)
    (hb : c.hasReg = true → (t.stream? c.vb).isNone = true) :
    vsources (ctxOf s t o c) (issuedThread s t) s' = .ok (vecX c t, vecY c t, s') := by
  simp only [vsources, ctxOf_c, vecX, vecY]
  rw [readVec_reg (by rw [stream_issued]; exact ha)]
  by_cases hr : c.hasReg = true
  · simp only [hr, if_true]
    rw [readVec_reg (by rw [stream_issued]; exact hb hr)]
    rfl
  · simp only [hr]; rfl

theorem vsourcesAB_plain {s s' : State} {t : Thread} {o : Op} {c : Chain} (ha : (t.stream? c.va).isNone = true)
    (hb : (t.stream? c.vb).isNone = true) :
    vsourcesAB (ctxOf s t o c) (issuedThread s t) s' = .ok (vecReg t c.va, vecReg t c.vb, s') := by
  simp only [vsourcesAB, ctxOf_c]
  rw [readVec_reg (by rw [stream_issued]; exact ha)]
  simp only []
  rw [readVec_reg (by rw [stream_issued]; exact hb)]
  rfl

/-- A long vector result. -/
theorem writeVec_result (v : Nat) (float : Bool) (fl : Flags) (body : Ctx → Thread → State → Out) {o : Op} {c : Chain}
    {s : State} {t : Thread} (h : s.here = some t) (hx : executable s t o c = true)
    (hd : (t.stream? c.vd).isNone = true)
    (hb : body (ctxOf s t o c) (issuedThread s t) (issued s (ctxOf s t o c)) =
      writeVec (issued s (ctxOf s t o c)) (ctxOf s t o c) (issuedThread s t) v float fl) :
    ∃ u τ, issueChain o c body s = .next u ∧ u.here = some τ ∧
      LongResult o c s u t τ (.v c.vd :: if float then [.flags] else []) [.v c.vd (BitVec.ofNat 1024 v), .flags fl] := by
  rw [issueChain_executes _ h hx, hb]
  simp only [Option.isNone_iff_eq_none] at hd
  obtain ⟨u, τ, h1, h2⟩ := long_result (o := o) (c := c) (.v c.vd :: if float then [.flags] else [])
    [.v c.vd (BitVec.ofNat 1024 v), .flags fl] h hx (List.cons_ne_nil _ _)
  refine ⟨u, τ, congrArg _ (Eq.trans (congrArg _ ?_) h1), h2⟩
  simp only [writeVec, ctxOf_c, ctxOf_core, ctxOf_slot, stream_issued, hd]

/-- A long mask result. -/
theorem writeMask_result (v : Nat) (float : Bool) (fl : Flags) (body : Ctx → Thread → State → Out) {o : Op} {c : Chain}
    {s : State} {t : Thread} (h : s.here = some t) (hx : executable s t o c = true)
    (hb : body (ctxOf s t o c) (issuedThread s t) (issued s (ctxOf s t o c)) =
      writeMask (issued s (ctxOf s t o c)) (ctxOf s t o c) v float fl) :
    ∃ u τ, issueChain o c body s = .next u ∧ u.here = some τ ∧
      LongResult o c s u t τ (.m c.d.toNat :: if float then [.flags] else [])
        [.m c.d.toNat (BitVec.ofNat 128 v), .flags fl] := by
  rw [issueChain_executes _ h hx, hb]
  obtain ⟨u, τ, h1, h2⟩ := long_result (o := o) (c := c) (.m c.d.toNat :: if float then [.flags] else [])
    [.m c.d.toNat (BitVec.ofNat 128 v), .flags fl] h hx (List.cons_ne_nil _ _)
  exact ⟨u, τ, congrArg _ h1, h2⟩

/-- A change of the lease at once. -/
theorem lease_result {s : State} {t t' : Thread} {o : Op} {c : Chain} (body : Ctx → Thread → State → Out)
    (h : s.here = some t) (hx : executable s t o c = true) (f : Thread → Thread)
    (hb : body (ctxOf s t o c) (issuedThread s t) (issued s (ctxOf s t o c)) =
      .done ((issued s (ctxOf s t o c)).modThread s.cur.1 s.cur.2 f))
    (hf : f (issuedThread s t) = t') (l : Option Lease) (hk : Kept { t with lease := l } t') (hr : t'.status = t.status)
    (hp : t'.pend = t.pend) (hs : t'.span = t.span) (hg : ∀ n, t'.greg n = t.greg n) (hw : t'.pw = clearPP t.pw) :
    ∃ u τ, issueChain o c body s = .next u ∧ u.here = some τ ∧ LeaseResult o c s u t τ l := by
  rw [issueChain_executes _ h hx, hb, State.modThread_eq _ (issued_here o c h), hf]
  obtain ⟨h1, h2⟩ := conclude_done (s := s) (t := t) (o := o) (c := c)
    (u := (issued s (ctxOf s t o c)).setThread s.cur.1 s.cur.2 t') (t' := t')
    (State.thread_setThread _ _ _ _) ((Framed.issued o c h).setThread _)
  have hg' := goesOn_ended c t' (nextPc o c t) (hr.trans (executable_ready hx))
  rw [hp, hs] at hg'
  exact ⟨_, _, rfl, h1, h2, kept_ended _ _ hk, hg', (endedThread_pw _ _ _).trans hw,
    fun n _ _ => (endedThread_greg _ _ _ _).trans (hg n)⟩

end Sys2Proof.Machine
end

