-- ==== Sys2Proof/Laws/LocalMem.lean ====
section
/-! SUPPORT. Laws of accesses to the local window (spec/04 R104, spec/05 R136, R137): what a load reads, what a store
leaves, and that a store changes no other byte. -/

namespace Sys2Proof.Machine

theorem issued_core (s : State) (t : Thread) (o : Op) (c : Chain) (h : s.here = some t) :
    (issued s (ctxOf s t o c)).core s.cur.1 = { s.hereCore with
      cyc := ((issued s (ctxOf s t o c)).core s.cur.1).cyc,
      threads := ((issued s (ctxOf s t o c)).core s.cur.1).threads } := by
  have hf := Framed.issued o c h
  have h3 := hf.2.2.1
  simp only [State.hereCore, hf.cur] at h3 ⊢
  exact h3

theorem issued_domEntry (s : State) (t : Thread) (o : Op) (c : Chain) (h : s.here = some t) :
    (issued s (ctxOf s t o c)).domEntry s.cur.1 (issuedThread s t) = s.domEntry s.cur.1 t := by
  unfold State.domEntry
  rw [issued_core s t o c h]
  rfl

/-- A load of the issued chain reads what it would have read before the issue. -/
theorem issued_windowLoad {s : State} {t : Thread} (o : Op) (c : Chain) (h : s.here = some t) (ea : Word) (n align : Nat) :
    windowLoad ((issued s (ctxOf s t o c)).core s.cur.1)
      ((issued s (ctxOf s t o c)).domEntry s.cur.1 (issuedThread s t)) ea n align =
      windowLoad s.hereCore (s.domEntry s.cur.1 t) ea n align := by
  rw [issued_domEntry s t o c h, issued_core s t o c h]
  rfl

theorem windowLoad_ok {k : CoreSt} {e : DomCopy} {ea : Word} {n align off : Nat} (h1 : windowCheck e ea n align = .ok off)
    (h2 : threadConflict k false ⟨0, off, n⟩ = false) (h3 : poisonIn k 0 off n = none) :
    windowLoad k e ea n align = .ok (k.lstore.read off n) := by
  simp [windowLoad, h1, h2, h3]

theorem windowStore_ok {k : CoreSt} {e : DomCopy} {ea : Word} {n align off : Nat} (x : Nat)
    (h1 : windowCheck e ea n align = .ok off) (h2 : threadConflict k true ⟨0, off, n⟩ = false) :
    windowStore k e ea n align x = .ok { cleanPoison k 0 off n with lstore := k.lstore.write off n x } := by
  simp [windowStore, h1, h2]

theorem thread_setCore (s : State) (c i : Nat) (k : CoreSt) : (s.setCore c k).thread? c i = tget k.threads i := by
  unfold State.thread?
  rw [State.core_setCore]

/-- A core that differs from another in its cycle counter and its threads only, with the same store and poison put in. -/
theorem withStore_core (k h : CoreSt) (m : Memory) (p : List (Nat × Nat))
    (e : k = { h with cyc := k.cyc, threads := k.threads }) :
    ({ k with lstore := m, poison := p } : CoreSt) =
      { ({ h with lstore := m, poison := p } : CoreSt) with cyc := k.cyc, threads := k.threads } := by
  rw [e]

/-- A chain that stores to the local store of the core at hand. -/
theorem store_result {s : State} {t : Thread} {o : Op} {c : Chain} (m : Memory) (p : List (Nat × Nat))
    (stored : Nat → Prop) (h : s.here = some t) (hx : executable s t o c = true)
    (hm : ∀ a, ¬ stored a → m.byte a = s.hereCore.lstore.byte a) :
    ∃ u τ, conclude s (ctxOf s t o c) (.done ((issued s (ctxOf s t o c)).setCore s.cur.1
        { (issued s (ctxOf s t o c)).core s.cur.1 with lstore := m, poison := p })) = u ∧
      u.here = some τ ∧ StoreResult o c s u t τ m p stored := by
  have hi := Framed.issued o c h
  have hcur : (s.withStore m p).cur = s.cur := rfl
  have hcore := issued_core s t o c h
  have hth : ((issued s (ctxOf s t o c)).setCore s.cur.1
      { (issued s (ctxOf s t o c)).core s.cur.1 with lstore := m, poison := p }).thread? s.cur.1 s.cur.2 =
      some (issuedThread s t) := by
    rw [thread_setCore]
    exact issued_here o c h
  have hf : Framed (s.withStore m p) ((issued s (ctxOf s t o c)).setCore s.cur.1
      { (issued s (ctxOf s t o c)).core s.cur.1 with lstore := m, poison := p }) := by
    have hic := hi.cur
    obtain ⟨h1, h2, h3, h4, -⟩ := hi
    apply framed_of
    · conv_lhs => rw [State.setCore, h1]
      rfl
    · intro d hd
      rw [hcur] at hd
      rw [State.core_setCore_other _ _ hd, State.withStore, State.core_setCore_other _ _ hd]
      exact h2 d hd
    · simp only [State.hereCore, State.setCore_cur, hic, State.core_setCore, State.withStore]
      exact withStore_core _ _ m p hcore
    · intro i hne
      simp only [hcur] at hne
      rw [hcur, thread_setCore, State.withStore, thread_setCore]
      exact h4 i hne
  obtain ⟨h1, h2⟩ := conclude_done (s := s.withStore m p) (t := t) (o := o) (c := c) hth hf
  have hst : (conclude s (ctxOf s t o c) (.done ((issued s (ctxOf s t o c)).setCore s.cur.1
        { (issued s (ctxOf s t o c)).core s.cur.1 with lstore := m, poison := p }))) =
      conclude (s.withStore m p) (ctxOf (s.withStore m p) t o c) (.done ((issued s (ctxOf s t o c)).setCore s.cur.1
        { (issued s (ctxOf s t o c)).core s.cur.1 with lstore := m, poison := p })) := rfl
  have hk : Kept t (issuedThread s t) := by unfold Kept; rfl
  refine ⟨_, _, rfl, by rw [hst]; exact h1, ⟨by rw [hst]; exact h2, ?_, hm⟩, kept_ended _ _ hk, ?_, ?_, ?_⟩
  · rw [hst]
    have := h2.2.2.1
    rw [this]
    simp [State.hereCore, State.withStore]
  · exact goesOn_ended _ _ _ (show t.status = .ready from executable_ready hx)
  · exact endedThread_pw _ _ _
  · intro n _ _
    exact endedThread_greg _ _ _ _

/-- One store of a range. -/
theorem storeRange_result {s : State} {t : Thread} {o : Op} {c : Chain} (off n x : Nat) (h : s.here = some t)
    (hx : executable s t o c = true) :
    ∃ u τ, conclude s (ctxOf s t o c) (.done ((issued s (ctxOf s t o c)).setCore s.cur.1
        { cleanPoison ((issued s (ctxOf s t o c)).core s.cur.1) 0 off n with
          lstore := ((issued s (ctxOf s t o c)).core s.cur.1).lstore.write off n x })) = u ∧
      u.here = some τ ∧ StoreResult o c s u t τ (s.hereCore.lstore.write off n x) (cleanPoison s.hereCore 0 off n).poison
        (fun a => off ≤ a ∧ a < off + n) := by
  have hc := issued_core s t o c h
  have hr := store_result (s := s) (t := t) (o := o) (c := c) (s.hereCore.lstore.write off n x)
    (cleanPoison s.hereCore 0 off n).poison (fun a => off ≤ a ∧ a < off + n) h hx
    (fun a ha => Memory.byte_write_other _ _ (by omega))
  have he : ({ cleanPoison ((issued s (ctxOf s t o c)).core s.cur.1) 0 off n with
          lstore := ((issued s (ctxOf s t o c)).core s.cur.1).lstore.write off n x } : CoreSt) =
      { (issued s (ctxOf s t o c)).core s.cur.1 with
        lstore := s.hereCore.lstore.write off n x, poison := (cleanPoison s.hereCore 0 off n).poison } := by
    rw [hc]; rfl
  rw [he]
  exact hr

end Sys2Proof.Machine
end

