-- ==== Sys2Proof/Laws/Chain.lean ====
section
/-! SUPPORT. Laws of the state in which a chain executes: its thread, its core, and the two after an update. -/

namespace Sys2Proof.Machine

/-- The later of two entries of one key stands. -/
theorem tset_tset {α : Type} (t : Tab α) (i : Nat) (x y : α) : tset (tset t i x) i y = tset t i y := by
  induction t with
  | nil => simp [tset]
  | cons e t ih =>
    obtain ⟨k, v⟩ := e
    simp only [tset]
    by_cases h : k = i
    · subst h; simp [tset]
    · by_cases h2 : i < k
      · simp [h, h2, tset]
      · simp [h, h2, tset, ih]

theorem State.setCore_setCore (s : State) (c : Nat) (k k' : CoreSt) : (s.setCore c k).setCore c k' = s.setCore c k' := by
  simp only [State.setCore, tset_tset]

theorem State.setThread_setThread (s : State) (c i : Nat) (t t' : Thread) :
    (s.setThread c i t).setThread c i t' = s.setThread c i t' := by
  simp only [State.setThread, State.modCore, State.core_setCore, State.setCore_setCore, tset_tset]

/-- Two updates of one thread are one. -/
theorem State.modThread_setThread (s : State) (c i : Nat) (t : Thread) (f : Thread → Thread) :
    (s.setThread c i t).modThread c i f = s.setThread c i (f t) := by
  rw [State.modThread_eq f (State.thread_setThread s c i t), State.setThread_setThread]

theorem issuedFor_cur {s : State} {t : Thread} (o : Op) (c : Chain) (h : s.here = some t) :
    (issuedFor s t o c).cur = s.cur := (Framed.issued o c h).cur

/-- An update of the thread at hand of the state in which its chain executes. -/
theorem modHere_issued {s : State} {t : Thread} (o : Op) (c : Chain) (f : Thread → Thread) (h : s.here = some t) :
    (issuedFor s t o c).modHere f = (issuedFor s t o c).setThread s.cur.1 s.cur.2 (f (issuedThread s t)) := by
  unfold State.modHere
  rw [issuedFor_cur o c h]
  exact State.modThread_eq f (issued_here o c h)

theorem modHereCore_issued {s : State} {t : Thread} (o : Op) (c : Chain) (f : CoreSt → CoreSt) (h : s.here = some t) :
    (issuedFor s t o c).modHereCore f = (issuedFor s t o c).modCore s.cur.1 f := by
  unfold State.modHereCore
  rw [issuedFor_cur o c h]

/-- The fields of the state that the issue of a chain leaves. -/
theorem issuedFor_fields {s : State} {t : Thread} (o : Op) (c : Chain) (h : s.here = some t) :
    issuedFor s t o c = { s with cores := (issuedFor s t o c).cores, freeCtr := (issuedFor s t o c).freeCtr } := by
  unfold issuedFor
  rw [issued_eq o c h]
  rfl

theorem issuedFor_nextId {s : State} {t : Thread} (o : Op) (c : Chain) (h : s.here = some t) :
    (issuedFor s t o c).nextId = s.nextId := by rw [issuedFor_fields o c h]

theorem issuedFor_logical {s : State} {t : Thread} (o : Op) (c : Chain) (h : s.here = some t) :
    (issuedFor s t o c).logical = s.logical := by rw [issuedFor_fields o c h]

/-- A pop of a queue port leaves the pop of the port to the events that complete a chain. -/
theorem issuedFor_domOf {s : State} {t : Thread} (o : Op) (c : Chain) (d : Nat) (h : s.here = some t) :
    domOf ((issuedFor s t o c).core s.cur.1) d = domOf s.hereCore d := by
  show domOf ((issued s (ctxOf s t o c)).core s.cur.1) d = _
  rw [issued_core s t o c h]
  rfl

end Sys2Proof.Machine
end

