-- ==== Sys2Proof/Laws/PerInstr.lean ====
section
/-! SUPPORT. What holds of every instruction as syntax, one lemma per constructor: how many words it has. -/

namespace Sys2Proof

/-- A well-formed coded instruction has one to five words, two bytes of the instruction store each (spec/01 R22, R23);
a step without an encoding has none. -/
def Laws.Words.Statement (i : Instr) : Prop :=
  i.wf = true → match i.op? with
    | some (o, c) => 1 ≤ (encode i).length ∧ (encode i).length ≤ 5 ∧ 2 * (encode i).length = chainBytes o c
    | none => encode i = []

/-- A chain that no static check refuses has at most four prefixes. -/
theorem prefixCount_le {o : Op} {c : Chain} (h : chainWf o c = true) : prefixCount o c ≤ 4 := by
  unfold chainWf chainErr at h
  cases ha : acceptErr o c with
  | some e => rw [ha] at h; cases h
  | none =>
    by_contra hlt
    unfold acceptErr at ha
    rw [if_pos (by omega)] at ha
    cases ha

/-- A chain has its prefixes and its base word. -/
theorem encodeWords_length (o : Op) (c : Chain) : (encodeWords o c).length = prefixCount o c + 1 := by
  unfold encodeWords prefixCount
  cases c.xctl <;> cases c.xreg <;> cases hasXpage o c <;> simp

/-- The statement for a coded instruction. -/
theorem words_coded {i : Instr} {o : Op} {c : Chain} (h : i.op? = some (o, c)) : Laws.Words.Statement i := by
  intro hw
  unfold Instr.wf at hw
  rw [h] at hw
  have := prefixCount_le hw
  have hl := encodeWords_length o c
  have he : encode i = encodeWords o c := by unfold encode; rw [h]
  rw [h, he]
  exact ⟨by omega, by omega, by unfold chainBytes; omega⟩

/-- The statement for a step without an encoding. -/
theorem words_event {i : Instr} (h : i.op? = none) : Laws.Words.Statement i := by
  intro _
  rw [h]
  unfold encode
  rw [h]

theorem Laws.Words.nop (c : Chain) : Laws.Words.Statement (.nop c) := words_coded rfl
theorem Laws.Words.mov (c : Chain) : Laws.Words.Statement (.mov c) := words_coded rfl
theorem Laws.Words.neg (c : Chain) : Laws.Words.Statement (.neg c) := words_coded rfl
theorem Laws.Words.not (c : Chain) : Laws.Words.Statement (.not c) := words_coded rfl
theorem Laws.Words.abs (c : Chain) : Laws.Words.Statement (.abs c) := words_coded rfl
theorem Laws.Words.clz (c : Chain) : Laws.Words.Statement (.clz c) := words_coded rfl
theorem Laws.Words.ctz (c : Chain) : Laws.Words.Statement (.ctz c) := words_coded rfl
theorem Laws.Words.popc (c : Chain) : Laws.Words.Statement (.popc c) := words_coded rfl
theorem Laws.Words.brev (c : Chain) : Laws.Words.Statement (.brev c) := words_coded rfl
theorem Laws.Words.bswap (c : Chain) : Laws.Words.Statement (.bswap c) := words_coded rfl
theorem Laws.Words.sext (c : Chain) : Laws.Words.Statement (.sext c) := words_coded rfl
theorem Laws.Words.add (c : Chain) : Laws.Words.Statement (.add c) := words_coded rfl
theorem Laws.Words.sub (c : Chain) : Laws.Words.Statement (.sub c) := words_coded rfl
theorem Laws.Words.mul (c : Chain) : Laws.Words.Statement (.mul c) := words_coded rfl
theorem Laws.Words.mulh (c : Chain) : Laws.Words.Statement (.mulh c) := words_coded rfl
theorem Laws.Words.mulhn (c : Chain) : Laws.Words.Statement (.mulhn c) := words_coded rfl
theorem Laws.Words.div (c : Chain) : Laws.Words.Statement (.div c) := words_coded rfl
theorem Laws.Words.divn (c : Chain) : Laws.Words.Statement (.divn c) := words_coded rfl
theorem Laws.Words.rem (c : Chain) : Laws.Words.Statement (.rem c) := words_coded rfl
theorem Laws.Words.remn (c : Chain) : Laws.Words.Statement (.remn c) := words_coded rfl
theorem Laws.Words.and (c : Chain) : Laws.Words.Statement (.and c) := words_coded rfl
theorem Laws.Words.or (c : Chain) : Laws.Words.Statement (.or c) := words_coded rfl
theorem Laws.Words.xor (c : Chain) : Laws.Words.Statement (.xor c) := words_coded rfl
theorem Laws.Words.andn (c : Chain) : Laws.Words.Statement (.andn c) := words_coded rfl
theorem Laws.Words.shl (c : Chain) : Laws.Words.Statement (.shl c) := words_coded rfl
theorem Laws.Words.shr (c : Chain) : Laws.Words.Statement (.shr c) := words_coded rfl
theorem Laws.Words.sar (c : Chain) : Laws.Words.Statement (.sar c) := words_coded rfl
theorem Laws.Words.rol (c : Chain) : Laws.Words.Statement (.rol c) := words_coded rfl
theorem Laws.Words.min (c : Chain) : Laws.Words.Statement (.min c) := words_coded rfl
theorem Laws.Words.max (c : Chain) : Laws.Words.Statement (.max c) := words_coded rfl
theorem Laws.Words.minn (c : Chain) : Laws.Words.Statement (.minn c) := words_coded rfl
theorem Laws.Words.maxn (c : Chain) : Laws.Words.Statement (.maxn c) := words_coded rfl
theorem Laws.Words.cmpeq (c : Chain) : Laws.Words.Statement (.cmpeq c) := words_coded rfl
theorem Laws.Words.cmpne (c : Chain) : Laws.Words.Statement (.cmpne c) := words_coded rfl
theorem Laws.Words.cmplt (c : Chain) : Laws.Words.Statement (.cmplt c) := words_coded rfl
theorem Laws.Words.cmple (c : Chain) : Laws.Words.Statement (.cmple c) := words_coded rfl
theorem Laws.Words.cmpltn (c : Chain) : Laws.Words.Statement (.cmpltn c) := words_coded rfl
theorem Laws.Words.cmplen (c : Chain) : Laws.Words.Statement (.cmplen c) := words_coded rfl
theorem Laws.Words.tst (c : Chain) : Laws.Words.Statement (.tst c) := words_coded rfl
theorem Laws.Words.pand (c : Chain) : Laws.Words.Statement (.pand c) := words_coded rfl
theorem Laws.Words.por (c : Chain) : Laws.Words.Statement (.por c) := words_coded rfl
theorem Laws.Words.pxor (c : Chain) : Laws.Words.Statement (.pxor c) := words_coded rfl
theorem Laws.Words.pnot (c : Chain) : Laws.Words.Statement (.pnot c) := words_coded rfl
theorem Laws.Words.rdpw (c : Chain) : Laws.Words.Statement (.rdpw c) := words_coded rfl
theorem Laws.Words.wrpw (c : Chain) : Laws.Words.Statement (.wrpw c) := words_coded rfl
theorem Laws.Words.sel (c : Chain) : Laws.Words.Statement (.sel c) := words_coded rfl
theorem Laws.Words.ldl (c : Chain) : Laws.Words.Statement (.ldl c) := words_coded rfl
theorem Laws.Words.stl (c : Chain) : Laws.Words.Statement (.stl c) := words_coded rfl
theorem Laws.Words.jr (c : Chain) : Laws.Words.Statement (.jr c) := words_coded rfl
theorem Laws.Words.callr (c : Chain) : Laws.Words.Statement (.callr c) := words_coded rfl
theorem Laws.Words.exit (c : Chain) : Laws.Words.Statement (.exit c) := words_coded rfl
theorem Laws.Words.yield (c : Chain) : Laws.Words.Statement (.yield c) := words_coded rfl
theorem Laws.Words.rdcyc (c : Chain) : Laws.Words.Statement (.rdcyc c) := words_coded rfl
theorem Laws.Words.movi (c : Chain) : Laws.Words.Statement (.movi c) := words_coded rfl
theorem Laws.Words.addi (c : Chain) : Laws.Words.Statement (.addi c) := words_coded rfl
theorem Laws.Words.bt (c : Chain) : Laws.Words.Statement (.bt c) := words_coded rfl
theorem Laws.Words.bf (c : Chain) : Laws.Words.Statement (.bf c) := words_coded rfl
theorem Laws.Words.call (c : Chain) : Laws.Words.Statement (.call c) := words_coded rfl
theorem Laws.Words.andi (c : Chain) : Laws.Words.Statement (.andi c) := words_coded rfl
theorem Laws.Words.fadd (c : Chain) : Laws.Words.Statement (.fadd c) := words_coded rfl
theorem Laws.Words.fsub (c : Chain) : Laws.Words.Statement (.fsub c) := words_coded rfl
theorem Laws.Words.fmul (c : Chain) : Laws.Words.Statement (.fmul c) := words_coded rfl
theorem Laws.Words.fdiv (c : Chain) : Laws.Words.Statement (.fdiv c) := words_coded rfl
theorem Laws.Words.fmin (c : Chain) : Laws.Words.Statement (.fmin c) := words_coded rfl
theorem Laws.Words.fmax (c : Chain) : Laws.Words.Statement (.fmax c) := words_coded rfl
theorem Laws.Words.fma (c : Chain) : Laws.Words.Statement (.fma c) := words_coded rfl
theorem Laws.Words.fms (c : Chain) : Laws.Words.Statement (.fms c) := words_coded rfl
theorem Laws.Words.fsqrt (c : Chain) : Laws.Words.Statement (.fsqrt c) := words_coded rfl
theorem Laws.Words.fabs (c : Chain) : Laws.Words.Statement (.fabs c) := words_coded rfl
theorem Laws.Words.fneg (c : Chain) : Laws.Words.Statement (.fneg c) := words_coded rfl
theorem Laws.Words.fcmpeq (c : Chain) : Laws.Words.Statement (.fcmpeq c) := words_coded rfl
theorem Laws.Words.fcmplt (c : Chain) : Laws.Words.Statement (.fcmplt c) := words_coded rfl
theorem Laws.Words.fcmple (c : Chain) : Laws.Words.Statement (.fcmple c) := words_coded rfl
theorem Laws.Words.fcmpun (c : Chain) : Laws.Words.Statement (.fcmpun c) := words_coded rfl
theorem Laws.Words.fclass (c : Chain) : Laws.Words.Statement (.fclass c) := words_coded rfl
theorem Laws.Words.fcvt (c : Chain) : Laws.Words.Statement (.fcvt c) := words_coded rfl
theorem Laws.Words.ftoi (c : Chain) : Laws.Words.Statement (.ftoi c) := words_coded rfl
theorem Laws.Words.fton (c : Chain) : Laws.Words.Statement (.fton c) := words_coded rfl
theorem Laws.Words.itof (c : Chain) : Laws.Words.Statement (.itof c) := words_coded rfl
theorem Laws.Words.ntof (c : Chain) : Laws.Words.Statement (.ntof c) := words_coded rfl
theorem Laws.Words.frnd (c : Chain) : Laws.Words.Statement (.frnd c) := words_coded rfl
theorem Laws.Words.fclrf (c : Chain) : Laws.Words.Statement (.fclrf c) := words_coded rfl
theorem Laws.Words.fmt (c : Chain) : Laws.Words.Statement (.fmt c) := words_coded rfl
theorem Laws.Words.viadd (c : Chain) : Laws.Words.Statement (.viadd c) := words_coded rfl
theorem Laws.Words.visub (c : Chain) : Laws.Words.Statement (.visub c) := words_coded rfl
theorem Laws.Words.vimul (c : Chain) : Laws.Words.Statement (.vimul c) := words_coded rfl
theorem Laws.Words.vimulh (c : Chain) : Laws.Words.Statement (.vimulh c) := words_coded rfl
theorem Laws.Words.vimin (c : Chain) : Laws.Words.Statement (.vimin c) := words_coded rfl
theorem Laws.Words.vimax (c : Chain) : Laws.Words.Statement (.vimax c) := words_coded rfl
theorem Laws.Words.vand (c : Chain) : Laws.Words.Statement (.vand c) := words_coded rfl
theorem Laws.Words.vor (c : Chain) : Laws.Words.Statement (.vor c) := words_coded rfl
theorem Laws.Words.vxor (c : Chain) : Laws.Words.Statement (.vxor c) := words_coded rfl
theorem Laws.Words.vshl (c : Chain) : Laws.Words.Statement (.vshl c) := words_coded rfl
theorem Laws.Words.vshr (c : Chain) : Laws.Words.Statement (.vshr c) := words_coded rfl
theorem Laws.Words.viadds (c : Chain) : Laws.Words.Statement (.viadds c) := words_coded rfl
theorem Laws.Words.visubs (c : Chain) : Laws.Words.Statement (.visubs c) := words_coded rfl
theorem Laws.Words.viabs (c : Chain) : Laws.Words.Statement (.viabs c) := words_coded rfl
theorem Laws.Words.vineg (c : Chain) : Laws.Words.Statement (.vineg c) := words_coded rfl
theorem Laws.Words.vimad (c : Chain) : Laws.Words.Statement (.vimad c) := words_coded rfl
theorem Laws.Words.vadd (c : Chain) : Laws.Words.Statement (.vadd c) := words_coded rfl
theorem Laws.Words.vsub (c : Chain) : Laws.Words.Statement (.vsub c) := words_coded rfl
theorem Laws.Words.vmul (c : Chain) : Laws.Words.Statement (.vmul c) := words_coded rfl
theorem Laws.Words.vdiv (c : Chain) : Laws.Words.Statement (.vdiv c) := words_coded rfl
theorem Laws.Words.vmin (c : Chain) : Laws.Words.Statement (.vmin c) := words_coded rfl
theorem Laws.Words.vmax (c : Chain) : Laws.Words.Statement (.vmax c) := words_coded rfl
theorem Laws.Words.vfma (c : Chain) : Laws.Words.Statement (.vfma c) := words_coded rfl
theorem Laws.Words.vsqrt (c : Chain) : Laws.Words.Statement (.vsqrt c) := words_coded rfl
theorem Laws.Words.vabs (c : Chain) : Laws.Words.Statement (.vabs c) := words_coded rfl
theorem Laws.Words.vneg (c : Chain) : Laws.Words.Statement (.vneg c) := words_coded rfl
theorem Laws.Words.vicmpeq (c : Chain) : Laws.Words.Statement (.vicmpeq c) := words_coded rfl
theorem Laws.Words.vicmplt (c : Chain) : Laws.Words.Statement (.vicmplt c) := words_coded rfl
theorem Laws.Words.vicmple (c : Chain) : Laws.Words.Statement (.vicmple c) := words_coded rfl
theorem Laws.Words.vcmpeq (c : Chain) : Laws.Words.Statement (.vcmpeq c) := words_coded rfl
theorem Laws.Words.vcmplt (c : Chain) : Laws.Words.Statement (.vcmplt c) := words_coded rfl
theorem Laws.Words.vcmple (c : Chain) : Laws.Words.Statement (.vcmple c) := words_coded rfl
theorem Laws.Words.vcmpun (c : Chain) : Laws.Words.Statement (.vcmpun c) := words_coded rfl
theorem Laws.Words.mand (c : Chain) : Laws.Words.Statement (.mand c) := words_coded rfl
theorem Laws.Words.mor (c : Chain) : Laws.Words.Statement (.mor c) := words_coded rfl
theorem Laws.Words.mxor (c : Chain) : Laws.Words.Statement (.mxor c) := words_coded rfl
theorem Laws.Words.mnot (c : Chain) : Laws.Words.Statement (.mnot c) := words_coded rfl
theorem Laws.Words.mpop (c : Chain) : Laws.Words.Statement (.mpop c) := words_coded rfl
theorem Laws.Words.mall (c : Chain) : Laws.Words.Statement (.mall c) := words_coded rfl
theorem Laws.Words.virsum (c : Chain) : Laws.Words.Statement (.virsum c) := words_coded rfl
theorem Laws.Words.virmin (c : Chain) : Laws.Words.Statement (.virmin c) := words_coded rfl
theorem Laws.Words.virmax (c : Chain) : Laws.Words.Statement (.virmax c) := words_coded rfl
theorem Laws.Words.vrsum (c : Chain) : Laws.Words.Statement (.vrsum c) := words_coded rfl
theorem Laws.Words.vrmin (c : Chain) : Laws.Words.Statement (.vrmin c) := words_coded rfl
theorem Laws.Words.vrmax (c : Chain) : Laws.Words.Statement (.vrmax c) := words_coded rfl
theorem Laws.Words.vperm (c : Chain) : Laws.Words.Statement (.vperm c) := words_coded rfl
theorem Laws.Words.vbcast (c : Chain) : Laws.Words.Statement (.vbcast c) := words_coded rfl
theorem Laws.Words.vext (c : Chain) : Laws.Words.Statement (.vext c) := words_coded rfl
theorem Laws.Words.vins (c : Chain) : Laws.Words.Statement (.vins c) := words_coded rfl
theorem Laws.Words.vmov (c : Chain) : Laws.Words.Statement (.vmov c) := words_coded rfl
theorem Laws.Words.viota (c : Chain) : Laws.Words.Statement (.viota c) := words_coded rfl
theorem Laws.Words.vsplati (c : Chain) : Laws.Words.Statement (.vsplati c) := words_coded rfl
theorem Laws.Words.vfree (c : Chain) : Laws.Words.Statement (.vfree c) := words_coded rfl
theorem Laws.Words.vld (c : Chain) : Laws.Words.Statement (.vld c) := words_coded rfl
theorem Laws.Words.vst (c : Chain) : Laws.Words.Statement (.vst c) := words_coded rfl
theorem Laws.Words.vlds (c : Chain) : Laws.Words.Statement (.vlds c) := words_coded rfl
theorem Laws.Words.vsts (c : Chain) : Laws.Words.Statement (.vsts c) := words_coded rfl
theorem Laws.Words.vgath (c : Chain) : Laws.Words.Statement (.vgath c) := words_coded rfl
theorem Laws.Words.vscat (c : Chain) : Laws.Words.Statement (.vscat c) := words_coded rfl
theorem Laws.Words.vcvt (c : Chain) : Laws.Words.Statement (.vcvt c) := words_coded rfl
theorem Laws.Words.vcvti (c : Chain) : Laws.Words.Statement (.vcvti c) := words_coded rfl
theorem Laws.Words.vcvtf (c : Chain) : Laws.Words.Statement (.vcvtf c) := words_coded rfl
theorem Laws.Words.mxq (c : Chain) : Laws.Words.Statement (.mxq c) := words_coded rfl
theorem Laws.Words.mxdq (c : Chain) : Laws.Words.Statement (.mxdq c) := words_coded rfl
theorem Laws.Words.tsq (c : Chain) : Laws.Words.Statement (.tsq c) := words_coded rfl
theorem Laws.Words.tsdq (c : Chain) : Laws.Words.Statement (.tsdq c) := words_coded rfl
theorem Laws.Words.vldm (c : Chain) : Laws.Words.Statement (.vldm c) := words_coded rfl
theorem Laws.Words.vstm (c : Chain) : Laws.Words.Statement (.vstm c) := words_coded rfl
theorem Laws.Words.vlease (c : Chain) : Laws.Words.Statement (.vlease c) := words_coded rfl
theorem Laws.Words.mcfg (c : Chain) : Laws.Words.Statement (.mcfg c) := words_coded rfl
theorem Laws.Words.mgang (c : Chain) : Laws.Words.Statement (.mgang c) := words_coded rfl
theorem Laws.Words.mresume (c : Chain) : Laws.Words.Statement (.mresume c) := words_coded rfl
theorem Laws.Words.mbook (c : Chain) : Laws.Words.Statement (.mbook c) := words_coded rfl
theorem Laws.Words.fopen (c : Chain) : Laws.Words.Statement (.fopen c) := words_coded rfl
theorem Laws.Words.fjoin (c : Chain) : Laws.Words.Statement (.fjoin c) := words_coded rfl
theorem Laws.Words.fclose (c : Chain) : Laws.Words.Statement (.fclose c) := words_coded rfl
theorem Laws.Words.smode (c : Chain) : Laws.Words.Statement (.smode c) := words_coded rfl
theorem Laws.Words.sstop (c : Chain) : Laws.Words.Statement (.sstop c) := words_coded rfl
theorem Laws.Words.cpyg (c : Chain) : Laws.Words.Statement (.cpyg c) := words_coded rfl
theorem Laws.Words.cpyp (c : Chain) : Laws.Words.Statement (.cpyp c) := words_coded rfl
theorem Laws.Words.cpyd (c : Chain) : Laws.Words.Statement (.cpyd c) := words_coded rfl
theorem Laws.Words.mwait (c : Chain) : Laws.Words.Statement (.mwait c) := words_coded rfl
theorem Laws.Words.bdcfg (c : Chain) : Laws.Words.Statement (.bdcfg c) := words_coded rfl
theorem Laws.Words.bdot (c : Chain) : Laws.Words.Statement (.bdot c) := words_coded rfl
theorem Laws.Words.bdotq (c : Chain) : Laws.Words.Statement (.bdotq c) := words_coded rfl
theorem Laws.Words.rowcopy (c : Chain) : Laws.Words.Statement (.rowcopy c) := words_coded rfl
theorem Laws.Words.rowzero (c : Chain) : Laws.Words.Statement (.rowzero c) := words_coded rfl
theorem Laws.Words.ld (c : Chain) : Laws.Words.Statement (.ld c) := words_coded rfl
theorem Laws.Words.st (c : Chain) : Laws.Words.Statement (.st c) := words_coded rfl
theorem Laws.Words.strel (c : Chain) : Laws.Words.Statement (.strel c) := words_coded rfl
theorem Laws.Words.aadd (c : Chain) : Laws.Words.Statement (.aadd c) := words_coded rfl
theorem Laws.Words.aand (c : Chain) : Laws.Words.Statement (.aand c) := words_coded rfl
theorem Laws.Words.aor (c : Chain) : Laws.Words.Statement (.aor c) := words_coded rfl
theorem Laws.Words.axor (c : Chain) : Laws.Words.Statement (.axor c) := words_coded rfl
theorem Laws.Words.amin (c : Chain) : Laws.Words.Statement (.amin c) := words_coded rfl
theorem Laws.Words.amax (c : Chain) : Laws.Words.Statement (.amax c) := words_coded rfl
theorem Laws.Words.aminn (c : Chain) : Laws.Words.Statement (.aminn c) := words_coded rfl
theorem Laws.Words.amaxn (c : Chain) : Laws.Words.Statement (.amaxn c) := words_coded rfl
theorem Laws.Words.afadd (c : Chain) : Laws.Words.Statement (.afadd c) := words_coded rfl
theorem Laws.Words.faadd (c : Chain) : Laws.Words.Statement (.faadd c) := words_coded rfl
theorem Laws.Words.faand (c : Chain) : Laws.Words.Statement (.faand c) := words_coded rfl
theorem Laws.Words.faor (c : Chain) : Laws.Words.Statement (.faor c) := words_coded rfl
theorem Laws.Words.faxor (c : Chain) : Laws.Words.Statement (.faxor c) := words_coded rfl
theorem Laws.Words.famin (c : Chain) : Laws.Words.Statement (.famin c) := words_coded rfl
theorem Laws.Words.famax (c : Chain) : Laws.Words.Statement (.famax c) := words_coded rfl
theorem Laws.Words.faminn (c : Chain) : Laws.Words.Statement (.faminn c) := words_coded rfl
theorem Laws.Words.famaxn (c : Chain) : Laws.Words.Statement (.famaxn c) := words_coded rfl
theorem Laws.Words.fafadd (c : Chain) : Laws.Words.Statement (.fafadd c) := words_coded rfl
theorem Laws.Words.swp (c : Chain) : Laws.Words.Statement (.swp c) := words_coded rfl
theorem Laws.Words.cas (c : Chain) : Laws.Words.Statement (.cas c) := words_coded rfl
theorem Laws.Words.fence (c : Chain) : Laws.Words.Statement (.fence c) := words_coded rfl
theorem Laws.Words.ldfe (c : Chain) : Laws.Words.Statement (.ldfe c) := words_coded rfl
theorem Laws.Words.ldff (c : Chain) : Laws.Words.Statement (.ldff c) := words_coded rfl
theorem Laws.Words.stfe (c : Chain) : Laws.Words.Statement (.stfe c) := words_coded rfl
theorem Laws.Words.stff (c : Chain) : Laws.Words.Statement (.stff c) := words_coded rfl
theorem Laws.Words.feclr (c : Chain) : Laws.Words.Statement (.feclr c) := words_coded rfl
theorem Laws.Words.binit (c : Chain) : Laws.Words.Statement (.binit c) := words_coded rfl
theorem Laws.Words.barr (c : Chain) : Laws.Words.Statement (.barr c) := words_coded rfl
theorem Laws.Words.bwait (c : Chain) : Laws.Words.Statement (.bwait c) := words_coded rfl
theorem Laws.Words.baw (c : Chain) : Laws.Words.Statement (.baw c) := words_coded rfl
theorem Laws.Words.bdrop (c : Chain) : Laws.Words.Statement (.bdrop c) := words_coded rfl
theorem Laws.Words.send (c : Chain) : Laws.Words.Statement (.send c) := words_coded rfl
theorem Laws.Words.recv (c : Chain) : Laws.Words.Statement (.recv c) := words_coded rfl
theorem Laws.Words.spawn (c : Chain) : Laws.Words.Statement (.spawn c) := words_coded rfl
theorem Laws.Words.tpost (c : Chain) : Laws.Words.Statement (.tpost c) := words_coded rfl
theorem Laws.Words.tbind (c : Chain) : Laws.Words.Statement (.tbind c) := words_coded rfl
theorem Laws.Words.gcall (c : Chain) : Laws.Words.Statement (.gcall c) := words_coded rfl
theorem Laws.Words.gret (c : Chain) : Laws.Words.Statement (.gret c) := words_coded rfl
theorem Laws.Words.trap (c : Chain) : Laws.Words.Statement (.trap c) := words_coded rfl
theorem Laws.Words.tret (c : Chain) : Laws.Words.Statement (.tret c) := words_coded rfl
theorem Laws.Words.ctlr (c : Chain) : Laws.Words.Statement (.ctlr c) := words_coded rfl
theorem Laws.Words.ctlw (c : Chain) : Laws.Words.Statement (.ctlw c) := words_coded rfl
theorem Laws.Words.slinv (c : Chain) : Laws.Words.Statement (.slinv c) := words_coded rfl
theorem Laws.Words.setkey (c : Chain) : Laws.Words.Statement (.setkey c) := words_coded rfl
theorem Laws.Words.setown (c : Chain) : Laws.Words.Statement (.setown c) := words_coded rfl
theorem Laws.Words.istw (c : Chain) : Laws.Words.Statement (.istw c) := words_coded rfl
theorem Laws.Words.start (c : Chain) : Laws.Words.Statement (.start c) := words_coded rfl
theorem Laws.Words.buoys (c : Chain) : Laws.Words.Statement (.buoys c) := words_coded rfl
theorem Laws.Words.buoyc (c : Chain) : Laws.Words.Statement (.buoyc c) := words_coded rfl
theorem Laws.Words.haltrq (c : Chain) : Laws.Words.Statement (.haltrq c) := words_coded rfl
theorem Laws.Words.csave (c : Chain) : Laws.Words.Statement (.csave c) := words_coded rfl
theorem Laws.Words.cload (c : Chain) : Laws.Words.Statement (.cload c) := words_coded rfl
theorem Laws.Words.matrixWord0Push (core slot : Nat) (w : Word) : Laws.Words.Statement (.matrixWord0Push core slot w) := words_event rfl
theorem Laws.Words.compute (core slot : Nat) (w : Word) : Laws.Words.Statement (.compute core slot w) := words_event rfl
theorem Laws.Words.acczero (core slot : Nat) (w : Word) : Laws.Words.Statement (.acczero core slot w) := words_event rfl
theorem Laws.Words.accload (core slot : Nat) (w : Word) : Laws.Words.Statement (.accload core slot w) := words_event rfl
theorem Laws.Words.accstore (core slot : Nat) (w : Word) : Laws.Words.Statement (.accstore core slot w) := words_event rfl
theorem Laws.Words.copyDescriptorPush (core slot : Nat) (w : Word) : Laws.Words.Statement (.copyDescriptorPush core slot w) := words_event rfl
theorem Laws.Words.queuePortPop (core slot : Nat) (port d : BitVec 4) : Laws.Words.Statement (.queuePortPop core slot port d) := words_event rfl
theorem Laws.Words.blockRelease (core slot : Nat) : Laws.Words.Statement (.blockRelease core slot) := words_event rfl
theorem Laws.Words.leaseGrant (core : Nat) : Laws.Words.Statement (.leaseGrant core) := words_event rfl
theorem Laws.Words.resultReturn (core slot : Nat) : Laws.Words.Statement (.resultReturn core slot) := words_event rfl
theorem Laws.Words.trapEntry (core slot : Nat) : Laws.Words.Statement (.trapEntry core slot) := words_event rfl
theorem Laws.Words.ferryDepart (core slot : Nat) : Laws.Words.Statement (.ferryDepart core slot) := words_event rfl
theorem Laws.Words.ferryArrive (pkt : Nat) : Laws.Words.Statement (.ferryArrive pkt) := words_event rfl
theorem Laws.Words.ferryAdmit (core : Nat) : Laws.Words.Statement (.ferryAdmit core) := words_event rfl
theorem Laws.Words.sliceTranslate (pkt : Nat) : Laws.Words.Statement (.sliceTranslate pkt) := words_event rfl
theorem Laws.Words.tableWalkRead (pkt : Nat) : Laws.Words.Statement (.tableWalkRead pkt) := words_event rfl
theorem Laws.Words.messagePerform (pkt : Nat) : Laws.Words.Statement (.messagePerform pkt) := words_event rfl
theorem Laws.Words.heldMessagesRelease (core : Nat) : Laws.Words.Statement (.heldMessagesRelease core) := words_event rfl
theorem Laws.Words.ackReceive (pkt : Nat) : Laws.Words.Statement (.ackReceive pkt) := words_event rfl
theorem Laws.Words.stfeArrive (pkt : Nat) : Laws.Words.Statement (.stfeArrive pkt) := words_event rfl
theorem Laws.Words.feSleepExpire (core slot : Nat) : Laws.Words.Statement (.feSleepExpire core slot) := words_event rfl
theorem Laws.Words.stfeQueueExpire (core : Nat) : Laws.Words.Statement (.stfeQueueExpire core) := words_event rfl
theorem Laws.Words.mwaitTimeout (core slot : Nat) : Laws.Words.Statement (.mwaitTimeout core slot) := words_event rfl
theorem Laws.Words.landedPacket (pkt : Nat) : Laws.Words.Statement (.landedPacket pkt) := words_event rfl
theorem Laws.Words.rangeLockRegister (core op : Nat) : Laws.Words.Statement (.rangeLockRegister core op) := words_event rfl
theorem Laws.Words.copyComplete (core op : Nat) : Laws.Words.Statement (.copyComplete core op) := words_event rfl
theorem Laws.Words.copyFault (core op : Nat) : Laws.Words.Statement (.copyFault core op) := words_event rfl
theorem Laws.Words.copyResume (core op : Nat) : Laws.Words.Statement (.copyResume core op) := words_event rfl
theorem Laws.Words.copyAbandon (core op : Nat) : Laws.Words.Statement (.copyAbandon core op) := words_event rfl
theorem Laws.Words.streamStripFetch (core slot v : Nat) : Laws.Words.Statement (.streamStripFetch core slot v) := words_event rfl
theorem Laws.Words.streamStripWrite (core : Nat) : Laws.Words.Statement (.streamStripWrite core) := words_event rfl
theorem Laws.Words.matrixCommandStart (core : Nat) : Laws.Words.Statement (.matrixCommandStart core) := words_event rfl
theorem Laws.Words.arrayModeChange (core : Nat) : Laws.Words.Statement (.arrayModeChange core) := words_event rfl
theorem Laws.Words.gangJoin (core : Nat) : Laws.Words.Statement (.gangJoin core) := words_event rfl
theorem Laws.Words.gangTimeout (core : Nat) : Laws.Words.Statement (.gangTimeout core) := words_event rfl
theorem Laws.Words.matrixKblock (core : Nat) : Laws.Words.Statement (.matrixKblock core) := words_event rfl
theorem Laws.Words.matrixSplit (core : Nat) : Laws.Words.Statement (.matrixSplit core) := words_event rfl
theorem Laws.Words.matrixStatusPost (core : Nat) : Laws.Words.Statement (.matrixStatusPost core) := words_event rfl
theorem Laws.Words.folioDeliver (core : Nat) : Laws.Words.Statement (.folioDeliver core) := words_event rfl
theorem Laws.Words.folioFree (quire slot : Nat) : Laws.Words.Statement (.folioFree quire slot) := words_event rfl
theorem Laws.Words.bankDotPerform (pkt : Nat) : Laws.Words.Statement (.bankDotPerform pkt) := words_event rfl
theorem Laws.Words.bdotqResultDeliver (core slot : Nat) : Laws.Words.Statement (.bdotqResultDeliver core slot) := words_event rfl
theorem Laws.Words.rowCommandPerform (core op : Nat) : Laws.Words.Statement (.rowCommandPerform core op) := words_event rfl
theorem Laws.Words.rowCommandComplete (core op : Nat) : Laws.Words.Statement (.rowCommandComplete core op) := words_event rfl
theorem Laws.Words.barrierUnitArrival (pkt : Nat) : Laws.Words.Statement (.barrierUnitArrival pkt) := words_event rfl
theorem Laws.Words.barrierUnitInit (pkt : Nat) : Laws.Words.Statement (.barrierUnitInit pkt) := words_event rfl
theorem Laws.Words.barrierAnswer (pkt : Nat) : Laws.Words.Statement (.barrierAnswer pkt) := words_event rfl
theorem Laws.Words.barrierReleaseDeliver (pkt : Nat) : Laws.Words.Statement (.barrierReleaseDeliver pkt) := words_event rfl
theorem Laws.Words.barrierQuery (pkt : Nat) : Laws.Words.Statement (.barrierQuery pkt) := words_event rfl
theorem Laws.Words.barrierQueryRetry (core slot : Nat) : Laws.Words.Statement (.barrierQueryRetry core slot) := words_event rfl
theorem Laws.Words.messageDeliver (pkt : Nat) : Laws.Words.Statement (.messageDeliver pkt) := words_event rfl
theorem Laws.Words.streamPortWrite (writer front off : Nat) (w : Word) : Laws.Words.Statement (.streamPortWrite writer front off w) := words_event rfl
theorem Laws.Words.streamPacketEnter (front : Nat) : Laws.Words.Statement (.streamPacketEnter front) := words_event rfl
theorem Laws.Words.feGo (front : Nat) : Laws.Words.Statement (.feGo front) := words_event rfl
theorem Laws.Words.launchHeader (front : Nat) : Laws.Words.Statement (.launchHeader front) := words_event rfl
theorem Laws.Words.taskPacket (front : Nat) : Laws.Words.Statement (.taskPacket front) := words_event rfl
theorem Laws.Words.semaphoreWait (front : Nat) : Laws.Words.Statement (.semaphoreWait front) := words_event rfl
theorem Laws.Words.semaphorePoll (front : Nat) : Laws.Words.Statement (.semaphorePoll front) := words_event rfl
theorem Laws.Words.semaphoreTimeout (front : Nat) : Laws.Words.Statement (.semaphoreTimeout front) := words_event rfl
theorem Laws.Words.semaphoreSignal (front : Nat) : Laws.Words.Statement (.semaphoreSignal front) := words_event rfl
theorem Laws.Words.groupPlace (front : Nat) : Laws.Words.Statement (.groupPlace front) := words_event rfl
theorem Laws.Words.exitReport (pkt : Nat) : Laws.Words.Statement (.exitReport pkt) := words_event rfl
theorem Laws.Words.taskRecordState (front slot : Nat) (w : Word) : Laws.Words.Statement (.taskRecordState front slot w) := words_event rfl
theorem Laws.Words.spawnArrive (pkt : Nat) : Laws.Words.Statement (.spawnArrive pkt) := words_event rfl
theorem Laws.Words.triggerPost (pkt : Nat) : Laws.Words.Statement (.triggerPost pkt) := words_event rfl
theorem Laws.Words.triggerBind (pkt : Nat) : Laws.Words.Statement (.triggerBind pkt) := words_event rfl
theorem Laws.Words.triggerOvfClear (entry : Nat) : Laws.Words.Statement (.triggerOvfClear entry) := words_event rfl
theorem Laws.Words.istwPerform (pkt : Nat) : Laws.Words.Statement (.istwPerform pkt) := words_event rfl
theorem Laws.Words.startPerform (pkt : Nat) : Laws.Words.Statement (.startPerform pkt) := words_event rfl
theorem Laws.Words.threadStop (core slot : Nat) : Laws.Words.Statement (.threadStop core slot) := words_event rfl
theorem Laws.Words.groupStop (group : BitVec 30) : Laws.Words.Statement (.groupStop group) := words_event rfl
theorem Laws.Words.quireStop (core : Nat) : Laws.Words.Statement (.quireStop core) := words_event rfl
theorem Laws.Words.coreStop (core : Nat) : Laws.Words.Statement (.coreStop core) := words_event rfl
theorem Laws.Words.threadRelease (core slot : Nat) : Laws.Words.Statement (.threadRelease core slot) := words_event rfl
theorem Laws.Words.groupRelease (group : BitVec 30) : Laws.Words.Statement (.groupRelease group) := words_event rfl
theorem Laws.Words.quireRelease (core : Nat) : Laws.Words.Statement (.quireRelease core) := words_event rfl
theorem Laws.Words.coreRelease (core : Nat) : Laws.Words.Statement (.coreRelease core) := words_event rfl
theorem Laws.Words.haltTreeDeliver (part : Nat) (stop : Bool) : Laws.Words.Statement (.haltTreeDeliver part stop) := words_event rfl
theorem Laws.Words.buoyForward (pkt : Nat) : Laws.Words.Statement (.buoyForward pkt) := words_event rfl
theorem Laws.Words.relocationNotice (pkt : Nat) : Laws.Words.Statement (.relocationNotice pkt) := words_event rfl
theorem Laws.Words.relocationFenceAck (pkt : Nat) : Laws.Words.Statement (.relocationFenceAck pkt) := words_event rfl
theorem Laws.Words.buoyRetire (core slot : Nat) : Laws.Words.Statement (.buoyRetire core slot) := words_event rfl
theorem Laws.Words.dtabWrite (core : Nat) (w : Word) : Laws.Words.Statement (.dtabWrite core w) := words_event rfl
theorem Laws.Words.frecClear (core slot : Nat) : Laws.Words.Statement (.frecClear core slot) := words_event rfl
theorem Laws.Words.mberrClear (core : Nat) (group : BitVec 30) (w : Word) : Laws.Words.Statement (.mberrClear core group w) := words_event rfl
theorem Laws.Words.splitcWrite (w : Word) : Laws.Words.Statement (.splitcWrite w) := words_event rfl
theorem Laws.Words.aliasEntryWrite (k : Nat) (w : Word) : Laws.Words.Statement (.aliasEntryWrite k w) := words_event rfl
theorem Laws.Words.aliasDrain (k : Nat) : Laws.Words.Statement (.aliasDrain k) := words_event rfl
theorem Laws.Words.aliasMarkLost (k : Nat) : Laws.Words.Statement (.aliasMarkLost k) := words_event rfl
theorem Laws.Words.routeEntryWrite (dest : Nat) (w : Word) : Laws.Words.Statement (.routeEntryWrite dest w) := words_event rfl
theorem Laws.Words.routeSwitch (dest : Nat) : Laws.Words.Statement (.routeSwitch dest) := words_event rfl
theorem Laws.Words.pathClassWrite (idx : Nat) (w : Word) : Laws.Words.Statement (.pathClassWrite idx w) := words_event rfl
theorem Laws.Words.hcDropFrame (core : Nat) (w : Word) : Laws.Words.Statement (.hcDropFrame core w) := words_event rfl
theorem Laws.Words.hcDropAll (core : Nat) : Laws.Words.Statement (.hcDropAll core) := words_event rfl
theorem Laws.Words.logicalNumberWrite (w : Word) : Laws.Words.Statement (.logicalNumberWrite w) := words_event rfl
theorem Laws.Words.configWordWrite (writer off : Nat) (w : Word) : Laws.Words.Statement (.configWordWrite writer off w) := words_event rfl
theorem Laws.Words.portEnable (port : Nat) : Laws.Words.Statement (.portEnable port) := words_event rfl
theorem Laws.Words.portRetrain (port : Nat) : Laws.Words.Statement (.portRetrain port) := words_event rfl
theorem Laws.Words.txkeyStage (port : Nat) (high : Bool) (w : Word) : Laws.Words.Statement (.txkeyStage port high w) := words_event rfl
theorem Laws.Words.rxkeyStage (port : Nat) (high : Bool) (w : Word) : Laws.Words.Statement (.rxkeyStage port high w) := words_event rfl
theorem Laws.Words.trainingComplete (port : Nat) (peer : TrainInfo) : Laws.Words.Statement (.trainingComplete port peer) := words_event rfl
theorem Laws.Words.portFail (port : Nat) : Laws.Words.Statement (.portFail port) := words_event rfl
theorem Laws.Words.linkLoss (port : Nat) : Laws.Words.Statement (.linkLoss port) := words_event rfl
theorem Laws.Words.flitSlotTransmit (port : Nat) : Laws.Words.Statement (.flitSlotTransmit port) := words_event rfl
theorem Laws.Words.flitReceive (port : Nat) (flit : Flit) : Laws.Words.Statement (.flitReceive port flit) := words_event rfl
theorem Laws.Words.nakTimer (port : Nat) : Laws.Words.Statement (.nakTimer port) := words_event rfl
theorem Laws.Words.replayTimeout (port seq : Nat) : Laws.Words.Statement (.replayTimeout port seq) := words_event rfl
theorem Laws.Words.linkPacketArrive (port : Nat) : Laws.Words.Statement (.linkPacketArrive port) := words_event rfl
theorem Laws.Words.adaptiveFallback (pkt : Nat) : Laws.Words.Statement (.adaptiveFallback pkt) := words_event rfl
theorem Laws.Words.receiptReceive (pkt : Nat) : Laws.Words.Statement (.receiptReceive pkt) := words_event rfl
theorem Laws.Words.abandonNotice (pkt : Nat) : Laws.Words.Statement (.abandonNotice pkt) := words_event rfl
theorem Laws.Words.retryTimeout (port pid : Nat) : Laws.Words.Statement (.retryTimeout port pid) := words_event rfl
theorem Laws.Words.pidRecordExpire (idx : Nat) : Laws.Words.Statement (.pidRecordExpire idx) := words_event rfl
theorem Laws.Words.forwardWindowExpire (k : Nat) : Laws.Words.Statement (.forwardWindowExpire k) := words_event rfl
theorem Laws.Words.homeQuery (pkt : Nat) : Laws.Words.Statement (.homeQuery pkt) := words_event rfl
theorem Laws.Words.tensorCombine (tree block : Nat) : Laws.Words.Statement (.tensorCombine tree block) := words_event rfl
theorem Laws.Words.softError (site : ErrSite) (corrected : Bool) : Laws.Words.Statement (.softError site corrected) := words_event rfl
theorem Laws.Words.dramScrub (line : Nat) : Laws.Words.Statement (.dramScrub line) := words_event rfl
theorem Laws.Words.verticalBusChange (column state nbad spare : Nat) : Laws.Words.Statement (.verticalBusChange column state nbad spare) := words_event rfl
theorem Laws.Words.elogHeadRead (die : Nat) : Laws.Words.Statement (.elogHeadRead die) := words_event rfl
theorem Laws.Words.attestRequest : Laws.Words.Statement .attestRequest := words_event rfl
theorem Laws.Words.attestReport : Laws.Words.Statement .attestReport := words_event rfl
theorem Laws.Words.ucieRead (dword0 : Word) : Laws.Words.Statement (.ucieRead dword0) := words_event rfl
theorem Laws.Words.ucieWrite (dword0 dword1 : Word) : Laws.Words.Statement (.ucieWrite dword0 dword1) := words_event rfl
theorem Laws.Words.ucieLinkDown : Laws.Words.Statement .ucieLinkDown := words_event rfl
theorem Laws.Words.coldReset : Laws.Words.Statement .coldReset := words_event rfl
theorem Laws.Words.powerLoss : Laws.Words.Statement .powerLoss := words_event rfl
theorem Laws.Words.ucieLinkUp : Laws.Words.Statement .ucieLinkUp := words_event rfl
theorem Laws.Words.engineRead (pkt : Nat) : Laws.Words.Statement (.engineRead pkt) := words_event rfl
theorem Laws.Words.meshPacketTimeout (pkt : Nat) : Laws.Words.Statement (.meshPacketTimeout pkt) := words_event rfl

end Sys2Proof
end

