-- ==== Sys2Proof/Tests/Slice0.lean ====
section
/-! SUPPORT. Tests: a witness of the hypotheses of each statement and of each of its clauses, words of the spec's listings
and what they decode to, ill-formed words and the check that refuses each, and results that the spec's tables give. -/

namespace Sys2Proof.Tests

set_option Elab.async false
open Machine

/-- A machine with a program placed (log 4), nothing on its agenda, whose domain 0 has an address space and key slot 0. -/
def base : State :=
  { State.reset.withFetchWord 16 0 with agenda := [], space := [(0, 0x8000000000000000), (1, 1)] }
/-- The thread that the program runs in, changed. -/
def th (f : Thread → Thread) : Thread := f ((base.thread? 0 0).getD (loadedThread 0))
/-- The machine with its thread and then its core 0 changed. -/
def at0 (f : Thread → Thread) (g : CoreSt → CoreSt := id) : State := (base.setThread 0 0 (th f)).modCore 0 g
/-- The chain "op 3, 1" without a prefix, with b = 2, and with an immediate of 11 bits. -/
def c0 : Chain := ⟨false, 3, 1, 0, [], none, false, none⟩
def cR : Chain := { c0 with xreg := some ⟨2, false, false, false, 0⟩ }
def cI (n : Nat) : Chain := { c0 with ximm := [BitVec.ofNat 11 n] }
/-- The chain of an instruction without operands but an immediate. -/
def cZ (n : Nat) : Chain := { cI n with d := 0, a := 0 }
/-- The chain without any operand. -/
def cN : Chain := { c0 with d := 0, a := 0 }
/-- A chain with an etype. -/
def cE (e : BitVec 3) : Chain := { c0 with xctl := some ⟨.core, e, false, false⟩ }
/-- A register of a thread set. -/
def withG (n : Nat) (v : Word) (t : Thread) : Thread := { t with g := t.g.set! n v }
/-- A thread with a lease of one window. -/
def leased (t : Thread) : Thread := { t with lease := some { windows := 1 } }

/-- The thread at hand of such a machine. -/
theorem here_at0 (f : Thread → Thread) (g : CoreSt → CoreSt) (hg : ∀ k, (g k).threads = k.threads) :
    (at0 f g).here = some (th f) := by
  have hc : (at0 f g).cur = (0, 0) := rfl
  unfold State.here
  rw [hc]
  unfold at0 State.thread?
  rw [State.core_modCore, hg, State.core_setThread]
  exact tget_tset ..

/-! ### Witnesses: states and operands that meet the hypotheses of each statement -/

theorem witness_AluTwoResult : (at0 id).here = some (th id) ∧
    ∀ o ∈ aluTwo.map (·.1), ∀ c ∈ [c0, cR, cI 64],
      executable (at0 id) (th id) o c = true ∧ portless c = true ∧ isQueue c.d = false :=
  ⟨here_at0 _ _ fun _ => rfl, by decide +kernel⟩

theorem witness_LongDivision : (at0 id).here = some (th id) ∧
    ∀ o ∈ aluLong.map (·.1), ∀ c ∈ [c0, cR, cI 0],
      executable (at0 id) (th id) o c = true ∧ portless c = true ∧ isQueue c.d = false :=
  ⟨here_at0 _ _ fun _ => rfl, by decide +kernel⟩

theorem witness_AluOneResult : (at0 id).here = some (th id) ∧
    ∀ o ∈ aluOne.map (·.1), executable (at0 id) (th id) o c0 = true ∧ isQueue c0.a = false ∧ isQueue c0.d = false :=
  ⟨here_at0 _ _ fun _ => rfl, by decide +kernel⟩

theorem witness_CompareResult : (at0 id).here = some (th id) ∧
    ∀ o ∈ compares.map (·.1), ∀ c ∈ [c0, cR, cI 0, { c0 with d := 0 }],
      executable (at0 id) (th id) o c = true ∧ portless c = true :=
  ⟨here_at0 _ _ fun _ => rfl, by decide +kernel⟩

theorem witness_PredicateOperations : (at0 id).here = some (th id) ∧
    (∀ o ∈ predTwo.map (·.1), ∀ c ∈ [c0, cR], executable (at0 id) (th id) o c = true) ∧
    executable (at0 id) (th id) .pnot c0 = true :=
  ⟨here_at0 _ _ fun _ => rfl, by decide +kernel⟩

theorem witness_MoveResult : (at0 id).here = some (th id) ∧
    (∀ o ∈ [Op.movi, .addi, .andi, .rdpw], executable (at0 id) (th id) o { c0 with a := 0 } = true) ∧
    executable (at0 id) (th id) .sel cR = true ∧ isQueue cR.b = false :=
  ⟨here_at0 _ _ fun _ => rfl, by decide +kernel⟩

theorem witness_PredicateWordWrites : (at0 id).here = some (th id) ∧
    executable (at0 id) (th id) .wrpw { c0 with d := 0 } = true ∧ wrpwBad ((th id).scalar 1) = false ∧
    executable (at0 id) (th id) .fclrf { cI 31 with d := 0, a := 0 } = true ∧
    executable (at0 id) (th id) .fmt { cI 0 with d := 0, a := 0 } = true :=
  ⟨here_at0 _ _ fun _ => rfl, by decide +kernel⟩

theorem witness_CycleCounterRead : (at0 id).here = some (th id) ∧
    executable (at0 id) (th id) .rdcyc { c0 with a := 0 } = true :=
  ⟨here_at0 _ _ fun _ => rfl, by decide +kernel⟩

theorem witness_RelativeBranches : (at0 id).here = some (th id) ∧
    executable (at0 id) (th id) .nop { c0 with d := 0, a := 0 } = true ∧
    (∀ o ∈ [Op.bt, .bf, .call], executable (at0 id) (th id) o { c0 with a := 0, imm6 := 32 } = true) :=
  ⟨here_at0 _ _ fun _ => rfl, by decide +kernel⟩

theorem witness_RegisterBranches :
    (∀ v, (at0 (withG 1 v)).here = some (th (withG 1 v))) ∧
    (executable (at0 (withG 1 0x3FFFE)) (th (withG 1 0x3FFFE)) .jr { c0 with d := 0 } = true ∧
      executable (at0 (withG 1 0x3FFFE)) (th (withG 1 0x3FFFE)) .callr c0 = true ∧
      bit ((th (withG 1 0x3FFFE)).scalar 1) 0 = false) ∧
    executable (at0 (withG 1 1)) (th (withG 1 1)) .jr { c0 with d := 0 } = true ∧
    executable (at0 (withG 1 1)) (th (withG 1 1)) .callr c0 = true ∧ bit ((th (withG 1 1)).scalar 1) 0 = true :=
  ⟨fun _ => here_at0 _ _ fun _ => rfl, by decide +kernel⟩

theorem witness_FloatTwoResult : (at0 id).here = some (th id) ∧
    ∀ o ∈ fpTwo.map (·.1), ∀ c ∈ [c0, cR],
      executable (at0 id) (th id) o c = true ∧ portless c = true ∧ fpFormatsOk o c (th id) = true :=
  ⟨here_at0 _ _ fun _ => rfl, by decide +kernel⟩

theorem witness_FloatMultiplyAdd : (at0 id).here = some (th id) ∧
    ∀ o ∈ [Op.fma, .fms], executable (at0 id) (th id) o cR = true ∧ isQueue cR.b = false ∧
      fselFmtOk (fpFmtA o cR (th id)) = true ∧ fselFmtOk (fpFmtB o cR (th id)) = true :=
  ⟨here_at0 _ _ fun _ => rfl, by decide +kernel⟩

theorem witness_FloatLongResult : (at0 id).here = some (th id) ∧
    executable (at0 id) (th id) .fdiv cR = true ∧ fpFormatsOk .fdiv cR (th id) = true ∧
    executable (at0 id) (th id) .fsqrt c0 = true ∧ fselFmtOk (fpFmtA .fsqrt c0 (th id)) = true :=
  ⟨here_at0 _ _ fun _ => rfl, by decide +kernel⟩

theorem witness_FloatOneResult : (at0 id).here = some (th id) ∧
    (∀ o ∈ fpOne.map (fun e => (e.1, e.2.2.1, e.2.1 (etCode e.1 c0))), executable (at0 id) (th id) o.1 c0 = true ∧
      fselFmtOk (fmtA (th id).pw o.2.1 o.2.2) = true) ∧
    ∀ o ∈ [Op.itof, .ntof], executable (at0 id) (th id) o c0 = true :=
  ⟨here_at0 _ _ fun _ => rfl, by decide +kernel⟩

theorem witness_FloatCompareResult : (at0 id).here = some (th id) ∧
    ∀ o ∈ fpCompares.map (·.1), ∀ c ∈ [cR], executable (at0 id) (th id) o c = true ∧
      fselFmtOk (fpFmtA o c (th id)) = true ∧ fselFmtOk (fpFmtB o c (th id)) = true :=
  ⟨here_at0 _ _ fun _ => rfl, by decide +kernel⟩

/-- PP = 1 and FSEL naming format 7 for the source a, or for the source b. -/
def badFsel (t : Thread) : Thread := { t with pw := setPP t.pw 0x0F0 }
def badFselB (t : Thread) : Thread := { t with pw := setPP t.pw 0x00F }
theorem witness_FormatRefused : (∀ f, (at0 f).here = some (th f)) ∧
    (∀ o ∈ [Op.fadd, .fsub, .fmul, .fmin, .fmax, .fdiv], executable (at0 badFsel) (th badFsel) o cR = true ∧
      fpFormatsOk o cR (th badFsel) = false ∧ executable (at0 badFselB) (th badFselB) o cR = true ∧
      fpFormatsOk o cR (th badFselB) = false) ∧
    (∀ o ∈ [Op.fma, .fms, .fcmpeq, .fcmplt, .fcmple, .fcmpun], executable (at0 badFsel) (th badFsel) o cR = true ∧
      fselFmtOk (fpFmtA o cR (th badFsel)) = false ∧ executable (at0 badFselB) (th badFselB) o cR = true ∧
      fselFmtOk (fpFmtB o cR (th badFselB)) = false) ∧
    (executable (at0 badFsel) (th badFsel) .fsqrt c0 = true ∧ fselFmtOk (fpFmtA .fsqrt c0 (th badFsel)) = false) ∧
    (∀ e ∈ (fpOne.filter fun e => e.2.2.1).map (fun e => (e.1, e.2.1 (etCode e.1 c0))),
      executable (at0 badFsel) (th badFsel) e.1 c0 = true ∧ fselFmtOk (fmtA (th badFsel).pw true e.2) = false) :=
  ⟨fun _ => here_at0 _ _ fun _ => rfl, by decide +kernel⟩

theorem witness_VectorIntegerTwo : (at0 leased).here = some (th leased) ∧
    ∀ o ∈ vecIntTwo.map (·.1), ∀ c ∈ [c0, cR], executable (at0 leased) (th leased) o c = true ∧
      streamless o c (th leased) = true :=
  ⟨here_at0 _ _ fun _ => rfl, by decide +kernel⟩

theorem witness_VectorIntegerOne : (at0 leased).here = some (th leased) ∧
    ∀ o ∈ [(Op.viabs, c0), (.vineg, c0), (.vimad, cR), (.viota, { c0 with a := 0 }), (.vmov, c0)],
      executable (at0 leased) (th leased) o.1 o.2 = true ∧ streamless o.1 o.2 (th leased) = true :=
  ⟨here_at0 _ _ fun _ => rfl, by decide +kernel⟩

theorem witness_VectorMoves : (at0 leased).here = some (th leased) ∧
    (∀ o ∈ [(Op.vperm, cR), (.vbcast, c0), (.vsplati, { cI 1023 with a := 0 })],
      executable (at0 leased) (th leased) o.1 o.2 = true ∧ streamless o.1 o.2 (th leased) = true) ∧
    executable (at0 leased) (th leased) .vins (cI 15) = true ∧ executable (at0 leased) (th leased) .vext (cI 15) = true :=
  ⟨here_at0 _ _ fun _ => rfl, by decide +kernel⟩

theorem witness_VectorIntegerCompare : (at0 leased).here = some (th leased) ∧
    ∀ o ∈ vecIntCompares.map (·.1), executable (at0 leased) (th leased) o cR = true ∧
      streamless o cR (th leased) = true :=
  ⟨here_at0 _ _ fun _ => rfl, by decide +kernel⟩

theorem witness_MaskOperations : (at0 leased).here = some (th leased) ∧
    (∀ o ∈ maskTwo.map (·.1), ∀ c ∈ [c0, cR], executable (at0 leased) (th leased) o c = true) ∧
    executable (at0 leased) (th leased) .mnot c0 = true ∧ executable (at0 leased) (th leased) .mall { c0 with a := 0 } = true ∧
    executable (at0 leased) (th leased) .mpop c0 = true :=
  ⟨here_at0 _ _ fun _ => rfl, by decide +kernel⟩

theorem witness_Reductions : (at0 leased).here = some (th leased) ∧
    (∀ o ∈ vecIntReductions.map (·.1), executable (at0 leased) (th leased) o c0 = true ∧
      streamless o c0 (th leased) = true) ∧
    ∀ o ∈ vecFloatReductions.map (·.1), executable (at0 leased) (th leased) o c0 = true ∧
      streamless o c0 (th leased) = true ∧ fselFmtOk (fmtA (th leased).pw true 1) = true ∧
      laneCount (fw (fmtA (th leased).pw true 1)) = some 32 :=
  ⟨here_at0 _ _ fun _ => rfl, by decide +kernel⟩

theorem witness_VectorFloatTwo : (at0 leased).here = some (th leased) ∧
    ∀ o ∈ vecFloatTwo.map (·.1), ∀ c ∈ [c0, cR], executable (at0 leased) (th leased) o c = true ∧
      streamless o c (th leased) = true ∧ fselFmtOk (vecFmtX o c (th leased)) = true ∧
      fselFmtOk (vecFmtY o c (th leased)) = true ∧
      (laneCount (max (fw (etCode o c)) (max (fw (vecFmtX o c (th leased))) (fw (vecFmtY o c (th leased)))))).isSome = true :=
  ⟨here_at0 _ _ fun _ => rfl, by decide +kernel⟩

theorem witness_VectorFloatOne : (at0 leased).here = some (th leased) ∧
    ∀ e ∈ vecFloatOne.map (fun e => (e.1, fmtA (th leased).pw e.2.2.1 (e.2.1 (etCode e.1 c0)), e.2.2.2.1 (etCode e.1 c0))),
      executable (at0 leased) (th leased) e.1 c0 = true ∧ streamless e.1 c0 (th leased) = true ∧ fselFmtOk e.2.1 = true ∧
      (laneCount (max e.2.2 (fw e.2.1))).isSome = true :=
  ⟨here_at0 _ _ fun _ => rfl, by decide +kernel⟩

theorem witness_VectorFloatFused : (at0 leased).here = some (th leased) ∧
    executable (at0 leased) (th leased) .vfma cR = true ∧ streamless .vfma cR (th leased) = true ∧
    fselFmtOk (fpFmtA .vfma cR (th leased)) = true ∧ fselFmtOk (fpFmtB .vfma cR (th leased)) = true ∧
    laneCount (max (fw (etCode .vfma cR)) (max (fw (fpFmtA .vfma cR (th leased))) (fw (fpFmtB .vfma cR (th leased))))) = some 32 ∧
    executable (at0 leased) (th leased) .vcvtf c0 = true ∧ streamless .vcvtf c0 (th leased) = true :=
  ⟨here_at0 _ _ fun _ => rfl, by decide +kernel⟩

theorem witness_VectorFloatCompare : (at0 leased).here = some (th leased) ∧
    ∀ o ∈ vecFloatCompares.map (·.1), executable (at0 leased) (th leased) o cR = true ∧ streamless o cR (th leased) = true ∧
      fselFmtOk (fpFmtA o cR (th leased)) = true ∧ fselFmtOk (fpFmtB o cR (th leased)) = true ∧
      laneCount (max (fw (fpFmtA o cR (th leased))) (fw (fpFmtB o cR (th leased)))) = some 32 :=
  ⟨here_at0 _ _ fun _ => rfl, by decide +kernel⟩

theorem witness_BlockQuantisation : (at0 leased).here = some (th leased) ∧
    (∀ o ∈ [(Op.mxq, cE 4), (.tsq, c0), (.mxdq, cE 4), (.tsdq, c0)], executable (at0 leased) (th leased) o.1 o.2 = true ∧
      streamless o.1 o.2 (th leased) = true) ∧ fmtA (th leased).pw true 1 = 1 :=
  ⟨here_at0 _ _ fun _ => rfl, by decide +kernel⟩

/-- A core whose lease windows are all taken by another thread. -/
def full (k : CoreSt) : CoreSt := { k with threads := tset k.threads 1 { th id with lease := some { windows := 4 } } }
/-- The chain of VLEASE n. -/
def cLease (n : Nat) : Chain := { c0 with imm6 := BitVec.ofNat 6 n, d := 0, a := 0 }
theorem witness_VectorLease :
    ((at0 id).here = some (th id) ∧ (th id).lease = none ∧ (at0 id).hereCore.leaseq = []) ∧
    (∀ n ∈ [1, 4], executable (at0 id) (th id) .vlease (cLease n) = true ∧
      leaseRoom ((issuedFor (at0 id) (th id) .vlease (cLease n)).core 0) (immInt .vlease (cLease n)).toNat = true) ∧
    (leaseRoom ((issuedFor (at0 id full) (th id) .vlease (cLease 1)).core 0) (immInt .vlease (cLease 1)).toNat = false ∧
      executable (at0 id full) (th id) .vlease (cLease 1) = true) ∧
    ((at0 id fun k => { k with leaseq := [1] }).hereCore.leaseq ≠ [] ∧
      executable (at0 id fun k => { k with leaseq := [1] }) (th id) .vlease (cLease 1) = true) ∧
    (executable (at0 leased) (th leased) .vlease (cLease 1) = true ∧ (th leased).lease ≠ none ∧
      executable (at0 leased) (th leased) .vfree { c0 with d := 0, a := 0 } = true) :=
  ⟨⟨here_at0 _ _ fun _ => rfl, rfl, rfl⟩, by decide +kernel⟩

/-! The local window -/

/-- A thread with a lease whose g1 is an address of the local window and whose g2 is 8. -/
def win (o : Nat) (t : Thread) : Thread := leased (withG 2 8 (withG 1 (word (0x00F0000000000000 + o)) t))
/-- What `Loadable` and `Storable` ask, as one truth value. -/
def loadable (s : State) (t : Thread) (ea : Word) (n align off : Nat) : Bool :=
  decide (windowCheck (s.domEntry s.cur.1 t) ea n align = .ok off) && !threadConflict s.hereCore false ⟨0, off, n⟩ &&
  (poisonIn s.hereCore 0 off n).isNone
def storable (s : State) (t : Thread) (ea : Word) (n align off : Nat) : Bool :=
  decide (windowCheck (s.domEntry s.cur.1 t) ea n align = .ok off) && !threadConflict s.hereCore true ⟨0, off, n⟩
theorem loadable_of {s : State} {t : Thread} {ea : Word} {n align off : Nat} (h : loadable s t ea n align off = true) :
    Loadable s t ea n align off := by
  simpa [loadable, Loadable, and_assoc] using h
theorem storable_of {s : State} {t : Thread} {ea : Word} {n align off : Nat} (h : storable s t ea n align off = true) :
    Storable s t ea n align off := by
  simpa [storable, Storable] using h

theorem witness_WindowLoads : (∀ o, (at0 (win o)).here = some (th (win o))) ∧ portless c0 = true ∧
    executable (at0 (win 0x3FFFF8)) (th (win 0x3FFFF8)) .ldl c0 = true ∧
    executable (at0 (win 0x3FFF80)) (th (win 0x3FFF80)) .vld c0 = true ∧ streamless .vld c0 (th (win 0x3FFF80)) = true ∧
    executable (at0 (win 0x3FFFF0)) (th (win 0x3FFFF0)) .vldm c0 = true ∧
    Loadable (at0 (win 0x3FFFF8)) (th (win 0x3FFFF8)) (addressOf .ldl c0 (th (win 0x3FFFF8))) 8 8 0x3FFFF8 ∧
    Loadable (at0 (win 0x3FFF80)) (th (win 0x3FFF80)) (addressOf .vld c0 (th (win 0x3FFF80))) 128 8 0x3FFF80 ∧
    Loadable (at0 (win 0x3FFFF0)) (th (win 0x3FFFF0)) (addressOf .vldm c0 (th (win 0x3FFFF0))) 16 8 0x3FFFF0 :=
  by refine ⟨fun _ => here_at0 _ _ fun _ => rfl, ?_, ?_, ?_, ?_, ?_, loadable_of (by decide +kernel), loadable_of (by decide +kernel), loadable_of (by decide +kernel)⟩ <;> decide +kernel

theorem witness_WindowGathers : (∀ o, (at0 (win o)).here = some (th (win o))) ∧
    executable (at0 (win 0)) (th (win 0)) .vlds cR = true ∧ streamless .vlds cR (th (win 0)) = true ∧
    isQueue cR.b = false ∧
    (∀ i, i < 16 → Loadable (at0 (win 0)) (th (win 0)) (strideAddress cR (th (win 0)) i) 8 8 (8 * i)) ∧
    executable (at0 (win 0)) (th (win 0)) .vgath cR = true ∧ streamless .vgath cR (th (win 0)) = true ∧
    ∀ i, i < 1024 / etWidth (etCode .vgath cR) → Loadable (at0 (win 0)) (th (win 0)) (indexAddress .vgath cR (th (win 0)) i)
      (etBytes (etCode .vgath cR)) (etBytes (etCode .vgath cR)) 0 :=
  ⟨fun _ => here_at0 _ _ fun _ => rfl, by decide +kernel, by decide +kernel, by decide +kernel,
    fun i h => loadable_of ((by decide +kernel : ∀ i : Fin 16, loadable (at0 (win 0)) (th (win 0))
      (strideAddress cR (th (win 0)) i) 8 8 (8 * i) = true) ⟨i, h⟩), by decide +kernel, by decide +kernel,
    fun i h => loadable_of ((by decide +kernel : ∀ i : Fin (1024 / etWidth (etCode .vgath cR)), loadable (at0 (win 0))
      (th (win 0)) (indexAddress .vgath cR (th (win 0)) i) (etBytes (etCode .vgath cR)) (etBytes (etCode .vgath cR)) 0 =
        true) ⟨i, h⟩)⟩

theorem witness_WindowStores : (∀ o, (at0 (win o)).here = some (th (win o))) ∧ portless c0 = true ∧
    executable (at0 (win 0x3FFFF8)) (th (win 0x3FFFF8)) .stl c0 = true ∧
    executable (at0 (win 0x3FFF80)) (th (win 0x3FFF80)) .vst c0 = true ∧ streamless .vst c0 (th (win 0x3FFF80)) = true ∧
    executable (at0 (win 0x3FFFF0)) (th (win 0x3FFFF0)) .vstm c0 = true ∧
    Storable (at0 (win 0x3FFFF8)) (th (win 0x3FFFF8)) (addressOf .stl c0 (th (win 0x3FFFF8))) 8 8 0x3FFFF8 ∧
    Storable (at0 (win 0x3FFF80)) (th (win 0x3FFF80)) (addressOf .vst c0 (th (win 0x3FFF80))) 128 8 0x3FFF80 ∧
    Storable (at0 (win 0x3FFFF0)) (th (win 0x3FFFF0)) (addressOf .vstm c0 (th (win 0x3FFFF0))) 16 8 0x3FFFF0 :=
  by refine ⟨fun _ => here_at0 _ _ fun _ => rfl, ?_, ?_, ?_, ?_, ?_, storable_of (by decide +kernel), storable_of (by decide +kernel), storable_of (by decide +kernel)⟩ <;> decide +kernel

theorem witness_WindowScatters : (∀ o, (at0 (win o)).here = some (th (win o))) ∧
    executable (at0 (win 0)) (th (win 0)) .vsts cR = true ∧ streamless .vsts cR (th (win 0)) = true ∧
    (∀ i, i < 16 → Storable (at0 (win 0)) (th (win 0)) (strideAddress cR (th (win 0)) i) 8 8 (8 * i)) ∧
    executable (at0 (win 0)) (th (win 0)) .vscat cR = true ∧ streamless .vscat cR (th (win 0)) = true ∧
    ∀ i, i < 1024 / etWidth (etCode .vscat cR) → Storable (at0 (win 0)) (th (win 0)) (indexAddress .vscat cR (th (win 0)) i)
      (etBytes (etCode .vscat cR)) (etBytes (etCode .vscat cR)) 0 :=
  ⟨fun _ => here_at0 _ _ fun _ => rfl, by decide +kernel, by decide +kernel,
    fun i h => storable_of ((by decide +kernel : ∀ i : Fin 16, storable (at0 (win 0)) (th (win 0))
      (strideAddress cR (th (win 0)) i) 8 8 (8 * i) = true) ⟨i, h⟩), by decide +kernel, by decide +kernel,
    fun i h => storable_of ((by decide +kernel : ∀ i : Fin (1024 / etWidth (etCode .vscat cR)), storable (at0 (win 0))
      (th (win 0)) (indexAddress .vscat cR (th (win 0)) i) (etBytes (etCode .vscat cR)) (etBytes (etCode .vscat cR)) 0 =
        true) ⟨i, h⟩)⟩

/-- A range lock of a copy over the first bytes of the local store. -/
def locked (k : CoreSt) : CoreSt := { k with locks := [⟨.copy 0 0, true, [⟨0, 0, 128⟩], []⟩] }
theorem witness_WindowTraps : (∀ f g, (∀ k, (g k).threads = k.threads) → (at0 f g).here = some (th f)) ∧
    (∀ e ∈ windowOps.map (·.1), executable (at0 leased) (th leased) e c0 = true ∧ streamless e c0 (th leased) = true ∧
      isWindow (addressOf e c0 (th leased)) = false) ∧
    (∀ e ∈ windowOps.map (·.1), ∀ o ∈ [1, 0x400000, 0, 4], executable (at0 (win o)) (th (win o)) e c0 = true) ∧
    (∀ e ∈ windowOps.map (fun e => (e.1, e.2.1 (etCode e.1 c0), e.2.2.1 (etCode e.1 c0), e.2.2.2)),
      0x400000 % e.2.2.1 = 0 ∧ 4 % e.2.2.1 ≠ 0 ∧
      ((at0 (win 0x400000)).domEntry 0 (th (win 0x400000))).guard 0x400000 e.2.1 = false ∧
      ((at0 (win 0) locked).domEntry 0 (th (win 0))).guard 0 e.2.1 = true ∧
      executable (at0 (win 0) locked) (th (win 0)) e.1 c0 = true ∧
      threadConflict (at0 (win 0) locked).hereCore e.2.2.2 ⟨0, 0, e.2.1⟩ = true) ∧
    isWindow (addressOf .ldl c0 (th (win 4))) = true :=
  ⟨fun _ _ h => here_at0 _ _ h, by decide +kernel⟩

/-! The issue of a chain, traps, threads -/

/-- A core whose domain 0 is not privileged. -/
def plain (k : CoreSt) : CoreSt := { k with doms := [(0, ⟨0x8000000000000000, 0x0040000000000000, 0, 0, true⟩)] }
/-- A core whose domain 0 is invalid. -/
def noDom (k : CoreSt) : CoreSt := { k with doms := [(0, ⟨0, 0, 0, 0, false⟩)] }
/-- A thread in a handler. -/
def handler (t : Thread) : Thread := { t with inHandler := true }
/-- A thread with a result pending, known or not. -/
def pending (known : Bool) (t : Thread) : Thread :=
  { t with pend := [⟨1, if known then some [.g 3 7] else none, 3⟩], span := [.g 3] }

theorem witness_IssueAndEnd : (at0 id).here = some (th id) ∧ (issuedFor (at0 id) (th id) .add c0).cur = (at0 id).cur ∧
    (∃ t', (issuedFor (at0 id) (th id) .add c0).here = some t' ∧ t'.status = .ready) := by
  refine ⟨here_at0 _ _ fun _ => rfl, rfl, _, rfl, by decide +kernel⟩

/-- A core whose receive queue of task 0 begins with a message whose next word is poisoned. -/
def poisonedQueue (k : CoreSt) : CoreSt := { k with recvq := [(0, ⟨[⟨0, 0, [1], none, 1, [0]⟩]⟩)] }
theorem witness_ChecksBeforeExecution : (∀ f g, (∀ k, (g k).threads = k.threads) → (at0 f g).here = some (th f)) ∧
    (th id).isReady = true ∧ chainErr .nop c0 ≠ none ∧
    (chainErr .viadd c0 = none ∧ threadErr (at0 id) 0 (th id) .viadd c0 = some cILLOP) ∧
    (chainErr .setown { c0 with d := 0 } = none ∧ threadErr (at0 id plain) 0 (th id) .setown { c0 with d := 0 } = some cPRIV) ∧
    (chainErr .add c0 = none ∧ threadErr (at0 id) 0 (th id) .add c0 = none ∧ hazard [.g 1] .add c0 = true) ∧
    (hazard [] .add cR = false ∧
      guardParity { th id with parity := [.flags] } { c0 with xreg := some ⟨2, false, false, false, 1⟩ } = true) ∧
    (guardParity (th id) { c0 with xreg := some ⟨2, false, false, false, 1⟩ } = false ∧
      guardHolds (th id).pw .add { c0 with xreg := some ⟨2, false, false, false, 1⟩ } = false) ∧
    (guardHolds (th id).pw .add c0 = true ∧ parityErr { th id with parity := [.g 1] } .add c0 = true) ∧
    (parityErr (th id) .mov { c0 with a := 14 } = false ∧
      queuePoison (at0 id poisonedQueue) 0 (th id) .mov { c0 with a := 14 } = true ∧
      portWait (at0 id poisonedQueue) 0 0 .mov { c0 with a := 14 } = none) ∧
    (portWait (at0 id) 0 0 .mov { c0 with a := 12 } = some (.pop 0) ∧ portWait (at0 id) 0 0 .add c0 = none) :=
  ⟨fun _ _ h => here_at0 _ _ h, by decide +kernel⟩

theorem witness_TrapEntry : (∀ f g, (∀ k, (g k).threads = k.threads) → (at0 f g).here = some (th f)) ∧
    ((th id).inHandler = false ∧ ((at0 id).domEntry 0 (th id)).ok = true ∧ (th id).allKnown = true) ∧
    ((th (pending false)).inHandler = false ∧ (th (pending false)).allKnown = false) ∧ (th handler).inHandler = true ∧
    ((at0 id noDom).domEntry 0 (th id)).ok = false :=
  ⟨fun _ _ h => here_at0 _ _ h, by decide +kernel⟩

/-- A thread in a handler whose xpw has a bit that must be zero; one that has entered a gate there. -/
def badXpw (t : Thread) : Thread := { handler t with xpw := 0xFFFFFFFFFFFFFFFF }
def inGate (t : Thread) : Thread := { t with gates := [⟨2, 0, 1⟩] }
theorem witness_TrapAndReturn : (∀ f, (at0 f).here = some (th f)) ∧
    executable (at0 id) (th id) .trap (cZ 1023) = true ∧ executable (at0 handler) (th handler) .tret cN = true ∧
    (∀ known, executable (at0 fun t => handler (pending known t)) (th fun t => handler (pending known t)) .tret
        { cN with marker := true } = true ∧ (th fun t => handler (pending known t)).pend ≠ []) ∧
    (executable (at0 handler) (th handler) .tret { cN with marker := true } = true ∧ (th handler).pend = []) ∧
    ((th handler).gates.length ≤ (th handler).entryDepth ∧ pwReserved (th handler).xpw = false ∧
      fselOk (pwFsel (th handler).xpw) = true) ∧
    (executable (at0 id) (th id) .tret cN = true ∧ (th id).inHandler = false) ∧
    (executable (at0 fun t => inGate (handler t)) (th fun t => inGate (handler t)) .tret cN = true ∧
      (th fun t => inGate (handler t)).entryDepth < (th fun t => inGate (handler t)).gates.length) ∧
    (executable (at0 badXpw) (th badXpw) .tret cN = true ∧ pwReserved (th badXpw).xpw = true) :=
  ⟨fun _ => here_at0 _ _ fun _ => rfl, by decide +kernel⟩

theorem witness_ThreadEnds : (∀ f, (at0 f).here = some (th f)) ∧
    (∀ o ∈ [Op.exit, .yield], executable (at0 id) (th id) o cN = true) ∧ (th id).gates = [] ∧ (th id).allKnown = true ∧
    (th id).pend = [] ∧
    (executable (at0 (pending false)) (th (pending false)) .exit cN = true ∧ (th (pending false)).allKnown = false ∧
      executable (at0 (pending false)) (th (pending false)) .yield cN = true ∧ (th (pending false)).pend ≠ []) ∧
    (executable (at0 inGate) (th inGate) .exit cN = true ∧ (th inGate).gates ≠ []) :=
  ⟨fun _ => here_at0 _ _ fun _ => rfl, by decide +kernel⟩

/-- A core whose domain 0 has `n` gates at address 0 of the local store, the entry 0 of the given dwords. -/
def gated (n : Nat) (w0 w1 w2 : Word) (k : CoreSt) : CoreSt :=
  { k with
    doms := [(0, ⟨0xE000000000000000, 0x0040000000000000, word n, 0, true⟩), (1, ⟨0, 0, 0, 0, false⟩)],
    lstore := ((k.lstore.write 0 8 w0.toNat).write 8 8 w1.toNat).write 16 8 w2.toNat }
/-- The dword 0 of a gate to domain 0 that keeps g0; to domain 1; the dword 2 that admits domain 1 only; an argument
window beyond the local store. -/
def gw : Word := 0x8000000000000001
/-- The state in which a write of dtab has been made by the thread at hand. -/
def dtabWritten (g : CoreSt → CoreSt) : State :=
  writeDtab ((issuedFor (at0 id g) (th id) .ctlw { cI 0x21 with d := 0 }).modHere fun u =>
    { u with pc := nextPc .ctlw { cI 0x21 with d := 0 } (th id) }) 0 0
theorem witness_GateCalls : (∀ f g, (∀ k, (g k).threads = k.threads) → (at0 f g).here = some (th f)) ∧
    executable (at0 id (gated 1 gw 0 0)) (th id) .gcall (cZ 0) = true ∧
    ((at0 id (gated 1 gw 0 0)).domEntry 0 (th id)).gtn = 1 ∧
    (calledGate (cZ 0) (at0 id (gated 1 gw 0 0)) (th id)).ok = true ∧
    (calledGate (cZ 0) (at0 id (gated 1 gw 0 0)) (th id)).admits (th id).dom = true ∧ (th id).gates.length < 4 ∧
    (calledDom (cZ 0) (at0 id (gated 1 gw 0 0)) (th id)).ok = true ∧
    (calledGate (cZ 0) (at0 id (gated 1 gw 0 0)) (th id)).window (calledDom (cZ 0) (at0 id (gated 1 gw 0 0)) (th id)) = true ∧
    (executable (at0 inGate) (th inGate) .gret (cZ 1023) = true ∧ (th inGate).gates = ⟨2, 0, 1⟩ :: [] ∧
      (th inGate).inHandler = false) ∧
    (executable (at0 fun t => { inGate (handler t) with entryDepth := 1 })
        (th fun t => { inGate (handler t) with entryDepth := 1 }) .gret (cZ 0) = true ∧
      (th fun t => { inGate (handler t) with entryDepth := 1 }).gates.length =
        (th fun t => { inGate (handler t) with entryDepth := 1 }).entryDepth) :=
  ⟨fun _ _ h => here_at0 _ _ h, by decide +kernel⟩

theorem witness_GateRefused : (∀ f g, (∀ k, (g k).threads = k.threads) → (at0 f g).here = some (th f)) ∧
    (executable (at0 id) (th id) .gcall (cZ 0) = true ∧ ((at0 id).domEntry 0 (th id)).gtn ≤ (immInt .gcall (cZ 0)).toNat) ∧
    (executable (at0 id (gated 1 0 0 0)) (th id) .gcall (cZ 0) = true ∧
      (calledGate (cZ 0) (at0 id (gated 1 0 0 0)) (th id)).ok = false) ∧
    (executable (at0 id (gated 1 gw 0 0x1001)) (th id) .gcall (cZ 0) = true ∧
      (calledGate (cZ 0) (at0 id (gated 1 gw 0 0x1001)) (th id)).ok = true ∧
      (calledGate (cZ 0) (at0 id (gated 1 gw 0 0x1001)) (th id)).admits 0 = false) ∧
    ((executable (at0 (fun t => { t with gates := List.replicate 4 ⟨2, 0, 1⟩ }) (gated 1 gw 0 0))
        (th fun t => { t with gates := List.replicate 4 ⟨2, 0, 1⟩ }) .gcall (cZ 0) = true)) ∧
    (executable (at0 id (gated 1 0x8000100000000001 0 0)) (th id) .gcall (cZ 0) = true ∧
      (calledGate (cZ 0) (at0 id (gated 1 0x8000100000000001 0 0)) (th id)).admits 0 = true ∧
      (calledDom (cZ 0) (at0 id (gated 1 0x8000100000000001 0 0)) (th id)).ok = false) ∧
    (executable (at0 id (gated 1 gw 0x003FFFF800000009 0)) (th id) .gcall (cZ 0) = true ∧
      (calledGate (cZ 0) (at0 id (gated 1 gw 0x003FFFF800000009 0)) (th id)).ok = true ∧
      (calledGate (cZ 0) (at0 id (gated 1 gw 0x003FFFF800000009 0)) (th id)).window
        (calledDom (cZ 0) (at0 id (gated 1 gw 0x003FFFF800000009 0)) (th id)) = false) :=
  ⟨fun _ _ h => here_at0 _ _ h, by decide +kernel⟩

theorem witness_ControlRegisters : (∀ f, (at0 f).here = some (th f)) ∧
    (∀ n ∈ [0, 1, 2, 3, 4, 5, 6, 7, 8, 9, 0x10, 0x11, 0x12, 0x20, 0x21, 0x22],
      executable (at0 handler) (th handler) .ctlr { cI n with a := 0 } = true ∧
      (immInt .ctlr { cI n with a := 0 }).toNat = n) ∧
    (∀ n ∈ [0, 1, 2, 3, 4, 9, 0x10, 0x11, 0x12, 0x20, 0x21],
      executable (at0 handler) (th handler) .ctlw { cI n with d := 0 } = true ∧
      (immInt .ctlw { cI n with d := 0 }).toNat = n) ∧
    dtabOk 0 = true ∧ dtabOk 0xFFFFFFFFFFFFFFFF = false ∧
    (dtabWritten (gated 1 gw 0 0)).here.any (fun τ => decide (τ.status ≠ .stopped)) = true ∧
    (dtabWritten id).here.any (fun τ => decide (τ.status = .stopped)) = true :=
  ⟨fun _ => here_at0 _ _ fun _ => rfl, by decide +kernel⟩

/-- A thread with an entry at each of its own queue ports. -/
def entries (t : Thread) : Thread := { t with q0 := [1], q1 := [2], q3 := [(1, some 3)], out0 := 1, out1 := 1 }
/-- A core with a message in the receive queue of task 0. -/
def oneMessage (k : CoreSt) : CoreSt := { k with recvq := [(0, ⟨[⟨0, 0, [1, 2], none, 0, []⟩]⟩)] }
theorem witness_QueuePortReads : (∀ f g, (∀ k, (g k).threads = k.threads) → (at0 f g).here = some (th f)) ∧
    (∀ o ∈ aluOne.map (·.1), ∀ n ∈ [(12 : Nat), 13, 14, 15],
      executable (at0 entries oneMessage) (th entries) o { c0 with a := BitVec.ofNat 4 n } = true) ∧
    recvTaken (at0 entries oneMessage).hereCore 0 (th entries).task = false ∧
    (popRecv (tgetD (at0 entries oneMessage).hereCore.recvq (th entries).task {})).isSome = true :=
  ⟨fun _ _ h => here_at0 _ _ h, by decide +kernel⟩

/-- A thread whose send stage is full. -/
def stageFull (t : Thread) : Thread := { t with stage := List.replicate 16 0 }
theorem witness_QueuePortWrites : (∀ f, (at0 f).here = some (th f)) ∧
    ∀ o ∈ aluOne.map (·.1), ∀ n ∈ [(12 : Nat), 13, 14], isQueue (BitVec.ofNat 4 n) = true ∧
      executable (at0 id) (th id) o { c0 with d := BitVec.ofNat 4 n } = true ∧
      (pushPort (issuedFor (at0 id) (th id) o { c0 with d := BitVec.ofNat 4 n }) 0 0 (n - 12) 0).isSome = true :=
  ⟨fun _ => here_at0 _ _ fun _ => rfl, by decide +kernel⟩

/-- Threads for which each destination port has no room. -/
def noRoom (t : Thread) : Thread := { stageFull t with half := some 0, out0 := 16, out1 := 16 }
/-- A core on which another thread of task 0 has popped q2 and has not completed its chain. -/
def portTaken (k : CoreSt) : CoreSt :=
  { k with threads := tset k.threads 1 { loadedThread 0 with status := .awaiting 7 ⟨2, false, 3, some 2, false⟩ } }
theorem witness_QueuePortsBlock : (∀ f, (at0 f).here = some (th f)) ∧
    (∀ o ∈ aluOne.map (·.1), ∀ n ∈ [(12 : Nat), 13, 14, 15],
      reachesPorts (at0 id) (th id) o { c0 with a := BitVec.ofNat 4 n } = true) ∧
    ((th id).q0 = [] ∧ (th id).q1 = [] ∧ (tgetD (at0 id).hereCore.recvq (th id).task {}).msgs = [] ∧ (th id).q3 = []) ∧
    (reachesPorts (at0 fun t => { t with q3 := [(1, none)] }) (th fun t => { t with q3 := [(1, none)] }) .mov
      { c0 with a := 15 } = true) ∧
    recvTaken (portTaken (at0 id).hereCore) 0 (th id).task = true ∧
    (∀ o ∈ aluOne.map (·.1), ∀ n ∈ [(12 : Nat), 13, 14],
      reachesPorts (at0 noRoom) (th noRoom) o { c0 with d := BitVec.ofNat 4 n } = true) ∧
    ((th noRoom).half.isSome = true ∧ matrixRoom (at0 noRoom).hereCore (th noRoom) = false ∧
      copyRoom (at0 noRoom).hereCore (th noRoom) = false ∧ (th noRoom).stage.length = 16) :=
  ⟨fun _ => here_at0 _ _ fun _ => rfl, by decide +kernel⟩

/-! The global space -/

/-- A thread whose g1 is an address. -/
def ga (v : Word) (t : Thread) : Thread := withG 1 v t
/-- The addresses of byte 0x10000 of the DRAM of cube 0 and of cube 1, and of the local store of core 0 and of core 1. -/
def dram0 : Word := 0x10000
def dram1 : Word := 0x0000040000010000
def store0 : Word := 0x3F000000000
def store1 : Word := 0x3F000400000
/-- A packet from core 0 to a core; a machine with one packet in its network. -/
def pk (n dst : Nat) (b : Body) : Packet := { directPacket base 0 dst 0 0 0 b with id := n }
def net1 (p : Packet) (s : State) : State := { s with net := [p] }
/-- A store, a load and an STFE message as accesses; such a message to an address at core 0. -/
def acc (op : AccOp) : Access := ⟨op, false, 3, 8, 0, 0, 3, false⟩
def atCore (op : AccOp) (dom : Nat) : Packet := { pk 1 0 (.access (acc op)) with addr := store0, dom := dom }
/-- The chain of an access; CAS names a comparand, FECLR no value. -/
def cL (o : Op) : Chain := if o = .cas then cR else if o = .feclr then { c0 with d := 0 } else c0
/-- What the statements of the global space ask of a chain of c0's operands at an address. -/
def global (o : Op) (op : AccOp) (f : Thread → Thread) (g : Word) : Bool :=
  executable (at0 f) (th f) o (cL o) && !isQueue (cL o).b && !isQueue (cL o).d &&
  decide (issueCheck (at0 f) (ctxOf (at0 f) (th f) o (cL o)) (th f) op (globalAddress o (cL o) (th f)) = .ok g)
/-- A thread moored by a lease. -/
def mo (g : Word) (t : Thread) : Thread := leased (ga g t)
/-- A thread that a ferry has brought to the home of an address of DRAM. -/
def xl0 : Xl := { pa := 0x10000, key := 0, elided := none, pinned := false }
def ferried (g : Word) (t : Thread) : Thread := { ga g t with atHome := some (g, xl0) }
/-- A machine whose slice 1 holds a leaf for the page of `dram0`, with core 0 as its home. -/
def leaf1 (s : State) : State :=
  { s with leaves := [{ slice := 1, dom := 0, page := 1, level := 3, d0 := 0xF401000000000000, d1 := 0 }] }
/-- A load of DRAM that the core at hand is the home of completes in the machine with that leaf. -/
def homeLoad (o : Op) (op : AccOp) (fetch : Bool) : Bool :=
  let s := leaf1 (at0 (ga dram0))
  let t := th (ga dram0)
  let a := accessOf o (cL o) t op fetch
  let r := dramUse s t o (cL o) a dram0
  match r.1 with
  | .ok (x, h) => h == 0 && !ownPending r.2 0 t && (homeWrite a dram0 (some x)).isNone &&
      (performHere r.2 0 0 true a dram0 (some x)).toOption.isSome
  | .error _ => false

theorem witness_GlobalLoadsAway : (∀ f, (at0 f).here = some (th f)) ∧
    (∀ e ∈ globalLoads.map (fun e => (e.1, e.2.1)),
      (e.2 ≠ .ldfe ∧ e.2 ≠ .ldff → global e.1 e.2 (ga dram0) dram0 = true ∧ global e.1 e.2 (ga dram1) dram1 = true ∧
        global e.1 e.2 (mo dram1) dram1 = true ∧ global e.1 e.2 (mo dram0) dram0 = true) ∧
      global e.1 e.2 (ga store1) store1 = true ∧ global e.1 e.2 (mo store1) store1 = true) ∧
    regionOf (eaOff dram0) = .dram ∧ eaCube dram0 = (at0 id).logical ∧ eaCube dram1 ≠ (at0 id).logical ∧
    regionOf (eaOff dram1) = .dram ∧ (th (ga dram0)).moored = false ∧ (th (mo dram1)).moored = true ∧
    (th (ga dram0)).atHome = none ∧ homeCore store1 = some 1 ∧ eaCube store1 * 2048 + 1 ≠ (at0 id).ep 0 ∧
    (∀ e ∈ globalLoads.map (fun e => (e.1, e.2.1, e.2.2)), (dramUse (at0 (ga dram0)) (th (ga dram0)) e.1 (cL e.1)
      (accessOf e.1 (cL e.1) (th (ga dram0)) e.2.1 e.2.2) dram0).1.toOption.isNone = true) :=
  ⟨fun _ => here_at0 _ _ fun _ => rfl, by decide +kernel⟩

theorem witness_GlobalLoadsAtHome : (∀ f, (at0 f).here = some (th f)) ∧
    AtOwnCore (at0 (ga store0)) store0 ∧ ownPending (at0 (ga store0)) 0 (th (ga store0)) = false ∧
    (∀ e ∈ globalLoads.map (fun e => (e.1, e.2.1, e.2.2)), global e.1 e.2.1 (ga store0) store0 = true ∧
      (e.2.1 ≠ .ldfe ∧ e.2.1 ≠ .ldff →
        (performHere (issuedFor (at0 (ga store0)) (th (ga store0)) e.1 (cL e.1)) 0 0 true
          (accessOf e.1 (cL e.1) (th (ga store0)) e.2.1 e.2.2) store0 none).toOption.isSome = true)) ∧
    (∀ e ∈ ([.ldfe, .ldff] : List AccOp), feCheck (at0 (ga store0)) 0 0 (e == .ldfe) 0 store0 = none) ∧
    regionOf (eaOff store0) = .lstore 0 0 ∧
    (∀ e ∈ [(Op.ld, AccOp.ld, false), (.faadd, .aadd, true)], global e.1 e.2.1 (ferried dram0) dram0 = true ∧
      (performHere (issuedFor (at0 (ferried dram0)) (th (ferried dram0)) e.1 (cL e.1)) 0 0 true
        (accessOf e.1 (cL e.1) (th (ferried dram0)) e.2.1 e.2.2) dram0 (some xl0)).toOption.isSome = true) ∧
    ((leaf1 (at0 (ga dram0))).here = some (th (ga dram0)) ∧
      ∀ e ∈ globalLoads.map (fun e => (e.1, e.2.1, e.2.2)), e.2.1 ≠ .ldfe → e.2.1 ≠ .ldff →
        global e.1 e.2.1 (ga dram0) dram0 = true ∧ homeLoad e.1 e.2.1 e.2.2 = true) ∧
    (∀ s : State, s = net1 { atCore .st 0 with uid := (th id).uid } (at0 (ga store0)) →
      s.here = some (th (ga store0)) ∧ executable s (th (ga store0)) .ld c0 = true ∧
      ownPending s 0 (th (ga store0)) = true) :=
  ⟨fun _ => here_at0 _ _ fun _ => rfl, ⟨0, by decide +kernel⟩, by decide +kernel, by decide +kernel, by decide +kernel,
    by decide +kernel, by decide +kernel, ⟨here_at0 _ _ fun _ => rfl, by decide +kernel⟩,
    fun s h => by subst h; exact ⟨here_at0 _ _ fun _ => rfl, by decide +kernel⟩⟩

theorem witness_GlobalMessages : (∀ f, (at0 f).here = some (th f)) ∧
    (∀ e ∈ globalMessages.map (fun e => (e.1, e.2)),
      global e.1 e.2 (ga store1) store1 = true) ∧
    fenceClear (th (ga store1)) 2 = true ∧ recordCovered (th (ga store1)) 2 = false ∧
    pathCarries (at0 (ga store1)) (eaCube store1) 0 = true ∧
    (global .aadd .aadd (ga dram1) dram1 = true ∧ global .aadd .aadd (mo dram1) dram1 = true ∧ atomicClass .aadd = some 0 ∧
      pathCarries (at0 (ga dram1)) (eaCube dram1) 0 = false) ∧
    (global .stfe .stfe (ga store0) store0 = true ∧ regionOf (eaOff store0) = .lstore 0 0 ∧
      eaCube store0 = (at0 (ga store0)).logical ∧ ownPending (at0 (ga store0)) 0 (th (ga store0)) = false ∧
      feCheck (at0 (ga store0)) 0 0 true 0 store0 = none) :=
  ⟨fun _ => here_at0 _ _ fun _ => rfl, by decide +kernel⟩

/-- A thread with a send of pod scope outstanding; one with a recorded failure of cube scope. -/
def sends1 (t : Thread) : Thread := { t with sends := [(1, 2)] }
def failed1 (t : Thread) : Thread := { t with frec := 0x8000000000000200 }
theorem witness_Fences : (∀ f, (at0 f).here = some (th f)) ∧
    executable (at0 id) (th id) .fence cN = true ∧ (th id).sends.all (fun e => decide (cN.scope.code < e.2)) = true ∧ bit (th id).frec 63 = false ∧
    executable (at0 sends1) (th sends1) .fence cN = true ∧ (th sends1).sends.any (fun e => decide (e.2 ≤ cN.scope.code)) = true ∧
    executable (at0 failed1) (th failed1) .fence cN = true ∧ (th failed1).sends.all (fun e => decide (cN.scope.code < e.2)) = true ∧
    bit (th failed1).frec 63 = true ∧ bits (th failed1).frec 15 8 ≤ cN.scope.code :=
  ⟨fun _ => here_at0 _ _ fun _ => rfl, by decide +kernel⟩

theorem witness_HomeLocalStore : regionOf (eaOff store0) = .lstore 0 0 ∧ regionOf (eaOff 0x3F0003FFFFF) = .lstore 0 0x3FFFFF ∧
    ownerOk ((at0 id).useSpace 0 0) 0 0 = true ∧ threadConflict (at0 id).hereCore true ⟨0, 0, 8⟩ = false ∧
    (at0 id).hereCore.poison.contains (0, 0) = false := by decide +kernel

theorem witness_AtomicValues : ∀ n ∈ [1, 2, 4, 8], 2 ^ (8 * n) - 1 < 2 ^ (8 * n) := by decide

/-! Barriers, messages, engines -/

/-- An arrival of a thread at cluster barrier 0 of cube 0. -/
def arrived (released lost : Bool) (t : Thread) : Thread :=
  { t with arrival := some { bar := ⟨0, 0, 0⟩, phase := 0, released := released, fa := 0, lost := lost }, rs := true }
/-- The chain of a barrier instruction with cluster scope and immediate n. -/
def cB (n : Nat) : Chain := { cI n with d := 0, a := 0, xctl := some ⟨.cluster, 0, false, false⟩ }

theorem witness_BarrierArrivals : (∀ f, (at0 f).here = some (th f)) ∧
    executable (at0 (withG 1 1)) (th (withG 1 1)) .binit { cB 0 with a := 1 } = true ∧
    0 < ((th (withG 1 1)).scalar 1).toNat ∧
    executable (at0 (withG 1 0x4000000)) (th (withG 1 0x4000000)) .binit { cB 0 with a := 1 } = true ∧
    ((th (withG 1 0x4000000)).scalar 1).toNat ≤ 2 ^ 26 ∧
    executable (at0 id) (th id) .binit { cB 0 with a := 1 } = true ∧ (th id).scalar 1 = 0 ∧
    2 ^ 26 < ((th (withG 1 0x4000001)).scalar 1).toNat ∧
    (∀ e ∈ arrivals.map (·.1), executable (at0 id) (th id) e (cB 0) = true) ∧ (th id).rs = false ∧ (th id).arrival = none ∧
    (∀ e ∈ arrivals.map (·.1), executable (at0 fun t => { arrived false false t with rs := false })
      (th fun t => { arrived false false t with rs := false }) e (cB 0) = true) ∧
    (executable (at0 fun t => { arrived false true t with rs := false }) (th fun t => { arrived false true t with rs := false })
      .baw (cB 0) = true) :=
  ⟨fun _ => here_at0 _ _ fun _ => rfl, by decide +kernel⟩

theorem witness_BarrierWaits : (∀ f, (at0 f).here = some (th f)) ∧
    (∀ o ∈ [Op.bwait, .baw], ∀ r ∈ [true, false], ∀ l ∈ [true, false],
      executable (at0 (arrived r l)) (th (arrived r l)) o (cB 0) = true ∧
      namedBarrier (at0 (arrived r l)) (th (arrived r l)) o (cB 0) = ⟨0, 0, 0⟩ ∧
      namedBarrier (at0 (arrived r l)) (th (arrived r l)) o (cB 1) ≠ ⟨0, 0, 0⟩ ∧
      executable (at0 (arrived r l)) (th (arrived r l)) o (cB 1) = true) ∧ (th (arrived true true)).rs = true :=
  ⟨fun _ => here_at0 _ _ fun _ => rfl, by decide +kernel⟩

/-- A thread with a word in its send stage. -/
def staged (t : Thread) : Thread := { t with stage := [5] }
theorem witness_SendAndReceive : (∀ f g, (∀ k, (g k).threads = k.threads) → (at0 f g).here = some (th f)) ∧
    (executable (at0 staged) (th staged) .send { cI 1 with a := 10 } = true ∧
      epIsCore (bits ((th staged).scalar 3) 31 0) = true ∧
      beyondScope (at0 staged) 0 .pod (bits ((th staged).scalar 3) 31 0) = false ∧
      (immInt .send { cI 1 with a := 10 }).toNat = (th staged).stage.length) ∧
    (executable (at0 (win 0)) (th (win 0)) .send (cI 16) = true ∧
      Loadable (at0 (win 0)) (th (win 0)) ((th (win 0)).scalar 1) (8 * (immInt .send (cI 16)).toNat) 8 0) ∧
    (executable (at0 (win 0) oneMessage) (th (win 0)) .recv c0 = true ∧
      windowCheck ((at0 (win 0) oneMessage).domEntry 0 (th (win 0))) ((th (win 0)).scalar 1) 128 8 = .ok 0 ∧
      Storable (at0 (win 0) oneMessage) (th (win 0)) ((th (win 0)).scalar 1) 16 8 0) ∧
    (executable (at0 (win 0)) (th (win 0)) .recv c0 = true ∧
      (tgetD (at0 (win 0)).hereCore.recvq (th (win 0)).task {}).msgs = [] ∧
      windowCheck ((at0 (win 0)).domEntry 0 (th (win 0))) ((th (win 0)).scalar 1) 128 8 = .ok 0) :=
  ⟨fun _ _ h => here_at0 _ _ h, by decide +kernel, ⟨by decide +kernel, loadable_of (by decide +kernel)⟩,
    ⟨by decide +kernel, by decide +kernel, storable_of (by decide +kernel)⟩, by decide +kernel⟩

theorem witness_SpawnAndTriggers : (∀ f, (at0 f).here = some (th f)) ∧
    (∀ o ∈ [Op.spawn, .tpost, .tbind], executable (at0 (win 0)) (th (win 0)) o c0 = true) ∧
    Loadable (at0 (win 0)) (th (win 0)) ((th (win 0)).scalar 1) 64 64 0 ∧ bits ((th (win 0)).scalar 3) 63 22 = 0 ∧
    (executable (at0 id) (th id) .tbind c0 = true ∧ (th id).scalar 1 = 0) :=
  ⟨fun _ => here_at0 _ _ fun _ => rfl, by decide +kernel, loadable_of (by decide +kernel), by decide +kernel⟩

/-- A core whose q0 order is full. -/
def orderFull (k : CoreSt) : CoreSt :=
  { k with slice := { k.slice with
      order := List.replicate 16 { kind := .words, w0 := 0, w1 := 0, seq := 0, uid := 0, slot := 0, dom := 0 } } }
/-- The machine with the thread of slot 0 of core 0 on core 1,024, a steward core, whose turn it is. -/
def onSteward (s : State) : State := { s.setThread 1024 0 (th id) with cur := (1024, 0) }
/-- The chain with operand a only. -/
def cA : Chain := { c0 with d := 0 }
theorem witness_MatrixChains : (∀ f g, (∀ k, (g k).threads = k.threads) → (at0 f g).here = some (th f)) ∧
    (executable (at0 (withG 1 2)) (th (withG 1 2)) .mcfg cA = true ∧ ((th (withG 1 2)).scalar 1).toNat < 3 ∧
      matrixRoom (at0 (withG 1 2)).hereCore (th (withG 1 2)) = true) ∧
    (executable (at0 (withG 1 2) orderFull) (th (withG 1 2)) .mcfg cA = true ∧
      matrixRoom (at0 (withG 1 2) orderFull).hereCore (th (withG 1 2)) = false) ∧
    (executable (at0 fun t => { withG 1 2 t with out0 := 16 }) (th fun t => { withG 1 2 t with out0 := 16 }) .mcfg cA = true ∧
      matrixRoom (at0 fun t => { withG 1 2 t with out0 := 16 }).hereCore (th fun t => { withG 1 2 t with out0 := 16 }) = false) ∧
    (executable (at0 (withG 1 0xFFFF)) (th (withG 1 0xFFFF)) .mgang cA = true ∧
      ((th (withG 1 0xFFFF)).scalar 1).toNat < 2 ^ 16) ∧
    (executable (at0 (win 0)) (th (win 0)) .mresume cA = true ∧ matrixRoom (at0 (win 0)).hereCore (th (win 0)) = true ∧
      Loadable (at0 (win 0)) (th (win 0)) (addressOf .mresume cA (th (win 0))) 64 64 0) ∧
    (executable (at0 id) (th id) .mbook cA = true ∧ addressOf .mbook cA (th id) = 0) ∧
    (executable (at0 (win 0)) (th (win 0)) .mbook cA = true ∧ addressOf .mbook cA (th (win 0)) ≠ 0 ∧
      windowCheck ((at0 (win 0)).domEntry 0 (th (win 0))) (addressOf .mbook cA (th (win 0))) 64 64 = .ok 0 ∧
      threadConflict (at0 (win 0)).hereCore false ⟨0, 0, 64⟩ = false ∧
      executable (at0 (win 0) locked) (th (win 0)) .mbook cA = true ∧
      threadConflict (at0 (win 0) locked).hereCore false ⟨0, 0, 64⟩ = true) ∧
    (∀ s : State, s = onSteward (at0 id) → s.here = some (th id) ∧ 1024 ≤ s.cur.1 ∧
      executable s (th id) .mgang cA = true ∧ executable s (th id) .mbook cA = true) :=
  ⟨fun _ _ h => here_at0 _ _ h, by decide +kernel, by decide +kernel, by decide +kernel,
    by decide +kernel, ⟨by decide +kernel, by decide +kernel, loadable_of (by decide +kernel)⟩, by decide +kernel, by decide +kernel,
    fun s h => by subst h; exact ⟨tget_tset .., by decide +kernel⟩⟩

/-- The operand of FOPEN for 2 blocks of 64 bytes at 0; the folio that it opens, in a cube; its handle with bit 15. -/
def fopenG (t : Thread) : Thread := withG 2 8 (withG 1 0x0001004000000000 t)
def folioAt (closed : Bool) (s : State) : State := { s with folios := [(0, ⟨0, 0, 64, 2, closed⟩)] }
def subscribed (k : CoreSt) : CoreSt := { k with slice := { k.slice with sub := some ⟨0, 0, 8, 0, []⟩ } }
def joinG (t : Thread) : Thread := withG 2 8 t
theorem witness_Folios :
    (∀ f g, (∀ k, (g k).threads = k.threads) → (at0 f g).here = some (th f)) ∧
    (executable (at0 fopenG) (th fopenG) .fopen c0 = true ∧ folioBlock ((th fopenG).scalar 1) = 64 ∧
      folioCount ((th fopenG).scalar 1) = 2 ∧ bits ((th fopenG).scalar 1) 37 22 = 0 ∧ folioBase ((th fopenG).scalar 1) = 0 ∧
      ((at0 fopenG).domEntry 0 (th fopenG)).guard 0 128 = true ∧ tget (at0 fopenG).folios (folioIndex (at0 fopenG) 0) = none ∧
      (at0 fopenG).hereCore.locks.length < 32 ∧ (at0 fopenG).hereCore.sealed = false ∧ (at0 fopenG).cur.1 < 1024 ∧ engineConflict (at0 fopenG).hereCore (.folio 0 0) false
        (folioLock (at0 fopenG) 0 ((th fopenG).scalar 1)).spans = false) ∧
    (executable (folioAt false (at0 joinG)) (th joinG) .fjoin cR = true ∧ folioKey ((th joinG).scalar 1) = some 0 ∧
      (folioAt false (at0 joinG)).hereCore.slice.sub = none ∧ ((th joinG).scalar 2).toNat = 8 ∧
      bits ((th joinG).scalar 1) 9 8 = 0 ∧ (folioAt false (at0 joinG)).cur.1 / 256 = 0) ∧
    (executable (at0 joinG) (th joinG) .fjoin cR = true ∧
      joinReply (at0 joinG) 0 ((th joinG).scalar 1) ((th joinG).scalar 2) = (1, none)) ∧
    (executable (folioAt false (at0 joinG)) (th joinG) .fclose cA = true ∧ bit ((th joinG).scalar 1) 15 = false) ∧
    (executable (at0 (withG 1 0x8000) subscribed) (th (withG 1 0x8000)) .fclose cA = true ∧
      bit ((th (withG 1 0x8000)).scalar 1) 15 = true ∧
      folioKey ((th (withG 1 0x8000)).scalar 1 &&& ~~~ (0x8000 : Word)) = some 0) :=
  ⟨fun _ _ h => here_at0 _ _ h, by decide +kernel⟩

/-- A core whose local store begins with the descriptor of a stream of one strip of DRAM. -/
def descriptor (k : CoreSt) : CoreSt :=
  { k with lstore := ((k.lstore.write 0 8 0x10000).write 16 8 0x0001000100000000).write 24 8 1 }
/-- The chain whose field d is 4. -/
def c4 : Chain := { c0 with d := 4 }
theorem witness_StreamModes :
    (∀ f g, (∀ k, (g k).threads = k.threads) → (at0 f g).here = some (th f)) ∧
    executable (at0 (win 0) descriptor) (th (win 0)) .smode c4 = true ∧
    portless c4 = true ∧ (th (win 0)).stream? c4.vd = none ∧
    Loadable (at0 (win 0) descriptor) (th (win 0)) (addressOf .smode c4 (th (win 0))) 32 8 0 ∧
    patternBad (streamPattern (storeDwords (at0 (win 0) descriptor) 0 4))
      ((storeDwords (at0 (win 0) descriptor) 0 4).getD 3 0) = false ∧
    streamBase (at0 (win 0) descriptor) 0 ((at0 (win 0) descriptor).domEntry 0 (th (win 0)))
      (streamPattern (storeDwords (at0 (win 0) descriptor) 0 4)) = .ok 0x10000 ∧
    executable (at0 fun t => { leased t with lease := some { windows := 1, streams := [(4, { pat := streamPattern [], op := 1 })] } })
      (th fun t => { leased t with lease := some { windows := 1, streams := [(4, { pat := streamPattern [], op := 1 })] } })
      .sstop { c4 with a := 0 } = true ∧
    (∀ st : Stream, st = { pat := { streamPattern [] with sink := false }, op := 1, coming := [(⟨0, 0, 8, 0⟩, none)] } →
      ∀ f : Thread → Thread, f = (fun t => { t with lease := some { windows := 1, streams := [(4, st)] } }) →
      executable (at0 f) (th f) .sstop { c4 with a := 0 } = true ∧ (th f).stream? 4 = some st ∧ st.pat.sink = false ∧
      st.coming ≠ []) :=
  ⟨fun _ _ h => here_at0 _ _ h, by decide +kernel, by decide +kernel, by decide +kernel, loadable_of (by decide +kernel),
    by decide +kernel, by decide +kernel, by decide +kernel, fun st hs f hf => by subst hs hf; decide +kernel⟩

/-- A thread with operands of a copy of 64 bytes from DRAM to DRAM; of a row copy. -/
def copyG (t : Thread) : Thread := withG 3 0x20000 (withG 2 64 (withG 1 0x10000 t))
def outFull (t : Thread) : Thread := { copyG t with out1 := 16 }
theorem witness_CopyChains : (∀ f, (at0 f).here = some (th f)) ∧
    (∀ e ∈ copies, executable (at0 copyG) (th copyG) e.1 cR = true ∧ executable (at0 outFull) (th outFull) e.1 cR = true) ∧
    ((makeCopy (issuedFor (at0 copyG) (th copyG) .cpyg cR) 0 0 (issuedThread (at0 copyG) (th copyG)) 1
      ((th copyG).scalar 3) ((th copyG).scalar 1) ((th copyG).scalar 2) 0 3 false false).toOption.isSome = true) ∧
    ((makeCopy (issuedFor (at0 outFull) (th outFull) .cpyg cR) 0 0 (issuedThread (at0 outFull) (th outFull)) 1
      ((th outFull).scalar 3) ((th outFull).scalar 1) ((th outFull).scalar 2) 0 3 false false).toOption.isSome = true) ∧
    copyRoom (at0 copyG).hereCore (th copyG) = true ∧ copyRoom (at0 outFull).hereCore (th outFull) = false ∧
    (executable (at0 copyG) (th copyG) .rowcopy c0 = true ∧ executable (at0 copyG) (th copyG) .rowzero { c0 with a := 0 } = true ∧
      isWindow ((th copyG).scalar 3) = false ∧ isWindow ((th copyG).scalar 1) = false ∧
      ((th copyG).scalar 3).toNat % 2048 = 0 ∧ ((th copyG).scalar 1).toNat % 2048 = 0) ∧
    (executable (at0 id) (th id) .mwait cA = true ∧ bits ((th id).scalar 1) 31 0 = 0) ∧
    (executable (at0 (withG 1 1) fun k => addMail k (th id).group 0 1) (th (withG 1 1)) .mwait cA = true ∧
      mailReached (issuedFor (at0 (withG 1 1) fun k => addMail k (th id).group 0 1) (th (withG 1 1)) .mwait cA).hereCore
        (th (withG 1 1)).group 0 1 = true) ∧
    (executable (at0 (withG 1 1)) (th (withG 1 1)) .mwait cA = true ∧
      mailReached (issuedFor (at0 (withG 1 1)) (th (withG 1 1)) .mwait cA).hereCore (th (withG 1 1)).group 0 1 = false) :=
  ⟨fun _ => here_at0 _ _ fun _ => rfl, by decide +kernel⟩

/-- A thread with a valid bank-dot configuration and a run in DRAM. -/
def bankG (t : Thread) : Thread := { withG 1 0x10000 t with bdcfg := 0x0000291000000000 }
theorem witness_BankDotChains : (∀ f, (at0 f).here = some (th f)) ∧
    (executable (at0 (withG 1 0x0000291000000000)) (th (withG 1 0x0000291000000000)) .bdcfg cA = true ∧
      bdcfgOk ((th (withG 1 0x0000291000000000)).scalar 1) = true) ∧
    (executable (at0 id) (th id) .bdcfg cA = true ∧ bdcfgOk ((th id).scalar 1) = false) ∧
    executable (at0 bankG) (th bankG) .bdot c0 = true ∧ executable (at0 bankG) (th bankG) .bdotq cA = true ∧
    bdcfgOk (th bankG).bdcfg = true ∧ (th bankG).q3.length < 32 ∧
    windowCheck ((at0 bankG).domEntry 0 (th bankG)) (word (bits (th bankG).bdcfg 21 0 + 0x00F0000000000000))
      (bdVecBytes (th bankG).bdcfg) 1 = .ok 0 ∧
    threadConflict (at0 bankG).hereCore false ⟨0, bits (th bankG).bdcfg 21 0, bdVecBytes (th bankG).bdcfg⟩ = false ∧
    isWindow ((th bankG).scalar 1) = false ∧ bits ((th bankG).scalar 1) 63 56 = 0 ∧
    regionOf (eaOff ((th bankG).scalar 1)) = .dram :=
  ⟨fun _ => here_at0 _ _ fun _ => rfl, by decide +kernel⟩

/-! Privileged instructions -/

/-- The chain of SLINV of operand a in a scope. -/
def cS (sc : Scope) : Chain := { cA with xctl := some ⟨sc, 0, false, false⟩ }
theorem witness_PrivilegedChains : (∀ f, (at0 f).here = some (th f)) ∧
    (∀ e ∈ invalidations.map (·.1), executable (at0 (withG 1 (word (e * 4096)))) (th (withG 1 (word (e * 4096)))) .slinv cA = true ∧
      bits ((th (withG 1 (word (e * 4096)))).scalar 1) 15 12 = e ∧ slinvBad ((th (withG 1 (word (e * 4096)))).scalar 1) = false ∧
      executable (at0 (withG 1 (word (2 ^ 42 + e * 4096)))) (th (withG 1 (word (2 ^ 42 + e * 4096)))) .slinv cA = true ∧
      slinvBad ((th (withG 1 (word (2 ^ 42 + e * 4096)))).scalar 1) = false ∧
      eaCube ((th (withG 1 (word (2 ^ 42 + e * 4096)))).scalar 1) ≠ (at0 id).logical) ∧
    eaCube (0 : Word) = (at0 id).logical ∧ walking (at0 id) = false ∧ cA.scope ≠ .cube ∧
    executable (at0 id) (th id) .slinv (cS .cube) = true ∧ (cS .cube).scope = .cube ∧
    (∀ n ∈ [0, 1], executable (at0 fun t => withG 3 (word n) (win 0 t)) (th fun t => withG 3 (word n) (win 0 t)) .setkey c0 = true ∧
      keyRecordBad (storeDwords (at0 fun t => withG 3 (word n) (win 0 t)) 0 8) = false ∧
      ((at0 fun t => withG 3 (word n) (win 0 t)).domEntry 0 (th fun t => withG 3 (word n) (win 0 t))).system = true ∧
      loadable (at0 fun t => withG 3 (word n) (win 0 t)) (th fun t => withG 3 (word n) (win 0 t))
        ((th fun t => withG 3 (word n) (win 0 t)).scalar 1) 64 64 0 = true) ∧
    (∀ n ∈ [0, 1], executable (at0 (withG 1 (word n))) (th (withG 1 (word n))) .setown cA = true ∧
      setownBarred (issuedFor (at0 (withG 1 (word n))) (th (withG 1 (word n))) .setown cA) 0 0 n = false) ∧
    (at0 id).hereCore.owner = 0 ∧
    (∀ o ∈ [Op.istw, .start], executable (at0 (win 0)) (th (win 0)) o c0 = true ∧ executable (at0 id) (th id) o c0 = true) ∧
    bits ((th (win 0)).scalar 3) 63 32 = 0 ∧ epIsCore (bits ((th (win 0)).scalar 3) 31 0) = true ∧
    loadable (at0 (win 0)) (th (win 0)) ((th (win 0)).scalar 1) 64 64 0 = true :=
  ⟨fun _ => here_at0 _ _ fun _ => rfl, by decide +kernel⟩

/-- The machine with a number of buoys set on core 1. -/
def withBuoys (n : Nat) (s : State) : State :=
  s.modCore 1 fun k => { k with buoys := (List.range n).map fun i => (i, ⟨0, 0, 0, []⟩) }
/-- A thread whose g1 names core 1. -/
def core1 (t : Thread) : Thread := withG 1 0x100000000 t
theorem witness_BuoysAndHalt : (∀ f, (at0 f).here = some (th f)) ∧ (withBuoys 16 (at0 core1)).here = some (th core1) ∧
    (executable (at0 core1) (th core1) .buoys c0 = true ∧ bits ((th core1).scalar 1) 63 43 = 0 ∧
      bits ((th core1).scalar 1) 42 32 = 1 ∧ ((at0 core1).core 1).threads = [] ∧ tget ((at0 core1).core 1).buoys 0 = none) ∧
    (executable (withBuoys 15 (at0 core1)) (th core1) .buoys c0 = true ∧
      tget ((withBuoys 15 (at0 core1)).core 1).buoys 15 = none ∧
      ∀ j : Fin 15, (tget ((withBuoys 15 (at0 core1)).core 1).buoys j).isSome = true) ∧
    (executable (withBuoys 16 (at0 core1)) (th core1) .buoys c0 = true ∧
      ∀ j : Fin 16, (tget ((withBuoys 16 (at0 core1)).core 1).buoys j).isSome = true) ∧
    (executable (withBuoys 1 (at0 (withG 1 16))) (th (withG 1 16)) .buoyc cA = true ∧
      bits ((th (withG 1 16)).scalar 1) 63 15 = 0 ∧ bits ((th (withG 1 16)).scalar 1) 14 4 = 1 ∧
      (tget ((withBuoys 1 (at0 (withG 1 16))).core 1).buoys 0).isSome = true) ∧
    (executable (at0 (withG 1 1)) (th (withG 1 1)) .haltrq cA = true ∧ bits ((th (withG 1 1)).scalar 1) 15 0 = 1 ∧
      bits ((th (withG 1 1)).scalar 1) 63 18 = 0 ∧ bits ((th (withG 1 1)).scalar 1) 17 16 < 2) :=
  ⟨fun _ => here_at0 _ _ fun _ => rfl, rfl, by decide +kernel⟩

/-! Steps without an encoding -/

/-- A thread of core 0 is in slot 0 of such a machine. -/
theorem thread_at0 (f : Thread → Thread) (g : CoreSt → CoreSt) (hg : ∀ k, (g k).threads = k.threads) :
    (at0 f g).thread? 0 0 = some (th f) := here_at0 f g hg

/-- What the wait of a chain at address 0 leaves to do; one with destination g3. -/
def res0 : Resume := { next := 2, marker := false, d := 3 }
/-- A thread that holds the first word of a matrix command; one that is blocked, and why. -/
def halfWord (w : Word) (t : Thread) : Thread := { t with half := some w }
def blocked (w : Wait) (t : Thread) : Thread := { t with status := .blocked w 0 }
theorem witness_QueueEvents : (∀ f g, (∀ k, (g k).threads = k.threads) → (at0 f g).thread? 0 0 = some (th f)) ∧
    ((th id).isReady = true ∧ (th id).half = none) ∧
    (∀ e ∈ matrixKinds.map (·.2), (th (halfWord (word (e * 2 ^ 60)))).isReady = true ∧
      bits (word (e * 2 ^ 60)) 63 60 = e) ∧
    (at0 id).hereCore.slice.order.length < 16 ∧ (th id).out0 < 16 ∧ (at0 id).hereCore.copies.length < 32 ∧
    (th id).out1 < 16 ∧ (th id).q0 = [] ∧ (th id).q1 = [] ∧ (th id).q3 = [] ∧
    (th fun t => { t with q0 := [1], q1 := [1], q3 := [(1, some 1)] }).isReady = true ∧
    ((th (blocked (.push 2))).stops = [] ∧
      canProceed (at0 (blocked (.push 2))) 0 0 (th (blocked (.push 2))) (.push 2) = true) ∧
    ((th (blocked (.lease 4 res0))).status = .blocked (.lease 4 res0) 0 ∧
      (at0 (blocked (.lease 4 res0)) fun k => { k with leaseq := [0] }).hereCore.leaseq = 0 :: [] ∧
      leaseRoom (at0 (blocked (.lease 4 res0)) fun k => { k with leaseq := [0] }).hereCore 4 = true) ∧
    ((popPort (at0 id oneMessage) 0 0 2).isSome = true ∧ popPort (at0 id) 0 0 2 = none) :=
  ⟨fun _ _ h => thread_at0 _ _ h, by decide +kernel⟩

/-- A thread that is leaving; one whose trap waits; one asleep at a word; a core late enough for every limit. -/
def leaving (t : Thread) : Thread := { t with status := .exiting }
def trapWaits (t : Thread) : Thread := { t with status := .trapWait { cause := cTRAP } }
def asleep (t : Thread) : Thread := { t with status := .sleeping 0 0 0 res0 0 0 }
/-- A thread that waits in a mailbox, for a message, or for the release of a phase that has come; one with a beat to write. -/
def inMailbox (t : Thread) : Thread := blocked (.mailbox {} 0 1 res0) t
def receiving (t : Thread) : Thread := blocked (.recv 0 res0) t
def releasedOne (t : Thread) : Thread :=
  { blocked (.barrierRelease res0) t with arrival := some { bar := ⟨0, 0, 0⟩, phase := 0, released := true, fa := 0 } }
def aBeat : SinkStrip :=
  { addr := 0x3F000000000, data := 0, uid := 0, slot := 0, group := {}, task := 0, dom := 0, priv := true, key := 0, tag := 0,
    cnt := false, urg := false, nt := false }
def beating (t : Thread) : Thread := { t with beats := [aBeat] }
def late (k : CoreSt) : CoreSt := { k with cyc := 2 ^ 24 + 1 }
theorem witness_WaitEvents : (∀ f g, (∀ k, (g k).threads = k.threads) → (at0 f g).thread? 0 0 = some (th f)) ∧
    ((th (pending true)).status ≠ .exiting ∧
      ((th (pending true)).pend.find? fun q => q.writes.isSome) = some ⟨1, some [.g 3 7], 3⟩) ∧
    ((th leaving).status = .exiting ∧ (th leaving).allKnown = true) ∧
    ((th trapWaits).status = .trapWait { cause := cTRAP } ∧ (th trapWaits).allKnown = true ∧ (th trapWaits).stops = []) ∧
    ((at0 asleep late).hereCore.fewlim ≠ 0 ∧ (at0 asleep late).hereCore.fewlim.toNat < (at0 asleep late).hereCore.cyc) ∧
    ((th inMailbox).status = .blocked (.mailbox {} 0 1 res0) 0 ∧ (at0 inMailbox late).hereCore.mwlim ≠ 0 ∧
      (at0 inMailbox late).hereCore.mwlim.toNat < (at0 inMailbox late).hereCore.cyc ∧
      mailReached (at0 inMailbox late).hereCore {} 0 1 = false ∧
      mailReached (at0 inMailbox fun k => addMail k {} 0 1).hereCore {} 0 1 = true) ∧
    ((th receiving).stops = [] ∧ (match receiveAt (at0 receiving oneMessage) 0 (th receiving).task 0 with
      | some (.ok _) => true | _ => false) = true) ∧
    ((th releasedOne).stops = [] ∧ (th releasedOne).arrival = some { bar := ⟨0, 0, 0⟩, phase := 0, released := true, fa := 0 }) ∧
    ((th beating).status ≠ .exiting ∧ (∀ p ∈ (th beating).pend, p.writes = none) ∧ (th beating).beats = aBeat :: []) ∧
    (∀ s : State, s = { at0 id (fun k => { late k with feq := [(0, { stores := [(.storeMsg 1, 0)] })] }) with
        net := [pk 1 0 (.access ⟨.stfe, false, 3, 8, 0, 0, 3, false⟩)] } →
      expiredStfe s.hereCore = some 1 ∧ (s.packet? 1).isSome = true) :=
  by refine ⟨fun _ _ h => thread_at0 _ _ h, ?_, ?_, ?_, ?_, ?_, ?_, ?_, ?_, fun s h => by subst h; decide +kernel⟩ <;> decide +kernel

theorem witness_ConfigEvents : (∀ f, (at0 f).thread? 0 0 = some (th f)) ∧
    (bits (0 : Word) 63 44 = 0 ∧ bits (0 : Word) 31 22 = 0) ∧
    (∀ s : State, s = { at0 id with net := [{ pk 1 1024 (.access ⟨.st, false, 3, 8, 0, 0, 3, false⟩) with
        addr := 0x3FC00500008, stage := .queued }] } → drained s 1 = true ∧ eaOff 0x3FC00500008 = 0x3FC00500000 + 8) ∧
    ((at0 id).alias? 1).2.1 ≠ 2 ∧
    oldRouteBusy { at0 id with reroute := [⟨1, 0⟩] } 1 0 = false ∧
    (bits (0x4000000000000000 : Word) 63 62 = 1 ∧ bits (0x4000000000000000 : Word) 61 60 ≠ 3 ∧
      bits (0x4000000000000000 : Word) 22 0 * 2 ^ 16 % 2 ^ frameBits 0 = 0) ∧
    (match configStore (at0 id) ⟨0, false⟩ 0x400000 0 with | .ok _ => true | _ => false) = true ∧
    (0x41FFF8 / 0x100000 = 4 ∧ 0x41FFF8 % 0x100000 < 0x20000 ∧ 0xE02018 / 0x100000 = 14 ∧ 0xE02018 % 0x100000 < 8224) :=
  ⟨fun _ => thread_at0 _ _ fun _ => rfl, by decide +kernel, fun s h => by subst h; decide +kernel, by decide +kernel⟩

/-- A store to `dram0` at its slice; its table walk; a message to an address at core 0. -/
def slicePk : Packet := { pk 1 0 (.access (acc .st)) with addr := dram0, stage := .slice, priv := true }
def walkPk : Packet := { slicePk with stage := .walk 1 0x50000 }
/-- DRAM whose table entry at 0x50000 names a table at 0x60000. -/
def tabled (s : State) : State := { s with dram := (Memory.write [] 0x50000 8 0x8000000000000300) }

/-- A store from core 0 of cube 1 to core 0, and a core that remembers its number, as performed or not. -/
def farSt : Packet := { atCore .st 0 with src := 2048 }
def keeps (b : Bool) (k : CoreSt) : CoreSt := { k with done := [{ src := 2048, slot := 0, uid := 0, seq := 0, performed := b }] }
/-- What a walk at level 1 reads at 0x50000. -/
def readKind (s : State) : EntryKind :=
  let r := homeReadLine s (spreadHome s 15 0x50000) (0x50000 / 32) 0 false
  entryKind 1 (word (lineBytes r.1.1 0 8)) (word (lineBytes r.1.1 8 8))

theorem witness_MemoryEvents :
    (∀ p ∈ [slicePk], (net1 p (leaf1 (at0 id))).packet? 1 = some p ∧ p.stage = .slice ∧ eaCube p.addr = (at0 id).logical ∧
      clearSlice (net1 p (leaf1 (at0 id))) p = true ∧ p.isRow = false ∧ regionOf (eaOff p.addr) = .dram ∧ bits p.addr 63 56 = 0 ∧
      bit ((((net1 p (leaf1 (at0 id)))).useSpace 2001 0).spaceAt 2001 0).w0 63 = true ∧ sliceOf p.addr = 1 ∧
      heldLeaf ((net1 p (leaf1 (at0 id))).useSpace 2001 0) 1 0 (eaOff p.addr) = some { slice := 1, dom := 0, page := 1, level := 3, d0 := 0xF401000000000000, d1 := 0 } ∧
      bits (0xF401000000000000 : Word) 49 48 ≠ 2 ∧
      (leafCheck ((net1 p (leaf1 (at0 id))).useSpace 2001 0) 1 0 true (eaOff p.addr) ⟨3, 0xF401000000000000, 0, 0⟩
        p.needs.1 p.needs.2).toOption.isSome = true ∧
      heldLeaf ((net1 p (at0 id)).useSpace 2001 0) 1 0 (eaOff p.addr) = none ∧
      walksAt ((net1 p (at0 id)).useSpace 2001 0) 1 < 32) ∧
    ((net1 walkPk (at0 id)).packet? 1 = some walkPk ∧ 0x50000 + 16 * walkIndex (eaOff walkPk.addr) 1 = 0x50000 ∧
      readKind (net1 walkPk (tabled (at0 id))) = .table 0x60000 ∧ readKind (net1 walkPk (at0 id)) = .bad) ∧
    (∀ op ∈ ([.st, .stfe] : List AccOp), arriving (net1 (atCore op 0) (at0 id)) 1 = some (atCore op 0) ∧
      handledAt (net1 (atCore op 0) (at0 id)) 0 (atCore op 0) = true ∧
      behindHeld (heldAt (net1 (atCore op 0) (at0 id)) 0) (atCore op 0) = false ∧
      heldByPort (net1 (atCore op 0) (at0 id)) (atCore op 0) = false ∧ keptId (net1 (atCore op 0) (at0 id)) 0 (atCore op 0) = none ∧
      messageCheck ((net1 (atCore op 0) (at0 id)).useSpace 0 0) 0 (atCore op 0) (acc op) = none ∧
      homeLocked ((net1 (atCore op 0) (at0 id)).useSpace 0 0) 0 (acc op) store0 none = false) ∧
    (homePerform ((net1 (atCore .st 0) (at0 id)).useSpace 0 0) 0 (acc .st) store0 none).toOption.isSome = true ∧
    (messageCheck ((net1 (atCore .st 5) (at0 id)).useSpace 0 5) 0 (atCore .st 5) (acc .st)).isSome = true ∧
    homeLocked ((net1 (atCore .st 0) (at0 id locked)).useSpace 0 0) 0 (acc .st) store0 none = true ∧
    regionOf (eaOff store0) = .lstore 0 0 ∧
    (heldAt (net1 { atCore .st 0 with stage := .held } (at0 id)) ((at0 id).ep 0) = { atCore .st 0 with stage := .held } :: [] ∧
      messageCheck (net1 { atCore .st 0 with stage := .held } (at0 id)) 0 { atCore .st 0 with stage := .held } (acc .st) = none ∧
      (homePerform (net1 { atCore .st 0 with stage := .held } (at0 id)) 0 (acc .st) store0 none).toOption.isSome = true) ∧
    (∀ p : Packet, p = { pk 1 0 (.ack 7 none) with uid := (th id).uid } →
      arriving (net1 p (at0 id)) 1 = some p ∧ (net1 p (at0 id)).where? p.uid = some (0, 0) ∧
      (awaiter ((net1 p (at0 id)).dropPacket 1) p.uid 7).isNone = true) ∧
    (∀ p : Packet, p = { pk 1 0 (.reply 7 5 none) with uid := (th id).uid } →
      ∀ f : Thread → Thread, f = (fun t => { t with status := .awaiting 7 res0 }) →
      arriving (net1 p (at0 f)) 1 = some p ∧ queuedResult (net1 p (at0 f)) p.uid 7 = false ∧
      (awaiter ((net1 p (at0 f)).dropPacket 1) p.uid 7).isSome = true) ∧
    (∀ b ∈ [true, false], arriving (net1 farSt (at0 id (keeps b))) 1 = some farSt ∧ handledAt (net1 farSt (at0 id (keeps b))) 0 farSt = true ∧
      behindHeld (heldAt (net1 farSt (at0 id (keeps b))) farSt.dst) farSt = false ∧ heldByPort (net1 farSt (at0 id (keeps b))) farSt = false ∧
      keptId (net1 farSt (at0 id (keeps b))) 0 farSt = some { src := 2048, slot := 0, uid := 0, seq := 0, performed := b }) ∧
    (∀ n ∈ [1028, 1535, 1600, 2047], arriving (net1 (pk 1 n (.ack 7 none)) (at0 id)) 1 = some (pk 1 n (.ack 7 none))) := by
  refine ⟨?_, ?_, ?_, ?_, ?_, ?_, ?_, ?_, fun p h => by subst h; decide +kernel, fun p h f hf => by subst h hf; decide +kernel,
    ?_, ?_⟩ <;> decide +kernel

/-- A copy of 128 bytes between local stores: from that of core 0 to that of a core, and from an address of DRAM that
nothing maps; a row operation of a kind. -/
def copyTo (core : Nat) : CopyOp :=
  { kind := 1, seq := 0, tag := 0, uid := 0, slot := 0, group := {}, task := 0, dom := 0, priv := true, key := 0, scope := 3,
    urg := false, nt := false, dst := 0x3F000000000 + core * 0x400000 + 128, src := 0x3F000000000, gb := 128, total := 128 }
def rowKind (k : Nat) : CopyOp := { copyTo 0 with kind := k, dst := 0x10000, src := 0x10800, gb := 2048, total := 2048 }
/-- A core with one copy operation. -/
def oneCopy (op : CopyOp) (k : CoreSt) : CoreSt := { k with copies := [(1, op)] }
/-- The hypotheses on the locks of the first chunk: they are known, and the first home takes its own. -/
def locksAt (op : CopyOp) (homes : List Nat) : Bool :=
  match (chunkLocks (at0 id (oneCopy op)) 0 1 op).1 with
  | .ok ls => decide (nextHome ls op.homes = homes.head?) && (registerAll ((at0 id (oneCopy op)).core 0)
      ((ls.filter fun l => l.1 == 0).map (·.2))).isSome && decide (nextHome ls [0] = homes[1]?)
  | .error _ => false
/-- The tag of a piece of copy 1 of core 0. -/
def tag1 : EngineTag := ⟨0, .copy 1, {}, 0, false, 0, false, 0⟩
def eight : Piece := { src := 0, dst := 0, len := 8 }
/-- The rows that start at an address are translated. -/
def rowKnown (a : Nat) (write : Bool) : Bool := (rowLines 0 0 true a write (List.range 64) (leaf1 (at0 id))).1.toOption.isSome
/-- A source stream of one strip of the local store, not yet fetched. -/
def source1 : Stream := { pat := { patternOf 0 0 0 0 with base := 0x3F000000000, c0 := 1, c1 := 1, c2 := 1 }, op := 1, priv := true }
def sourced (t : Thread) : Thread := { t with lease := some { windows := 1, streams := [(4, source1)] } }
/-- A strip that waits in the sink queue of core 0. -/
def sinking (s : State) : State := s.modCore 0 fun k => { k with sinkq := [{ aBeat with id := 4 }] }
/-- The locks of the strip at store0 are known, its only home takes them, and after it no home is left. -/
def stripLocked (o : LockOwner) (reads : Bool) (s : State) (homes : List Nat) : Bool :=
  let r := pieceLocks o 0 true 0 reads (!reads) (stripPieces 0x3F000000000) [] s
  match r.1 with
  | .error _ => false
  | .ok ls =>
    match nextHome ls homes with
    | none => homes == [0]
    | some h => h == 0 && (registerAll (r.2.core h) ((ls.filter fun l => l.1 == h).map (·.2))).isSome && (nextHome ls [h]).isNone
/-- The strip at `dram0`, which nothing maps, has no translation. -/
def stripFails (o : LockOwner) (reads : Bool) : Bool :=
  (pieceLocks o 0 true 0 reads (!reads) (stripPieces dram0.toNat) [] (at0 id)).1.toOption.isNone

theorem witness_CopyEvents :
    (∀ op, (at0 id (oneCopy op)).copyOp? 0 1 = some op) ∧ locksAt (copyTo 0) [0] = true ∧ locksAt (copyTo 1) [0, 1] = true ∧
    ((chunkLocks (at0 id (oneCopy { copyTo 0 with src := 0x10000 })) 0 1 { copyTo 0 with src := 0x10000 }).1.toOption.isSome = false ∧
      (copyTo 0).phase = .register ∧ (copyTo 0).flying = [] ∧ (copyTo 0).kind ≤ 3) ∧
    (rowKnown 0x10800 false = true ∧ rowKnown 0x10000 true = true ∧ ∀ k ∈ [4, 5], (rowKind k).flying = [] ∧ 3 < (rowKind k).kind) ∧
    mailRoom (at0 id).hereCore {} = true ∧
    (∀ p : Packet, p = { pk 1 0 (.engineRead tag1 eight) with addr := store0 } → arriving (net1 p (at0 id)) 1 = some p ∧
      handledAt (net1 p (at0 id)) 0 p = true ∧
      (match readPiece ((net1 p (at0 id)).useSpace 0 0) 0 p tag1 8 with | some (.ok _) => true | _ => false) = true) ∧
    (∀ p : Packet, p = { pk 1 0 (.landed tag1 eight [] []) with addr := store0 } → arriving (net1 p (at0 id)) 1 = some p ∧
      handledAt (net1 p (at0 id)) 0 p = true ∧ p.key = (net1 p (at0 id)).hereCore.owner ∧
      engineConflict (net1 p (at0 id)).hereCore (freeOwner (net1 p (at0 id)) tag1) true [⟨0, 0, eight.len⟩] = false ∧ tag1.count = false) ∧
    (∀ p : Packet, p = { pk 1 0 (.landed tag1 eight [] []) with addr := store0, key := 1 } →
      arriving (net1 p (at0 id)) 1 = some p ∧ handledAt (net1 p (at0 id)) 0 p = true ∧ p.key ≠ (net1 p (at0 id)).hereCore.owner) ∧
    (stripLocked (.stream 1) true (at0 sourced) [] = true ∧ stripLocked (.stream 1) true (at0 sourced) [0] = true ∧
      (nextStrip source1).isSome = true) ∧
    (stripLocked (.stream 4) false (sinking (at0 id)) [] = true ∧ stripLocked (.stream 4) false (sinking (at0 id)) [0] = true ∧
      nextSink (sinking (at0 id)) 0 [] (sinking (at0 id)).hereCore.sinkq = some { aBeat with id := 4 } ∧
      beginSink (sinking (at0 id)) 0 { aBeat with id := 4 } = ({ aBeat with id := 4 }, sinking (at0 id))) ∧
    (stripFails (.stream 1) true = true ∧ stripFails (.stream 4) false = true) :=
  by refine ⟨fun _ => rfl, ?_, ?_, ?_, ?_, ?_,
    fun p h => by subst h; decide +kernel, fun p h => by subst h; decide +kernel, fun p h => by subst h; decide +kernel,
    by decide +kernel⟩ <;> decide +kernel

/-- A configuration of bank-dot: 8 elements, TS8 weights; a packet with its vector. -/
def bdPk (pinned : Bool) : Packet :=
  { pk 1 0 (.bdot 0x0000291000000000 [0, 0] 7 false false) with xl := some { pa := 0x10000, key := 0, elided := none, pinned := pinned } }
/-- Such a packet whose read lock stands. -/
def bdLocked : Packet := { bdPk true with stage := .queued }
theorem witness_BankDotEvents :
    (∀ b ∈ [true, false], arriving (net1 (bdPk b) (at0 id)) 1 = some (bdPk b)) ∧ bdBad 0x0000291000000000 0x10000 = false ∧
    bdBad 0x0000291000000000 0x107FF = true ∧
    (registerLock (net1 (bdPk true) (at0 id)).hereCore ⟨.packet 1, false, [⟨2, 0x10000, bdRun 0x0000291000000000⟩], []⟩).isSome = true ∧
    ((net1 bdLocked (at0 id)).packet? 1 = some bdLocked ∧ bdLocked.bad = [] ∧ failedColumn (net1 bdLocked (at0 id)) 0x10000 = false ∧
      ∀ r ∈ bdReads 0x0000291000000000 0x10000, bdPoison (net1 bdLocked (at0 id))
        { pa := 0x10000, key := 0, elided := none, pinned := true } r.1 = false) ∧
    (∀ p : Packet, p = { pk 1 0 (.reply 7 5 none) with uid := (th id).uid } →
      ∀ f : Thread → Thread, f = (fun t => { t with q3 := [(7, none)] }) →
      ((th f).q3.find? fun e => e.2.isNone).map (·.1) = some 7 ∧
      ((net1 p (at0 f)).net.find? fun q => q.uid == (th f).uid && (match q.body with | .reply r _ _ => r == 7 | _ => false)) = some p ∧
      arriving (net1 p (at0 f)) p.id = some p) :=
  by refine ⟨?_, ?_, ?_, ?_, ?_, fun p h f hf => by subst h hf; decide +kernel⟩ <;> decide +kernel

/-- A matrix command of two words of the thread of slot 0; a core whose order holds it alone. -/
def mc (w0 : Word) : MCmd := { kind := .words, w0 := w0, seq := 0, uid := (th id).uid, slot := 0, dom := 0 }
def ordered (m : MCmd) (k : CoreSt) : CoreSt := { k with slice := { k.slice with order := [m] } }
/-- COMPUTE of one row and one k-block in E4M3; ganged; ACCZERO, ACCLOAD, ACCSTORE of one row. -/
def cw : Word := 0x1090000000000000
def gangCmd : MCmd := { mc 0x1890000000000000 with gang := some 3 }
/-- The 16 cores of quire 0 at a gang join, the last of them with a command of its own; a core whose gang command runs. -/
def gangUp (last : MCmd) : State :=
  (quireCores 0).foldl (fun s c => s.modCore c (ordered { (if c = 15 then last else gangCmd) with slot := 1, arrived := some 0 })) (at0 id)
def gangRuns : MCmd := { gangCmd with phase := .running }
/-- COMPUTE whose A operand comes from a folio, running; a core that holds one block of 64 bytes for it. -/
def folioCmd : MCmd := { mc 0x1290000000000000 with phase := .running }
def holdsBlock (k : CoreSt) : CoreSt :=
  { ordered folioCmd k with slice := { (ordered folioCmd k).slice with sub := some ⟨0, 0, 8, 0, [(List.replicate 64 0, [])]⟩ } }
theorem witness_MatrixEvents :
    (∀ m, (at0 id (ordered m)).hereCore.slice.order = m :: []) ∧
    (cmdStopped (at0 id (ordered { mc 0 with kind := .mcfg 1 })) 0 { mc 0 with kind := .mcfg 1 } = false ∧ cmdKind (mc cw).w0 = 1 ∧ joins (mc cw) = false ∧ cmdStopped (at0 id (ordered (mc cw))) 0 (mc cw) = false ∧
      computeErr (at0 id (ordered (mc cw))).hereCore (mc cw) = none ∧ (mc cw).kdone < cmdNkb cw ∧
      (registerLock (at0 id (ordered (mc cw))).hereCore
        ⟨.matrix 0, false, (computeSpans cw 0).1 ++ (computeSpans cw 0).2, []⟩).isSome = true ∧
      computeErr (at0 id (ordered (mc 0x1000000000000000))).hereCore (mc 0x1000000000000000) = some 3) ∧
    (∀ w ∈ [(0x2000000000000000 : Nat), 0x3000000000000000, 0x4020000000000000], cmdKind (mc (word w)).w0 ≠ 1 ∧
      cmdStopped (at0 id (ordered (mc (word w)))) 0 (mc (word w)) = false ∧
      accErr (at0 id (ordered (mc (word w)))).hereCore (mc (word w)) = none ∧
      (registerLock (at0 id (ordered (mc (word w)))).hereCore
        ⟨.matrix 0, cmdKind (word w) == 4, [accSpan (word w)], []⟩).isSome = true) ∧
    accErr (at0 id (ordered (mc 0x2000000000000001))).hereCore (mc 0x2000000000000001) = some 2 ∧
    (joins gangCmd = true ∧ cmdStopped (at0 id (ordered gangCmd)) 0 gangCmd = false ∧
      gangPresent (at0 id (ordered { gangCmd with arrived := some 0 })) 0 gangCmd = false) ∧
    (∀ h : MCmd, h = { gangCmd with slot := 1, arrived := some 0 } → ∀ l ∈ [h, { h with w0 := 0x1890000000000001 }],
      (gangUp l).hereCore.slice.order = h :: [] ∧ gangPresent (gangUp l) 0 h = true ∧
      (∀ c ∈ quireCores 0, (headCmd (gangUp l) c).all (fun x => !cmdStopped (gangUp l) c x) = true) ∧
      ((∀ c ∈ quireCores 0, (headCmd (gangUp l) c).map (gangDigest ((gangUp l).core c)) =
        (headCmd (gangUp l) 0).map (gangDigest ((gangUp l).core 0))) ↔ l = h)) ∧
    ((quireCores 0).foldlM beginHead (gangUp gangCmd)).isSome = true ∧
    ((membersOf (at0 id (ordered gangRuns)) 0 gangRuns).foldlM runOne (at0 id (ordered gangRuns))).isSome = true ∧
    (cmdFolio folioCmd.w0 = true ∧ (at0 id holdsBlock).hereCore.slice.order = folioCmd :: [] ∧
      folioBlocks (at0 id holdsBlock) 0 folioCmd (stepBlocks folioCmd).length = .none ∧
      folioBlocks (folioAt false (at0 id holdsBlock)) 0 folioCmd (stepBlocks folioCmd).length = .blocks [(List.replicate 64 0, [])] ∧
      kblockPoison (at0 id holdsBlock).hereCore folioCmd (stepBlocks folioCmd) = false) ∧
    ((at0 id late).hereCore.mglim ≠ 0 ∧ (at0 id late).hereCore.mglim.toNat < (at0 id late).hereCore.cyc) ∧
    (∀ m : MCmd, m = { mc cw with phase := .running } → m.gang = none ∧ m.split = false ∧ cmdFolio m.w0 = false ∧
      kblockPoison (at0 id (ordered m)).hereCore m (stepBlocks m) = false ∧
      kblockPoison (at0 id fun k => { ordered m k with poison := [(0, 0)] }).hereCore m (stepBlocks m) = true) ∧
    (∀ m : MCmd, m = { mc cw with phase := .running, split := true } →
      (at0 id (ordered m)).hereCore.slice.bka = none) ∧
    (∀ x : Subscr, x = ⟨0, 0, 8, 0, []⟩ → (at0 id subscribed).hereCore.slice.sub = some x ∧
      tget (folioAt false (at0 id subscribed)).folios (x.quire * 8 + x.slot) = some ⟨0, 0, 64, 2, false⟩ ∧
      headCmd (folioAt false (at0 id subscribed)) 0 = none ∧ x.held.length < x.window ∧ x.pos + x.held.length < 2) ∧
    (tget (folioAt true (at0 id)).folios 0 = some ⟨0, 0, 64, 2, true⟩ ∧
      (folioAt true (at0 id)).cores.all (fun c => c.2.slice.sub.isNone) = true) :=
  by refine ⟨fun _ => rfl, ?_, ?_, ?_, ?_, fun h e l hl => by subst e; revert l; decide +kernel, ?_, ?_, ?_, ?_,
    fun m h => by subst h; decide +kernel, fun m h => by subst h; decide +kernel, fun x h => by subst h; decide +kernel,
    by decide +kernel⟩ <;> decide +kernel

/-- A request to barrier 0 of cluster 0 at its unit; a cube whose barrier has a count, arrivals and a history. -/
def bar0 : BarName := ⟨0, 0, 0⟩
def unitPk (b : Body) : Packet := { pk 1 barrierPort b with urg := 2, uid := (th id).uid }
/-- A barrier in phase 9 whose list of waiting queries is full. -/
def crowded : Barrier := { e := 2, phase := 9, waiters := List.replicate 64 (0, 0, 9) }
def counted (e a : Nat) (s : State) : State := s.setBar bar0 { e := e, a := a, history := [(5, 0)] }
theorem witness_BarrierEvents :
    ((∀ b ∈ [Body.barArrive bar0 0 false, .barInit bar0 4, .barQuery bar0 5 false, .barQuery bar0 5 true, .barQuery bar0 0 false],
      atUnit (net1 (unitPk b) (counted 2 0 (at0 id))) 1 = some (unitPk b)) ∧
    ((counted 2 0 (at0 id)).bar bar0).e ≠ 0 ∧ ((counted 2 0 (at0 id)).bar bar0).a + 1 ≠ 2 ∧
    ((counted 2 1 (at0 id)).bar bar0).a + 1 = 2 ∧ ((at0 id).bar bar0).a = 0 ∧ ((at0 id).bar bar0).d = 0 ∧
    (((counted 2 0 (at0 id)).bar bar0).history.find? fun h => h.1 == 5) = some (5, 0) ∧
    (((counted 2 0 (at0 id)).bar bar0).history.find? fun h => h.1 == 0) = none ∧
    0 ≤ (0 - ((counted 2 0 (at0 id)).bar bar0).phase).toInt ∧ ((counted 2 0 (at0 id)).bar bar0).waiters.length < 64 ∧
    (wholePhase ((counted 2 0 (at0 id)).bar bar0).phase 5 = 5 ∧ (5 - 0 : BitVec 32).toInt ≥ 0 ∧
      64 ≤ ((at0 id).setBar bar0 crowded |>.bar bar0).waiters.length ∧
      (crowded.history.find? fun h => h.1 == 0) = none ∧ (0 - crowded.phase).toInt < 0 ∧ 0 ≤ (9 - crowded.phase).toInt ∧
      (crowded.history.find? fun h => h.1 == 9) = none)) ∧
    (∀ p : Packet, p = { pk 1 0 (.barAnswer bar0 7 (some 0) none) with uid := (th id).uid } →
      ∀ f : Thread → Thread, f = (fun t => { t with status := .awaiting 7 res0 }) →
      arriving (net1 p (at0 f)) 1 = some p ∧ (awaiter ((net1 p (at0 f)).dropPacket 1) p.uid 7).isSome = true ∧
      (th f).rs = false ∧ arriving (net1 { p with body := .barAnswer bar0 7 none none } (at0 f)) 1 =
        some { p with body := .barAnswer bar0 7 none none } ∧
      arriving (net1 { p with body := .barRelease bar0 0 0 } (at0 f)) 1 = some { p with body := .barRelease bar0 0 0 }) ∧
    (∀ f, (at0 f fun k => { k with cyc := 1024 }).thread? 0 0 = some (th f)) ∧
    0 + 1024 ≤ (at0 id fun k => { k with cyc := 1024 }).hereCore.cyc :=
  ⟨by decide +kernel, fun p h f hf => by subst h hf; decide +kernel, fun _ => thread_at0 _ _ fun _ => rfl, by decide +kernel⟩

/-- A thread that leaves for an address; a ferry of the thread of slot 0, of a kind. -/
def departs (t : Thread) : Thread := { t with status := .departing 0 dram1 0 false }
def ferry1 (kind : Nat) : Packet := { pk 1 0 (.ferry { ferryOf (th id) kind dram0 false with kind := kind }) with uid := 9 }
/-- A cube whose core 0 has such a ferry in its inbox or its ring. -/
def waitingFerry (kind : Nat) (g : CoreSt → CoreSt) : State := net1 { ferry1 kind with stage := .queued } (at0 id g)
theorem witness_FerryEvents : (∀ f, (at0 f).thread? 0 0 = some (th f)) ∧
    (∀ f ∈ [departs, fun t => { departs t with frec := 0x8000000000000000 }], (th f).status = .departing 0 dram1 0 false ∧
      (th f).stops = [] ∧ (th f).pend = [] ∧ (th f).out0 = (th f).q0.length ∧ (th f).out1 = (th f).q1.length ∧
      (∀ e ∈ (th f).q3, e.2.isSome = true) ∧ (th f).sends = [] ∧ (th f).beats = []) ∧
    bit (th departs).frec 63 = false ∧
    (∀ k ∈ [0, 2], arriving (net1 (ferry1 k) (at0 id)) 1 = some (ferry1 k) ∧
      (claimedBy (net1 (ferry1 k) (at0 id)) 0 (ferry1 k)).isNone = true ∧ (at0 id).hereCore.inbox.length < 8 ∧
      (at0 id).hereCore.spill = [] ∧
      (∀ s ∈ [waitingFerry k fun c => { c with inbox := [1] }, waitingFerry k fun c => { c with spill := [(1, 0)] }],
        nextFerry s.hereCore = some 1 ∧ freeSlot s.hereCore = some 1 ∧ (s.packet? 1).isSome = true ∧ s.hereCore.sealed = false ∧
        (claimedBy s 0 (ferry1 k)).isNone = true ∧ mayAdmit s 0 = true)) ∧
    (∀ s : State, s = { net1 (ferry1 0) (at0 id fun c => { c with inbox := List.replicate 8 7 }) with
        spillDesc := [(0, 0x0100000000000010)] } → arriving s 1 = some (ferry1 0) ∧ 8 ≤ s.hereCore.inbox.length ∧
      spillRing s 0 = (0x10000, 32) ∧ s.hereCore.spill.length < 32) :=
  ⟨fun _ => thread_at0 _ _ fun _ => rfl, by decide +kernel, by decide +kernel, by decide +kernel,
    fun s h => by subst h; decide +kernel⟩

/-- A launch header of one thread in a cluster of `mask`; a semaphore packet; a cube whose front end is in a state. -/
def hdr (kind mask : Nat) : FePacket :=
  { words := [word (kind * 2 ^ 60 + 2 ^ 40), 0, 0, word mask, 0, 0x0100000000000000, 0] }
def sem (kind : Nat) : FePacket := { words := [word (kind * 2 ^ 60), 0, 0, 0, 0, 0, 0] }
def fe1 (f : Nat) (x : FrontEnd) : State := (at0 id).setFe f x
/-- What a front end answers the packet at the head of its queue. -/
def refusal (f : Nat) (spawned : Bool) (p : FePacket) : Option Nat :=
  let s := fe1 f { queue := [p] }
  let e := feUse s (packetDomain s f p)
  refusalCode e p.words spawned (feDom e (packetDomain s f p)).system
theorem witness_FrontEvents :
    (((at0 id).fe 0).held.any fun h => h.1 == 7) = false ∧
    (∀ x, ((fe1 0 x).fe 0) = x) ∧
    (refusal 0 false (sem 7) = some 1 ∧ refusal 0 false (hdr 1 1) = none ∧ refusal 56 true (hdr 2 0) = none ∧ bits ((hdr 1 1).words.headD 0) 63 60 = 1 ∧
      (tget ((at0 id).fe 0).records (((at0 id).fe 0).serial % 256)).isNone = true) ∧
    (∀ x : FrontEnd, x = { cur := some (hdr 1 1), work := .placing 0 0 [] } →
      hdrGang (hdr 1 1).words ≤ hdrPlace (hdr 1 1).words ∧
      (permitted ((fe1 0 x).fe 0) (hdr 1 1)).find? (fun c => decide (sizeOf (hdr 1 1).words 0 + reservedIn (fe1 0 x) c ≤
        clusterFree (fe1 0 x) c) && (freeGroup (fe1 0 x) c).isSome) = some 0 ∧ freeGroup (fe1 0 x) 0 = some 0 ∧
      sizeOf (hdr 1 1).words 0 ≤ (dealGroup (fe1 0 x) 0 (sizeOf (hdr 1 1).words 0) (hdr 1 1).home false).length ∧
      ∀ k ∈ dealGroup (fe1 0 x) 0 (sizeOf (hdr 1 1).words 0) (hdr 1 1).home false, ferryFirst (fe1 0 x) k = false) ∧
    (∀ k ∈ [3, 4], semaphoreBad (sem k).words = false ∧ bits ((sem k).words.headD 0) 63 60 = k) ∧
    (bits ({ words := [0x3000000000010000] : FePacket }.words.headD 0) 35 16 ≠ 0) ∧
    (∀ p : Packet, p = pk 1 0 (.exitReport 0 {}) → ∀ s : State, s = { net1 p ((at0 id).setTaskRec
        { state := 1, id := 0, live := 1, dom := 0, cplt := 0, spsize := 0, spbase := 0 }) with
          groups := [(groupKey {}, { level := 0, tickets := 1, place := 0, gangLv := 0, barrier := 0, base := 0, task := 0, live := 1 })] } →
      arriving s 1 = some p ∧ (tget s.groups (groupKey {})).isSome = true) ∧
    (∀ b ∈ [Body.spawn (hdr 2 0).words 0 (some 0), .message 0 [1] none false none], arriving (net1 (pk 1 0 b) (at0 id)) 1 =
      some (pk 1 0 b) ∧ handledAt (net1 (pk 1 0 b) (at0 id)) 0 (pk 1 0 b) = true) ∧ (((at0 id).fe 56).queue.length < 32) := by
  refine ⟨by decide +kernel, fun _ => by simp [fe1, State.fe, State.setFe], by decide +kernel, fun x h => by subst h; decide +kernel,
    by decide +kernel, by decide +kernel, fun p h s hs => by subst h hs; decide +kernel, by decide +kernel⟩

/-- A trigger entry bound by domain 0, and a cube with it. -/
def bound : Trigger := { state := 1, packet := (hdr 2 0).words }
theorem witness_TriggerEvents :
    (∀ b ∈ [Body.tpost 0 5, .istw 0 5, .start none, .tbind 0 (some (hdr 2 0).words), .tbind 0 none],
      arriving (net1 (pk 1 0 b) (at0 id)) 1 = some (pk 1 0 b) ∧ handledAt (net1 (pk 1 0 b) (at0 id)) 0 (pk 1 0 b) = true ∧
      (pk 1 0 b).stage ≠ .queued) ∧
    ((at0 id).trigger 0).state = 0 ∧ ((at0 id).trigger 0).held.length < 64 ∧
    (∀ p : Packet, p = { pk 1 0 (.tbind 0 (some (hdr 2 0).words)) with stage := .queued } → (net1 p (at0 id)).packet? 1 = some p) ∧
    ((((at0 id).setTrigger 0 bound).trigger 0).state = 1 ∧ (((at0 id).setTrigger 0 bound).trigger 0).owner = 0) := by
  refine ⟨by decide +kernel, by decide +kernel, by decide +kernel, fun p h => by subst h; rfl, ?_⟩
  decide +kernel

theorem witness_StopEvents :
    (stopGroup (at0 id) (groupOf30 0)).isSome = true ∧
    (∀ p ∈ [pk 1 barrierPort (.haltReq 1 true)], ((net1 p (at0 id)).net.find? fun p => epCore p.dst == barrierPort &&
      (match p.body with | .haltReq q t => q == 1 && t == true | _ => false) && (arriving (net1 p (at0 id)) p.id).isSome) = some p) ∧
    (∀ s : State, s = withBuoys 1 (net1 { atCore .st 0 with dst := 1, addr := store1 } (at0 id)) →
      ∀ p : Packet, p = { atCore .st 0 with dst := 1, addr := store1 } → s.packet? 1 = some p ∧ standsAt s p = true ∧
      (s.core 1).sealed = false ∧ firstClaimed s 1 p = true ∧ (claimedBy s 1 p).isSome = true) ∧
    (∀ b ∈ [Body.relocNotice 1 2 0, .relocFence 1 0 0, .relocAck 1 0 0], arriving (net1 (pk 1 0 b) (at0 id)) 1 = some (pk 1 0 b) ∧
      (pk 1 0 b).dst ≠ 1) ∧
    ((at0 id).core 0).redirects = [] ∧
    (((at0 id fun k => { k with redirects := [⟨1, 2, 0, [0]⟩] }).core 0).redirects.find? fun r => r.v == 1 && r.key == 0).isSome = true ∧
    (tget ((withBuoys 1 (at0 id)).core 1).buoys 0 = some ⟨0, 0, 0, []⟩ ∧ bit (at0 id).splitc 3 = true ∧
      0 + 16777216 ≤ (at0 id fun k => { k with cyc := 16777216 }).hereCore.cyc) := by
  refine ⟨by decide +kernel, by decide +kernel, fun s h p hp => by subst h hp; decide +kernel, by decide +kernel⟩

theorem witness_RepairEvents : (∀ f, (at0 f).thread? 0 0 = some (th f)) ∧
    (∀ p : Packet, p = { pk 1 0 (.start none) with stage := .lost } →
      (net1 p { at0 id with time := 2 ^ 20 }).packet? 1 = some p ∧ p.since + 2 ^ 20 ≤ ({ at0 id with time := 2 ^ 20 } : State).time) ∧
    (tgetD (at0 id).vert 127 {}).state = 0 ∧ (tgetD (at0 id).vert 127 {}).nbad ≤ 1023 ∧
    ((logError (at0 id) 3 2 false 0 0).log 3).recs ≠ [] :=
  ⟨fun _ => thread_at0 _ _ fun _ => rfl, fun p h => by subst h; exact ⟨rfl, by decide⟩, by decide +kernel⟩


/-- Port 3 of a cube in a state; a flit that opens under its receive key. -/
def port3 (x : Port) : State := (at0 id).setPort 3 x
theorem port3_get (x : Port) : (port3 x).port 3 = x := by simp [port3, State.port, State.setPort, tgetD]
def keyed : Port := { state := 3, rxfirst := true, txfirst := true }
def hdr1000 : BitVec 64 := 1000 * 2 ^ 48
def body0 : List Byte := List.replicate 240 0
def flit0 : Flit := { hdr := hdr1000, body := body0, fec := true, tag := (flitGcm true 0 (flitNonce 0 0 0) hdr1000 body0).2 }
theorem openFlit_own (x : Port) (f : Flit) (k : BitVec 128) (p q c : Nat) (h : BitVec 64) (d : List Byte) (hk : bit f.hdr 19 = x.rxkph)
    (hf : x.rxfirst = true) (h1 : x.rxkey = k) (h2 : x.peer = p) (h3 : x.pport = q) (h4 : f.hdr = h) (h5 : f.body = d)
    (ht : f.tag = (flitGcm true k (flitNonce p q c) h d).2) :
    openFlit x f c = some ((flitGcm true k (flitNonce p q c) h d).1, x) := by
  subst h1 h2 h3 h4 h5
  unfold openFlit
  rw [hk, hf, ht]
  simp only [beq_self_eq_true, if_true, Option.map_some]

theorem witness_LinkEvents :
    ((at0 id).port 3).state = 0 ∧ ((port3 { state := 1 }).port 3).state = 1 ∧
    (∀ x : Port, x = { state := 1, tries := 3 } → ((port3 x).port 3).state = 1 ∧ 3 ≤ ((port3 x).port 3).tries) ∧
    (((port3 keyed).port 3).state = 3 ∧ (((port3 keyed).port 3).txst && ((port3 keyed).port 3).prst) = false ∧
      ((port3 keyed).port 3).txctr ≠ 2 ^ 48 - 1) ∧
    (flit0.body.length = 240 ∧ ({ flit0 with fec := false } : Flit).fec = false ∧
      openFlit { keyed with rxkph := true, rxctr := 1 } flit0 0 = none) ∧
    (∀ x, x = { keyed with rxctr := 1 } → ∃ body y, openFlit x flit0 0 = some (body, y) ∧ badHeader flit0.hdr = false ∧
      bits flit0.hdr 63 62 = 0 ∧ ∀ z, z = acknowledged { y with bad := 0, needs := false } (bits flit0.hdr 47 36) (bits flit0.hdr 35 20) →
        z.rxfirst = true ∧ (takeData z ⟨bits flit0.hdr 59 48, bits flit0.hdr 61 60, bits flit0.hdr 18 14, body, 0⟩ 0).state = 3) ∧
    (∀ x : Port, x = { keyed with nakAt := some 0, held := [⟨2, 0, 0, [], 0⟩] } →
      ((port3 x).port 3).nakAt = some 0 ∧ ((port3 x).port 3).held ≠ [] ∧ 0 + 1024 ≤ ({ port3 x with time := 1024 } : State).time) ∧
    (∀ x : Port, x = { keyed with replay := [⟨2, 0, 0, [], 0⟩] } → ∀ s : State, s = { port3 x with time := 2048 } →
      ((s.port 3).replay.find? fun g => g.seq == 2) = some ⟨2, 0, 0, [], 0⟩ ∧ (s.port 3).needs = false ∧ 2 ∉ (s.port 3).resend) := by
  refine ⟨by decide +kernel, by decide +kernel, fun x h => by subst h; decide +kernel, by decide +kernel,
    ⟨by decide +kernel, rfl, by
      have h : bit flit0.hdr 19 = false := by decide +kernel
      simp [openFlit, h, keyed]⟩, fun x h => ?_, fun x h => by subst h; decide +kernel,
    fun x h s hs => by subst h hs; decide +kernel⟩
  subst h
  refine ⟨_, _, openFlit_own _ flit0 0 0 0 0 hdr1000 body0 (by decide +kernel) rfl rfl rfl rfl rfl rfl rfl, by decide +kernel, by decide +kernel, fun z hz => ?_⟩
  have he : z.expect = 0 := by rw [hz]; rfl
  have hs : z.state = 3 := by rw [hz]; rfl
  have hq : bits flit0.hdr 59 48 = 1000 := by decide +kernel
  refine ⟨by rw [hz]; rfl, ?_⟩
  unfold takeData
  rw [he, hq]
  simp [seqAfter, hs]

/-- A link packet in transit to cube 5, one for this cube, and a cube with a route to 5 by port 4. -/
def tran (d : Nat) : LinkPkt := ⟨linkHdr0 d 0 7 0 0 0 0 1, linkHdr1 9 0 0 0 3, [], 0, 0⟩
def routed (x : Port) : State :=
  { port3 x with routes := [(5, word (2 ^ 63 + 4 * 2 ^ 59))], ports := [(3, x), (4, keyed)], time := 256 }
/-- A request to cube 5 at this cube's gateway, and a store of it kept for a receipt. -/
def away : Packet := { pk 1 0 (.start none) with dst := 2 ^ 11 * 5, stage := .gateway, ordered := false }
def kept (sends : Nat) (body : Body) : Retry :=
  { pid := 9, pkt := { pk 1 0 body with dst := 2 ^ 11 * 5 }, link := tran 5, sends := sends, sent := 0, away := true }

/-- Two halves of a block of tree 0. -/
def half (lo : Nat) : Tensor := ⟨0, 0, lo, lo + 1, [1], [], 0, ⟨0, .copy 0, {}, 0, false, 0, false, 0⟩, 0⟩
theorem witness_FabricEvents :
    (∀ d ∈ [0, 5], ∀ e, e = routed { keyed with inq := [tran d] } → (e.port 3).inq = [tran d] ∧ (tran d).malformed = false ∧
      (tran d).ord ≠ 2 ∧ (tran d).typ < 10) ∧
    (∀ e, e = routed keyed → (tran 5).dcube ≠ e.physical ∧ (tran 0).dcube = e.physical ∧ e.forward = none ∧ (tran 5).hops < 30 ∧
      leaveBy e 5 0 0 0 false false = .by' 4 0 ∧ (e.port 4).state = 3) ∧
    (∀ s : State, s = net1 away { routed keyed with aliases := [(5, word (2 ^ 63 + 5))] } →
      s.packet? 1 = some away ∧ away.stage = .gateway ∧ away.ordered = false ∧ away.since + 256 ≤ s.time ∧
      epCube away.dst ≠ treeUp ∧ epCube away.dst ≠ treeDown ∧ s.alias? (epCube away.dst) = (true, 0, 5) ∧ 5 ≠ s.physical ∧
      leaveBy s 5 1 away.urg 0 true true = .by' 4 1 ∧ classBarred s 4 away = false ∧
      storeRoom ((s.dropPacket away.id).port 4) = true ∧ ((s.dropPacket away.id).port 4).state ≠ 5) ∧
    (∀ b ∈ [Body.receipt 3 9, .abandon 3 9], ∀ c ∈ [Body.start none, .access (acc .ld)],
      ∀ p, p = { pk 1 0 b with dst := (at0 id).ep gatewayPort } →
      ∀ s, s = net1 p (port3 { keyed with store := [kept 4 c] }) → atGateway s 1 = some p ∧
        findRetry (s.dropPacket 1) 3 9 = some (kept 4 c) ∧ (kept 4 c).query = false ∧ (kept 4 c).away = true ∧
        retryFirst (s.port 3) (kept 4 c) = true ∧ findRetry s 3 9 = some (kept 4 c) ∧ 4 ≤ (kept 4 c).sends ∧
        expectsReply (kept 4 (.access (acc .ld))).pkt = true ∧ expectsReply (kept 4 (.start none)).pkt = false) ∧
    (∀ s : State, s = { at0 id with time := 2 ^ 22, pids := [(5, 3, 9, 0)], forward := some (6, 0) } →
      s.pids[0]? = some (5, 3, 9, 0) ∧ 0 + 2 ^ 22 ≤ s.time ∧ s.forward = some (6, 0)) ∧
    (∀ p : Packet, p = pk 1 0 (.homeQuery 2048 0 0 0 4 5) → ∀ b ∈ [true, false], ∀ s, s = net1 p (at0 id (keeps b)) →
      s.packet? 1 = some p ∧ p.stage = .home ∧ epCube p.dst = s.logical ∧ epCore p.dst < 1028 ∧
      (s.cores.any fun k => k.2.done.any fun d => d.src == 2048 && d.slot == 0 && d.uid == 0 && d.seq == 0 && d.performed) = b) ∧
    (∀ s : State, s = { at0 id with tree := [(0, word (2 ^ 63))], combines := [⟨0, 0, [half 0, half 1], none, []⟩] } →
      bit (s.treeWord 0 0) 63 = true ∧ bits (s.treeWord 0 0) 62 61 = 0 ∧
      nextPair (s.combine 0 0).parts = some (half 0, half 1)) := by
  refine ⟨fun d hd e h => ?_, fun e h => by subst h; decide +kernel, fun s h => by subst h; decide +kernel,
    fun b hb c hc p hp s hs => ?_, fun s h => by subst h; decide +kernel,
    fun p hp b hb s hs => by subst hp hs; cases b <;> decide +kernel,
    fun s h => by subst h; decide +kernel⟩
  · subst h
    simp only [List.mem_cons, List.not_mem_nil, or_false] at hd
    obtain rfl | rfl := hd <;> decide +kernel
  · subst hp hs
    simp only [List.mem_cons, List.not_mem_nil, or_false] at hb hc
    obtain rfl | rfl := hb <;> obtain rfl | rfl := hc <;> decide +kernel

/-- The word of the commander for operation `op` at a configuration offset. -/
def cmd (op o : Nat) : Word := word (op * 2 ^ 60 + 0x3FC00000000 + o)
theorem witness_BootEvents : ∀ s : State, s = { at0 id with ucieUp := true } →
    s.ucieUp = true ∧ bits s.splitc 6 0 = 0x7F ∧ (at0 id).ucieUp = false ∧ (at0 id).on = true ∧ (at0 id).firm.busy = false ∧
    (∀ k ∈ [1, 2], bits (cmd k 0x2000000) 63 60 = k ∧ bits (cmd k 0x2000000) 47 42 = 0 ∧
      0x3FC00000000 ≤ bits (cmd k 0x2000000) 41 0 ∧ bits (cmd k 0x2000000) 41 0 % 8 = 0 ∧
      bits (cmd k 0x2000000) 41 0 - 0x3FC00000000 = 0x2000000) ∧
    0x2000000 / 0x100000 ≠ 7 ∧ (configLoad s true 0x2000000).isSome = true ∧
    (∃ u, configStore s commander 0x400000 0 = .ok u) ∧ (configStore s commander 0x700000 0 = .fail) ∧
    ((∃ n, bootSlot = some n) ∨ bootSlot = none) := by
  intro s h
  subst h
  refine ⟨rfl, ?_, ?_, ?_, ?_, ?_, ?_, ?_, ⟨_, rfl⟩, by decide +kernel, by cases bootSlot <;> simp⟩ <;> decide +kernel

/-! Context areas. The area of these tests is physical memory from 0, one line a header, all others zero. -/

/-- The leaf of a page of 2^30 bytes whose lines have core 5 as home. -/
def bigLeaf : Word := word (2 ^ 63 + 2 ^ 62 + 2 ^ 61 + 2 ^ 60 + 2 ^ 58 + 2 ^ 48 + 5 * 2 ^ 37)
def bigAt (n : Nat) : LeafCopy := { slice := n, dom := 0, page := 0, level := 1, d0 := bigLeaf, d1 := 0 }
/-- A machine whose slices hold that leaf and the space entry of domain 0, with a header in memory and a thread whose operand d is
a selector. -/
def mapped (h : Nat) (sel : Nat) (g : CoreSt → CoreSt) : State :=
  { at0 (withG 3 (word sel)) g with
    leaves := (List.range 16).map bigAt
    spaceHeld := (List.range 16).map fun n => ((2000 + n) * 4096, base.spaceEntry 0)
    dram := Memory.write [] 0 8 h
    groups := [(groupKey {}, { level := 0, tickets := 1, place := 0, gangLv := 0, barrier := 0, base := 0, task := 0, live := 1 })] }
/-- Header of a core area, of a thread area. -/
def coreHdr : Nat := 5 * 2 ^ 54 + 112 * 2 ^ 32
def threadHdr : Nat := 4 * 2 ^ 54
def lineXl (i : Nat) : Xl := { pa := 32 * i, key := 0, elided := none, pinned := true }

/-- What the translation of the area depends on. -/
def MapsArea (s : State) : Prop :=
  s.leaves = (mapped 0 0 id).leaves ∧ s.spaceHeld = (mapped 0 0 id).spaceHeld ∧ s.keys = (mapped 0 0 id).keys

theorem sliceOf_lt (a : Word) : sliceOf a < 2 ^ 4 := by
  unfold sliceOf
  refine Nat.xor_lt_two_pow (Nat.xor_lt_two_pow (Nat.xor_lt_two_pow (Nat.xor_lt_two_pow (Nat.xor_lt_two_pow
    (Nat.xor_lt_two_pow ?_ ?_) ?_) ?_) ?_) ?_) ?_ <;> unfold bits <;> refine Nat.lt_of_lt_of_le (Nat.mod_lt _ (by norm_num)) (by norm_num)

theorem held_mapped (s : State) (hs : MapsArea s) (n i : Nat) (hn : n < 16) (hi : 32 * i < 2 ^ 30) :
    heldLeaf s n 0 (32 * i) = some (bigAt n) ∧ s.leaves.contains (bigAt n) = true := by
  have hL : s.leaves = (List.range 16).map bigAt := hs.1
  have hp : 32 * i / 2 ^ pageBits 1 = 0 := by simp only [pageBits]; omega
  refine ⟨?_, by rw [hL]; interval_cases n <;> decide +kernel⟩
  unfold heldLeaf
  rw [hL]
  interval_cases n <;> simp [List.range, List.range.loop, bigAt, hp]

theorem space_mapped (s : State) (hs : MapsArea s) (n : Nat) (hn : n < 16) :
    s.useSpace (2000 + n) 0 = s ∧ s.spaceAt (2000 + n) 0 = base.spaceEntry 0 := by
  have hh : s.spaceHeld = (List.range 16).map fun n => ((2000 + n) * 4096, base.spaceEntry 0) := hs.2.1
  have hg : tget s.spaceHeld ((2000 + n) * 4096 + 0) = some (base.spaceEntry 0) := by
    rw [hh]
    interval_cases n <;> rfl
  exact ⟨by unfold State.useSpace; rw [hg], by unfold State.spaceAt; rw [hg]; rfl⟩

theorem translate_mapped (s : State) (hs : MapsArea s) (i : Nat) (hi : 32 * i < 2 ^ 30) (r w : Bool) (p : Bool) (core : Nat) :
    translateUse s (0 + word (32 * i)) 0 p r w core = (.ok (lineXl i, 5), s) := by
  have hw : ((0 : Word) + word (32 * i)).toNat = 32 * i := by
    rw [show (0 : Word) + word (32 * i) = word (32 * i) from by simp, word, BitVec.toNat_ofNat]
    omega
  have ho : eaOff ((0 : Word) + word (32 * i)) = 32 * i := by
    unfold eaOff bits
    rw [hw]
    simp only [Nat.shiftRight_zero]
    omega
  have hslice : sliceOf ((0 : Word) + word (32 * i)) < 16 := sliceOf_lt _
  unfold translateUse
  simp only [ho]
  generalize sliceOf ((0 : Word) + word (32 * i)) = n at hslice
  obtain ⟨hu, hsp⟩ := space_mapped s hs n hslice
  obtain ⟨hl, hc⟩ := held_mapped s hs n i hslice hi
  have hm : 32 * i % 2 ^ 30 = 32 * i := Nat.mod_eq_of_lt hi
  have hk : (s.key? 0).isNone = false := by unfold State.key?; rw [hs.2.2]; decide +kernel
  have h1 : bits bigLeaf 49 48 = 1 := by decide +kernel
  have h2 : bits bigLeaf 47 37 = 5 := by decide +kernel
  have hleaf : leafFor s n 0 (32 * i) = some ⟨1, bigLeaf, 0, 0⟩ := by
    unfold leafFor
    simp only [hsp, hl]
    rw [show bit (base.spaceEntry 0).w0 63 = true from by decide +kernel]
    simp [bigAt]
  have hchk : leafCheck s n 0 p (32 * i) ⟨1, bigLeaf, 0, 0⟩ r w = .ok (lineXl i) := by
    have h3 : bits bigLeaf 56 50 = 0 := by decide +kernel
    have h4 : bits bigLeaf 22 0 = 0 := by decide +kernel
    have h5 : bit bigLeaf 57 = false ∧ bit bigLeaf 58 = true ∧ bit bigLeaf 61 = true ∧ bit bigLeaf 60 = true := by decide +kernel
    have h6 : (base.spaceEntry 0).holds 0 = true := by decide +kernel
    unfold leafCheck
    simp only [h1, h2, h3, h4, h5.1, h5.2.1, h5.2.2.1, h5.2.2.2, hsp, h6, hk, pageBits]
    simp [lineXl]
    omega
  have hx : (⟨n, 0, 32 * i / 2 ^ pageBits 1, 1, bigLeaf, 0, 0⟩ : LeafCopy) = bigAt n := by
    simp only [bigAt, LeafCopy.mk.injEq, true_and, and_true, pageBits]
    omega
  rw [hu, hleaf]
  simp only [resolveLeaf, hchk, h1, hx, hc, leafHome, placement, h2]
  simp

/-- The homes of an area of n lines. -/
def homesOf (n : Nat) : List (Xl × Nat) := (List.range n).map fun i => (lineXl i, 5)
theorem areaHomes_mapped (s : State) (hs : MapsArea s) (core : Nat) (t : Thread) (ht : t.dom = 0) (w : Bool) (n : Nat)
    (hn : 32 * n ≤ 2 ^ 30) : areaHomes s core t w 0 (32 * n) = (some (homesOf n), s) := by
  unfold areaHomes areaLines homesOf
  rw [show 32 * n / 32 = n from by omega, ht]
  generalize (s.domEntry core t).priv = priv
  have key : ∀ (l : List Nat) (hl : ∀ i ∈ l, 32 * i < 2 ^ 30) (done : List (Xl × Nat)),
      (l.map fun i => (0 : Word) + word (32 * i)).foldl (fun (acc : Option (List (Xl × Nat)) × State) a =>
        match acc.1 with
        | none => acc
        | some l =>
          match translateUse acc.2 a 0 priv (!w) w core with
          | (.error _, s') => (none, s')
          | (.ok (x, h), s') => (if x.elided.isSome then none else some ((x, h) :: l), s')) (some done, s) =
        (some ((l.map fun i => (lineXl i, 5)).reverse ++ done), s) := by
    intro l
    induction l with
    | nil => intro _ done; rfl
    | cons i l ih =>
      intro hl done
      simp only [List.map_cons, List.foldl_cons]
      rw [translate_mapped s hs i (hl i List.mem_cons_self)]
      simp only [lineXl, Option.isSome_none, Bool.false_eq_true, if_false]
      rw [ih (fun j hj => hl j (List.mem_cons_of_mem _ hj))]
      simp [lineXl]
  refine (congrArg (fun r : Option (List (Xl × Nat)) × State => (r.1.map List.reverse, r.2))
    (key (List.range n) (fun i hi => by have := List.mem_range.mp hi; omega) [])).trans ?_
  simp

/-- A machine differs from another in clean lines that core 5's cache holds. -/
def CleanRead (s0 s : State) : Prop :=
  (∀ line, s.dramLine line 0 = s0.dramLine line 0) ∧ (∀ c, c ≠ 5 → s.core c = s0.core c) ∧ s.folios = s0.folios ∧
  s.keys = s0.keys ∧ s.groups = s0.groups ∧ s.logical = s0.logical ∧
  ∀ l ∈ (s.core 5).cache, l.dirty = false ∧ (l.data, l.poison) = s0.dramLine l.line 0

theorem clean_put {s0 s : State} (h : CleanRead s0 s) (l : CacheLine) (hl : l.dirty = false)
    (hv : (l.data, l.poison) = s0.dramLine l.line 0) : CleanRead s0 (cachePut s 5 l) := by
  obtain ⟨h1, h2, h3, h4, h5, h7, h6⟩ := h
  have key : ∀ c : List CacheLine, (∀ x ∈ c, x ∈ (s.core 5).cache) →
      CleanRead s0 (s.setCore 5 { s.core 5 with cache := l :: c }) := fun c hc => by
    refine ⟨fun line => ?_, fun c hc => ?_, h3, h4, h5, h7, fun x hx => ?_⟩
    · exact h1 line
    · rw [State.core_setCore_other _ _ hc, h2 c hc]
    · rw [State.core_setCore] at hx
      rcases List.mem_cons.mp hx with rfl | hx
      · exact ⟨hl, hv⟩
      · exact h6 x (hc x hx)
  have hf : ∀ x ∈ (s.core 5).cache.filter (fun x => x.line != l.line), x ∈ (s.core 5).cache := fun x hx => (List.mem_filter.mp hx).1
  unfold cachePut
  simp only
  split
  · exact key _ hf
  · split
    · exact key _ hf
    · rename_i v hlast
      have hv := List.mem_of_getLast? hlast
      have hw : writeBack s v = s := by
        unfold writeBack
        rw [(h6 v (hf v (List.mem_filter.mp hv).1)).1]
        rfl
      rw [hw]
      exact key _ fun x hx => hf x (List.mem_filter.mp hx).1

theorem clean_read {s0 s : State} (h : CleanRead s0 s) (line : Nat) :
    (homeReadLine s 5 line 0 false).1 = s0.dramLine line 0 ∧ CleanRead s0 (homeReadLine s 5 line 0 false).2 := by
  unfold homeReadLine
  cases hc : (s.core 5).cached line with
  | none => exact ⟨h.1 line, clean_put h _ rfl (h.1 line)⟩
  | some l =>
    have hm := List.mem_of_find?_eq_some hc
    have hl : l.line = line := by simpa using List.find?_some hc
    obtain ⟨hd, hv⟩ := h.2.2.2.2.2.2 l hm
    refine ⟨?_, clean_put h _ hd hv⟩
    rw [← hl]
    exact hv

/-- The cells of a line of an area. -/
def cellsOf (i : Nat) (d : BitVec 256) : List Host.Cell := (List.range 32).filterMap fun j =>
  let v : Byte := BitVec.ofNat 8 (lineBytes d j 1)
  if v == 0 then none else some (32 * i + j, v)

theorem readArea_clean (s0 s : State) (h : CleanRead s0 s) (n : Nat) (hp : ∀ i, (s0.dramLine i 0).2 = 0) :
    ∃ e, CleanRead s0 e ∧
      readArea s (homesOf n) = ((((List.range n).map fun i => cellsOf i (s0.dramLine i 0).1).flatten, []), e) := by
  have key : ∀ (l : List Nat) (cells : List (List Host.Cell)) (s : State), CleanRead s0 s → ∃ e, CleanRead s0 e ∧
      (l.map fun i => ((lineXl i, 5), i)).foldl (fun (acc : (List (List Host.Cell) × List Nat) × State) e =>
        let d := homeReadLine acc.2 e.1.2 (e.1.1.pa / 32) e.1.1.key false
        let cells := (List.range 32).filterMap fun i =>
          let v : Byte := BitVec.ofNat 8 (lineBytes d.1.1 i 1)
          if v == 0 then none else some (32 * e.2 + i, v)
        let bad := ((List.range 4).filter fun i => bit d.1.2 i).map fun i => 4 * e.2 + i
        ((cells :: acc.1.1, acc.1.2 ++ bad), d.2)) ((cells, []), s) =
      (((l.map fun i => cellsOf i (s0.dramLine i 0).1).reverse ++ cells, []), e) := by
    intro l
    induction l with
    | nil => intro cells s h; exact ⟨s, h, rfl⟩
    | cons i l ih =>
      intro cells s h
      obtain ⟨hr, hc⟩ := clean_read h i
      obtain ⟨e, he, hf⟩ := ih (cellsOf i (s0.dramLine i 0).1 :: cells) _ hc
      refine ⟨e, he, ?_⟩
      rw [List.map_cons, List.foldl_cons]
      have hdiv : (lineXl i).pa / 32 = i := by simp only [lineXl]; omega
      have hkey : (lineXl i).key = 0 := rfl
      simp only [hdiv, hkey, hr, hp]
      rw [show ((List.range 4).filter fun i => bit (0 : BitVec 4) i) = [] from by decide]
      simp only [List.map_nil, List.append_nil, List.map_cons, List.reverse_cons, List.append_assoc, List.singleton_append]
      exact hf
  obtain ⟨e, he, hf⟩ := key (List.range n) [] s h
  refine ⟨e, he, ?_⟩
  have hz : (homesOf n).zip (List.range (homesOf n).length) = (List.range n).map fun i => ((lineXl i, 5), i) := by
    simp only [homesOf, List.length_map, List.length_range]
    apply List.ext_getElem <;> simp
  unfold readArea
  rw [hz, hf]
  simp

/-- Nothing but the header of the area is in memory. -/
def PlainDram (s : State) (h : Nat) : Prop :=
  s.dram = Memory.write [] 0 8 h ∧ s.dramKey = [] ∧ s.dramBad = [] ∧ s.vert = [] ∧ (s.key? 0).getD .boot = .boot

theorem read_nil (a n : Nat) : Memory.read [] a n = 0 := by
  induction n generalizing a with
  | zero => rfl
  | succ n ih => simp [Memory.read, ih, Memory.byte]

theorem dramLine_plain (s : State) (h : Nat) (hs : PlainDram s h) (i : Nat) :
    s.dramLine i 0 = (BitVec.ofNat 256 ((Memory.write [] 0 8 h).read (32 * i) 32), 0) := by
  obtain ⟨h1, h2, h3, h4, h5⟩ := hs
  have hf : failedColumn s (32 * i) = false := by
    unfold failedColumn
    rw [h4]
    rfl
  unfold State.dramLine
  simp only [hf, h1, h2, h3, h5, tgetD, tget, Option.getD_none]
  simp [linePoison, flagBit]

theorem dramLine_zero (s : State) (h : Nat) (hs : PlainDram s h) (i : Nat) : s.dramLine (i + 1) 0 = (0, 0) := by
  rw [dramLine_plain s h hs, Memory.read_write_other _ _ (.inr (by omega)), read_nil]
  rfl

theorem cells_plain (s : State) (h : Nat) (hs : PlainDram s h) (n : Nat) :
    ((List.range (n + 1)).map fun i => cellsOf i (s.dramLine i 0).1).flatten = cellsOf 0 (s.dramLine 0 0).1 := by
  rw [List.range_succ_eq_map, List.map_cons, List.flatten_cons, List.map_map]
  have hz : ((List.range n).map ((fun i => cellsOf i (s.dramLine i 0).1) ∘ Nat.succ)).flatten = [] := by
    rw [List.flatten_eq_nil_iff]
    intro l hl
    obtain ⟨i, -, rfl⟩ := List.mem_map.mp hl
    simp only [Function.comp, Nat.succ_eq_add_one, dramLine_zero s h hs]
    simp [cellsOf, lineBytes]
  rw [hz, List.append_nil]

/-- The thread with a selector; the machine with it issues an instruction. -/
def selTh (sel : Nat) : Thread := th (withG 3 (word sel))
def afterIssue (h sel : Nat) (o : Op) : State := issuedFor (mapped h sel id) (selTh sel) o c0
theorem here_mapped (h sel : Nat) : (mapped h sel id).here = some (selTh sel) := here_at0 _ _ fun _ => rfl
theorem maps_issued (h sel : Nat) (o : Op) : MapsArea (afterIssue h sel o) := by
  unfold MapsArea afterIssue
  exact ⟨rfl, rfl, rfl⟩
theorem plain_issued (h sel : Nat) (o : Op) : PlainDram (afterIssue h sel o) h := by
  refine ⟨rfl, rfl, rfl, rfl, ?_⟩
  show ((mapped 0 0 id).key? 0).getD .boot = .boot
  decide +kernel
theorem homes_issued (h sel : Nat) (o : Op) (w : Bool) (n : Nat) (hn : 32 * n ≤ 2 ^ 30) :
    areaHomes (afterIssue h sel o) 0 (issuedThread (mapped h sel id) (selTh sel)) w 0 (32 * n) = (some (homesOf n), afterIssue h sel o) :=
  areaHomes_mapped _ (maps_issued h sel o) _ _ rfl _ _ hn

/-- Reading an area of n + 1 lines gives its header. -/
theorem read_issued (h sel n : Nat) : ∃ e, CleanRead (afterIssue h sel .cload) e ∧
    readArea (afterIssue h sel .cload) (homesOf (n + 1)) = ((cellsOf 0 ((afterIssue h sel .cload).dramLine 0 0).1, []), e) := by
  have hp := plain_issued h sel .cload
  have hc : CleanRead (afterIssue h sel .cload) (afterIssue h sel .cload) := by
    refine ⟨fun _ => rfl, fun _ _ => rfl, rfl, rfl, rfl, rfl, fun l hl => ?_⟩
    have : ((afterIssue h sel .cload).core 5).cache = [] := rfl
    rw [this] at hl
    exact absurd hl (by simp)
  obtain ⟨e, he, hr⟩ := readArea_clean _ _ hc (n + 1) fun i => by rw [dramLine_plain _ h hp]
  exact ⟨e, he, by rw [hr, cells_plain _ h hp]⟩

/-- The machine whose thread in slot 1 of core 0 is stopped. -/
def withStopped (s : State) : State := s.setThread 0 1 { loadedThread 0 with status := .stopped }
theorem here_stopped (h sel : Nat) : (withStopped (mapped h sel id)).here = some (selTh sel) := by
  have hc : (withStopped (mapped h sel id)).cur = (0, 0) := rfl
  unfold State.here
  rw [hc]
  unfold withStopped State.thread?
  rw [State.core_setThread]
  show tget (tset _ 1 _) 0 = _
  rw [tget_tset_other _ _ (by decide)]
  exact here_mapped h sel

theorem witness_ContextSave :
    (∀ o ∈ [Op.csave, .cload], executable (at0 (withG 3 3)) (th (withG 3 3)) o c0 = true ∧
      selector 0 0 ((th (withG 3 3)).scalar 3) = none) ∧
    (∀ s : State, s = withStopped (mapped 0 256 id) → s.here = some (selTh 256) ∧ s.cur = (0, 0) ∧
      executable s (selTh 256) .csave c0 = true ∧ selector 0 0 ((selTh 256).scalar 3) = some (0, 1) ∧
      areaPlace ((selTh 256).scalar 1) (areaSize 0) = true ∧
      areaHomes (issuedFor s (selTh 256) .csave c0) 0 (issuedThread s (selTh 256)) true ((selTh 256).scalar 1) (areaSize 0) =
        (some (homesOf 256), issuedFor s (selTh 256) .csave c0) ∧ eaCube ((selTh 256).scalar 1) = s.logical ∧
      canSave (issuedFor s (selTh 256) .csave c0) 0 0 1 = true ∧
      contextReady (issuedFor s (selTh 256) .csave c0) 0 0 false ((selTh 256).scalar 3) = true ∧
      ((issuedFor s (selTh 256) .csave c0).thread? 0 1).isSome = true) ∧
    (∀ s : State, s = mapped 0 513 id → s.here = some (selTh 513) ∧ s.cur = (0, 0) ∧
      executable s (selTh 513) .csave c0 = true ∧ selector 0 0 ((selTh 513).scalar 3) = some (1, 2) ∧
      areaPlace ((selTh 513).scalar 1) (areaSize 1) = true ∧
      areaHomes (issuedFor s (selTh 513) .csave c0) 0 (issuedThread s (selTh 513)) true ((selTh 513).scalar 1) (areaSize 1) =
        (some (homesOf 229376), issuedFor s (selTh 513) .csave c0) ∧ eaCube ((selTh 513).scalar 1) = s.logical ∧
      canSave (issuedFor s (selTh 513) .csave c0) 0 1 2 = true ∧
      contextReady (issuedFor s (selTh 513) .csave c0) 0 0 false ((selTh 513).scalar 3) = true) := by
  have hga : ∀ n, (selTh n).scalar 1 = 0 := fun _ => rfl
  refine ⟨by decide +kernel, fun s h => ?_, fun s h => ?_⟩
  · subst h
    refine ⟨here_stopped 0 256, rfl, by decide +kernel, by decide +kernel, by decide +kernel, ?_, by decide +kernel, by decide +kernel, by decide +kernel⟩
    exact areaHomes_mapped (issuedFor (withStopped (mapped 0 256 id)) (selTh 256) .csave c0) ⟨rfl, rfl, rfl⟩ _ _ rfl _ 256 (by norm_num)
  · subst h
    refine ⟨here_mapped 0 513, rfl, by decide +kernel, by decide +kernel, by decide +kernel, ?_, by decide +kernel, by decide +kernel, by decide +kernel⟩
    exact homes_issued 0 513 .csave true 229376 (by norm_num)

theorem tget_mem {α : Type} {l : Tab α} {i : Nat} {x : α} (h : tget l i = some x) : (i, x) ∈ l := by
  induction l with
  | nil => simp [tget] at h
  | cons e l ih =>
    unfold tget at h
    split at h
    · rename_i hk
      have : e.1 = i := by simpa using hk
      simp [← this, Option.some.inj h.symm]
    · exact List.mem_cons_of_mem _ (ih h)
/-- Where every group has a live thread, a group is gone if it has no entry. -/
theorem groupGone_live {s : State} (h : ∀ e ∈ s.groups, e.2.live ≠ 0) (g : GroupId) :
    groupGone s g = (tget s.groups (groupKey g)).isNone := by
  unfold groupGone
  cases hg : tget s.groups (groupKey g) with
  | none => rfl
  | some e => simp [h _ (tget_mem hg)]
theorem groups_clean {h sel : Nat} {o : Op} {e : State} (he : CleanRead (afterIssue h sel o) e) (g : GroupId) :
    groupHeld e g = groupHeld (afterIssue h sel o) g := by
  have live : ∀ x ∈ (afterIssue h sel o).groups, x.2.live ≠ 0 := fun x hx => by
    have all : ∀ x ∈ (mapped 0 0 id).groups, x.2.live ≠ 0 := by decide +kernel
    exact all x hx
  unfold groupHeld
  rw [groupGone_live live, groupGone_live (by rw [he.2.2.2.2.1]; exact live), he.2.2.2.2.1, he.2.2.2.2.2.1]
theorem coreAreaOk_clean {h sel : Nat} {o : Op} {e : State} (he : CleanRead (afterIssue h sel o) e) (m : Memory) :
    coreAreaOk e m = coreAreaOk (afterIssue h sel o) m := by
  unfold coreAreaOk areaLoads State.key?
  simp only [groups_clean he, he.2.2.2.1]

theorem witness_ContextLoad :
    (∃ e, readArea (afterIssue threadHdr 256 .cload) (homesOf 256) =
        ((cellsOf 0 ((afterIssue threadHdr 256 .cload).dramLine 0 0).1, []), e) ∧
      areaHomes (afterIssue threadHdr 256 .cload) 0 (issuedThread (mapped threadHdr 256 id) (selTh 256)) false
        ((selTh 256).scalar 1) (areaSize 0) = (some (homesOf 256), afterIssue threadHdr 256 .cload) ∧
      eaCube ((selTh 256).scalar 1) = (mapped threadHdr 256 id).logical ∧ tget (e.core 0).threads 1 = none ∧
      areaLoads e (cellsOf 0 ((afterIssue threadHdr 256 .cload).dramLine 0 0).1) 0 = true ∧
      bits (get (cellsOf 0 ((afterIssue threadHdr 256 .cload).dramLine 0 0).1) 8) 18 16 = 0) ∧
    executable (mapped threadHdr 256 id) (selTh 256) .cload c0 = true ∧
    areaPlace ((selTh 256).scalar 1) (areaSize 0) = true ∧
    (∃ e, readArea (afterIssue coreHdr 513 .cload) (homesOf 229376) =
        ((cellsOf 0 ((afterIssue coreHdr 513 .cload).dramLine 0 0).1, []), e) ∧
      areaHomes (afterIssue coreHdr 513 .cload) 0 (issuedThread (mapped coreHdr 513 id) (selTh 513)) false
        ((selTh 513).scalar 1) (areaSize 1) = (some (homesOf 229376), afterIssue coreHdr 513 .cload) ∧
      ∀ a ∈ coreAreas (targetCores 1 2) (cellsOf 0 ((afterIssue coreHdr 513 .cload).dramLine 0 0).1) [],
        coreFree e a.1 (bits (get a.2.1 8) 6 0) = true ∧ coreAreaOk e a.2.1 = true ∧ ∀ w ∈ a.2.2, 0x20000 ≤ w) ∧
    executable (mapped coreHdr 513 id) (selTh 513) .cload c0 = true ∧
    areaPlace ((selTh 513).scalar 1) (areaSize 1) = true := by
  refine ⟨?_, by decide +kernel, by decide +kernel, ?_, by decide +kernel⟩
  · obtain ⟨e, he, hr⟩ := read_issued threadHdr 256 255
    refine ⟨e, hr, homes_issued threadHdr 256 .cload false 256 (by norm_num), by decide +kernel, ?_, ?_, by decide +kernel⟩
    · rw [he.2.1 0 (by decide)]
      have : (tget ((afterIssue threadHdr 256 .cload).core 0).threads 1).isNone = true := by decide +kernel
      simpa using this
    · unfold areaLoads
      rw [groups_clean he]
      show areaLoads (afterIssue threadHdr 256 .cload) _ 0 = true
      decide +kernel
  · obtain ⟨e, he, hr⟩ := read_issued coreHdr 513 229375
    refine ⟨e, hr, homes_issued coreHdr 513 .cload false 229376 (by norm_num), fun a ha => ?_⟩
    have hfree : ∀ c, c ≠ 5 → ∀ o, coreFree e c o = coreFree (afterIssue coreHdr 513 .cload) c o := fun c hc o => by
      unfold coreFree producesFolio
      rw [he.2.1 c hc, he.2.2.1]
    have hok : ∀ a ∈ coreAreas (targetCores 1 2) (cellsOf 0 ((afterIssue coreHdr 513 .cload).dramLine 0 0).1) [],
        a.1 ≠ 5 ∧ coreFree (afterIssue coreHdr 513 .cload) a.1 (bits (get a.2.1 8) 6 0) = true ∧
        coreAreaOk (afterIssue coreHdr 513 .cload) a.2.1 = true ∧ ∀ w ∈ a.2.2, 0x20000 ≤ w := by decide +kernel
    obtain ⟨h5, h6, h7, h8⟩ := hok a ha
    exact ⟨by rw [hfree _ h5]; exact h6, by rw [coreAreaOk_clean he]; exact h7, h8⟩

/-! ### Completion -/

/-- The forms of a chain in these tests; the first of them in which an instruction is executable and meets a condition. -/
def forms : List Chain := [c0, cR, cN, cA, { c0 with a := 0 }, cZ 0, cE 4, cI 15]
def meets (f : Thread → Thread) (o : Op) (cond : Chain → Bool := fun _ => true) : Bool :=
  forms.any fun c => executable (at0 f) (th f) o c && portless c && !isQueue c.d && cond c

/-- Every operation that `ComputationCompletes` lists has a form and a state that meet its conditions; those of the windows, of
EXIT and of VLEASE are met in the witnesses of these. -/
theorem witness_ComputationCompletes : (∀ f, (at0 f).here = some (th f)) ∧
    (∀ o ∈ scalarChains ++ [.bt, .bf, .call, .exit, .yield], meets id o = true) ∧
    meets id .wrpw (fun c => !wrpwBad ((th id).scalar c.a)) = true ∧
    (∀ o ∈ [Op.jr, .callr], meets id o (fun c => !bit ((th id).scalar c.a) 0) = true) ∧
    (∀ o ∈ [Op.fadd, .fsub, .fmul, .fdiv, .fmin, .fmax], meets id o (fpFormatsOk o · (th id)) = true) ∧
    (∀ o ∈ [Op.fma, .fms, .fcmpeq, .fcmplt, .fcmple, .fcmpun, .fsqrt, .fclass, .ftoi, .fton],
      meets id o (fun c => fselFmtOk (fpFmtA o c (th id)) && fselFmtOk (fpFmtB o c (th id))) = true) ∧
    (∀ o ∈ [Op.fabs, .fneg, .frnd, .fcvt], meets id o (fun c => fselFmtOk (etCode o c) && fselFmtOk (fmtA (th id).pw true 0)) = true) ∧
    (∀ o ∈ vectorChains ++ [.vfree], meets leased o (streamless o · (th leased)) = true) ∧
    (∀ o ∈ [Op.vcmpeq, .vcmplt, .vcmple, .vcmpun], meets leased o (fun c => streamless o c (th leased) &&
      (laneCount (max (fw (fpFmtA o c (th leased))) (fw (fpFmtB o c (th leased))))).isSome) = true) ∧
    (∀ o ∈ [Op.vadd, .vsub, .vmul, .vdiv, .vmin, .vmax], meets leased o (fun c => streamless o c (th leased) &&
      (laneCount (max (fw (etCode o c)) (max (fw (vecFmtX o c (th leased))) (fw (vecFmtY o c (th leased)))))).isSome) = true) ∧
    (∀ o ∈ [Op.vfma, .vsqrt, .vabs, .vneg], meets leased o (fun c => streamless o c (th leased) && fselFmtOk (etCode o c) &&
      (laneCount (max (fw (etCode o c)) (max (fw (fpFmtA o c (th leased))) (fw (fpFmtB o c (th leased)))))).isSome) = true) ∧
    (∀ o ∈ [Op.vcvt, .vcvti, .vrsum, .vrmin, .vrmax, .mxq], meets leased o (streamless o · (th leased)) = true) ∧
    fmtA (th leased).pw true 1 = 1 ∧ fselFmtOk 1 = true ∧ laneCount (fw 1) = some 32 :=
  ⟨fun _ => here_at0 _ _ fun _ => rfl, by decide +kernel⟩

/-- The conditions of `SystemCompletes` are those of `witness_TrapAndReturn` to `witness_ContextLoad`, of which each chain
names no queue port, and these. -/
theorem witness_SystemCompletes : (∀ f, (at0 f).here = some (th f)) ∧
    (∀ c ∈ [c0, cR, cN, cA, c4, cB 0, cB 1, cZ 0, cZ 1023, cI 1, cI 16, cL .cas, cL .feclr, { cI 1 with a := 10 }],
      isQueue c.a = false ∧ isQueue c.b = false ∧ isQueue c.d = false) ∧
    (global .strel .st (ga store1) store1 = true ∧ fenceClear (th (ga store1)) 2 = true ∧ (cL .strel).scope.code = 3 ∧
      fenceClear (th (ga store1)) 3 = true ∧ recordCovered (th (ga store1)) 3 = false) ∧
    (global .stfe .stfe (ga store1) store1 = true ∧ regionOf (eaOff store1) = .lstore 1 0 ∧ (at0 (ga store1)).cur.1 = 0) ∧
    (executable (at0 id) (th id) .start c0 = true ∧ (th id).scalar 1 = 0) :=
  ⟨fun _ => here_at0 _ _ fun _ => rfl, by decide +kernel⟩

/-- The step of an instruction without an encoding answers a next state. -/
def happens (i : Instr) (s : State) : Bool := match exec i s with | .next _ => true | _ => false
/-- The conditions of `EventsComplete` are those of `witness_QueueEvents` to `witness_BootEvents`; the events that need no
other take place in the machine of these tests. -/
theorem witness_EventsComplete : (at0 id).thread? 0 0 = some (th id) ∧
    (∀ i ∈ [Instr.matrixWord0Push 0 0 0, .copyDescriptorPush 0 0 0, .portRetrain 3, .txkeyStage 3 true 5, .rxkeyStage 3 true 5,
      .taskRecordState 0 1 0, .triggerOvfClear 2, .threadStop 0 0, .threadRelease 0 0, .quireStop 16, .quireRelease 16, .coreStop 1,
      .coreRelease 1, .groupRelease 0, .dtabWrite 0 0, .frecClear 0 0, .mberrClear 0 0 1, .splitcWrite 0, .aliasEntryWrite 7 0,
      .aliasMarkLost 7, .routeEntryWrite 7 0, .pathClassWrite 0 0, .hcDropAll 0, .logicalNumberWrite 0,
      .configWordWrite 0 0x400000 0, .softError (.lstore 0 0) false, .dramScrub 0, .attestRequest, .powerLoss, .coldReset],
      happens i (at0 id) = true) := by
  decide +kernel

/-! ### Decoding: words of the spec's listings, a family at a time -/

/-- The words of a chain decode to an operation with register fields d, a, b and an immediate. -/
def reads (ws : List Half) (o : Op) (d a b : Nat) (imm : Int) : Bool :=
  match decodeChain ws with
  | .ok (o', c) => decide (o' = o) && c.d.toNat == d && c.a.toNat == a && c.b.toNat == b && decide (immInt o' c = imm)
  | .error _ => false

/-- Listings of spec/10, spec/11, spec/12, spec/17 and spec/18: scalar and control words. -/
theorem test_decode_scalar :
    reads [0x6113] .movi 3 0 0 17 = true ∧ reads [0x0217] .mov 1 7 0 0 = true ∧
    reads [0x5280, 0x0C27] .add 2 7 0 640 = true ∧ reads [0x5034, 0x1977] .shl 7 7 0 52 = true ∧
    reads [0x2214] .cmpne 1 4 0 0 = true ∧ reads [0x2C50] .rdpw 5 0 0 0 = true ∧
    reads [0x5D00, 0x3153] .stl 5 3 0 0 = true ∧ reads [0xB400] .exit 0 0 0 0 = true := by
  decide +kernel
/-- R17, R18: form K immediates of 6 and 17 bits, with a sign. -/
theorem test_decode_branches :
    reads [0xD3FF, 0x6961] .bt 1 0 0 (-42) = true ∧ reads [0x68E1] .bt 1 0 0 14 = true ∧
    reads [0x6413] .addi 3 0 0 1 = true ∧ reads [0x67F4] .addi 4 0 0 (-1) = true := by decide +kernel
theorem test_decode_vector :
    reads [0x5803, 0x6010] .vlease 0 0 0 1 = true ∧ reads [0x5803, 0x8121] .vld 2 1 0 0 = true ∧
    reads [0x5803, 0x5D00, 0x8A12] .mxq 1 2 0 0 = true ∧
    reads [0x5802, 0x5DC0, 0x500F, 0x2F51] .vext 5 1 0 15 = true := by decide +kernel
theorem test_decode_pages :
    reads [0x5805, 0x5E00, 0x9836] .ldfe 3 6 0 0 = true ∧ reads [0x5805, 0x5E00, 0x1700] .fence 0 0 0 0 = true ∧
    reads [0x5805, 0x5E00, 0x5001, 0x1D01] .binit 0 1 0 1 = true ∧
    reads [0x5806, 0x5008, 0x0460] .ctlr 6 0 0 8 = true := by decide +kernel
/-- Words written out from the encodings of spec/02: page, opcode, fields (R12, R13, R16, R20). -/
theorem test_decode_by_hand :
    reads [0x5801, 0x0012] .fadd 1 2 0 0 = true ∧ reads [0x5804, 0x0003] .mcfg 0 3 0 0 = true ∧
    reads [0x5804, 0x5002, 0x5780, 0x0912] .cpyg 1 2 7 2 = true ∧
    reads [0x5806, 0x0E34] .csave 3 4 0 0 = true ∧ reads [0x5802, 0x0075] .viadd 7 5 0 0 = true := by
  decide +kernel

/-- A refusal, by name. -/
def refusedAs (ws : List Half) : Option DecodeErr :=
  match decodeChain ws with
  | .ok _ => none
  | .error e => some e

/-- R19, R20, R21, R23 (spec/01), R49 to R52 (spec/02): each check refuses an ill-formed chain. -/
theorem test_refused_prefixes :
    refusedAs [0x5803] = some .pastEnd ∧ refusedAs [0x5001, 0x5001, 0x5001, 0x5001, 0x5001, 0x0C12] = some .tooManyPrefixes ∧
    refusedAs [0x5401, 0x5401, 0x0C12] = some .dupXreg ∧ refusedAs [0x5803, 0x5803, 0x8121] = some .dupXpage ∧
    refusedAs [0x5807, 0x0100] = some .badXpage ∧ refusedAs [0x5800, 0x0100] = some .badXpage ∧
    refusedAs [0x5D00, 0x5D00, 0x3153] = some .dupXctl ∧ refusedAs [0x5C01, 0x3153] = some .badXctl ∧
    refusedAs [0x0000] = some .unassigned := by decide +kernel
theorem test_refused_fields :
    refusedAs [0x5001, 0x0217] = some .ximmNotAccepted ∧ refusedAs [0x5D00, 0x0217] = some .xctlNotAccepted ∧
    refusedAs [0x5440, 0x0217] = some .fifthBit ∧ refusedAs [0x5480, 0x0217] = some .thirdField ∧
    refusedAs [0x0101] = some .mustBeZero ∧ refusedAs [0x5802, 0x3191] = some .vectorField ∧
    refusedAs [0x5802, 0x2151] = some .maskField ∧ refusedAs [0x02B1] = some .wkDestination ∧
    refusedAs [0x02F1] = some .queuePort ∧ refusedAs [0x5500, 0x5001, 0x0C12] = some .immWithThird := by decide +kernel
theorem test_refused_controls :
    refusedAs [0x5808, 0x0217] = some .negatedP0 ∧ refusedAs [0x5803, 0x5C00, 0x0A12] = some .etypeNotPermitted ∧
    refusedAs [0x5E00, 0x0B12] = some .xctlFieldNotUsed ∧ refusedAs [0x5803, 0x6050] = some .immRange := by decide +kernel
/-- The same terms are not well-formed; steps that name a part the cube does not have are not either (R1, R2, R228). -/
theorem test_ill_formed :
    (Instr.mov { c0 with ximm := [1] }).wf = false ∧ (Instr.vlease { c0 with d := 0, a := 0, imm6 := 5 }).wf = false ∧
    (Instr.matrixWord0Push 0 64 0).wf = false ∧ (Instr.leaseGrant 1028).wf = false ∧ (Instr.feGo 64).wf = false ∧
    (Instr.portEnable 16).wf = false ∧ (Instr.folioFree 64 0).wf = false ∧ (Instr.triggerOvfClear 256).wf = false ∧
    (Instr.elogHeadRead 4).wf = false ∧ (Instr.leaseGrant 1027).wf = true ∧ (Instr.mov c0).wf = true := by decide +kernel

/-! ### Results, from the spec's tables and examples -/

/-- g3 after one instruction, its pending result in, from values of g3, g1 and g2. -/
def after (o : Op) (c : Chain) (d a b : Nat) : Option Nat :=
  match exec (Instr.ofOp o c) (at0 fun t => withG 3 (word d) (withG 1 (word a) (withG 2 (word b) t))) with
  | .next u => u.here.map fun t => (t.flush.scalar 3).toNat
  | _ => none

/-- spec/04 R94: the table of division results, the row "any" at 5. -/
theorem test_division_table :
    (∀ e ∈ [(7, 2, 3, 1, 3, 1), (2 ^ 64 - 7, 2, 2 ^ 64 - 3, 2 ^ 64 - 1, 0x7FFFFFFFFFFFFFFC, 1), (7, 2 ^ 64 - 2, 2 ^ 64 - 3, 1, 0, 7),
      (2 ^ 63, 2 ^ 64 - 1, 2 ^ 63, 0, 0, 2 ^ 63), (5, 0, 2 ^ 64 - 1, 5, 2 ^ 64 - 1, 5)],
      after .div cR 0 e.1 e.2.1 = some e.2.2.1 ∧ after .rem cR 0 e.1 e.2.1 = some e.2.2.2.1 ∧
      after .divn cR 0 e.1 e.2.1 = some e.2.2.2.2.1 ∧ after .remn cR 0 e.1 e.2.1 = some e.2.2.2.2.2) := by decide +kernel
/-- spec/04 R93: "SHL g4, g4, 64 therefore leaves g4 unchanged". -/
theorem test_shl_by_64 : after .shl { cI 64 with a := 3 } 7 0 0 = some 7 := by decide +kernel
/-- R93: a wrap, the high halves of products, a shift of a negative number, a rotation. -/
theorem test_integer_results :
    after .add cR 0 (2 ^ 64 - 1) 2 = some 1 ∧ after .sub c0 1 2 0 = some (2 ^ 64 - 1) ∧ after .mulh cR 0 (2 ^ 64 - 1) 2 = some (2 ^ 64 - 1) ∧
    after .mulhn cR 0 (2 ^ 64 - 1) 2 = some 1 ∧ after .andn cR 0 7 2 = some 5 ∧ after .sar cR 0 (2 ^ 63) 1 = some (2 ^ 63 + 2 ^ 62) ∧
    after .rol cR 0 (2 ^ 63) 1 = some 1 ∧ after .min cR 0 (2 ^ 63) 1 = some (2 ^ 63) ∧ after .minn cR 0 (2 ^ 63) 1 = some 1 := by
  decide +kernel
/-- R95: one operand. -/
theorem test_unary_results :
    after .clz c0 0 0 0 = some 64 ∧ after .ctz c0 0 8 0 = some 3 ∧ after .popc c0 0 255 0 = some 8 ∧
    after .brev c0 0 1 0 = some (2 ^ 63) ∧ after .bswap c0 0 1 0 = some (2 ^ 56) ∧
    after .sext (cE 0) 0 0x80 0 = some (2 ^ 64 - 128) ∧ after .abs c0 0 (2 ^ 64 - 5) 0 = some 5 := by decide +kernel
/-- spec/03, spec/04 R105: 1.5 + 2.25 = 3.75, 3 × 0.5 = 1.5 and 1 ÷ 0 = ∞ in FP32. -/
theorem test_float_results :
    after .fadd { cR with xctl := some ⟨.core, 1, false, false⟩ } 0 0x3FC00000 0x40100000 = some 0x40700000 ∧
    after .fmul { cR with xctl := some ⟨.core, 1, false, false⟩ } 0 0x40400000 0x3F000000 = some 0x3FC00000 ∧
    after .fdiv { cR with xctl := some ⟨.core, 1, false, false⟩ } 0 0x3F800000 0 = some 0x7F800000 := by decide +kernel

/-! ### Witnesses of the statements on decoding and steps -/

/-- No two rows of the opcode map stand at one place (R48). -/
theorem test_opcode_map : ((Op.all.map opRow).flatMap fun r => match r.code with
    | .d n => [128 * r.page + n]
    | .k k => (List.range 4).map fun i => 128 * r.page + 4 * (24 + k) + i).Nodup := by decide +kernel

theorem witness_EncodeDecode : (Instr.add (cI 5)).op?.isSome = true ∧ (Instr.add (cI 5)).wf = true ∧
    encode (.add (cI 5)) = [0x5005, 0x0C31] := by decide +kernel

theorem witness_ReservedRefused :
    decodeWords [0x6113] = .ok (.movi ⟨false, 3, 0, 17, [], none, false, none⟩) ∧
    ([(0x5001 : Half), 0x5001, 0x5001, 0x5001, 0x5001].all isPrefixWord = true) ∧
    (isPrefixWord 0x5803 = true ∧ bits (0x5803 : Half) 11 10 = 2 ∧ bits (0x5803 : Half) 11 10 ≠ 0) ∧
    (isPrefixWord 0x5807 = true ∧ bits (0x5807 : Half) 11 10 = 2 ∧ bits (payload 0x5807) 2 0 = 7) ∧
    (isPrefixWord 0x5800 = true ∧ bits (payload 0x5800) 2 0 = 0 ∧ bit (payload 0x5800) 3 = false) ∧
    (isPrefixWord 0x5810 = true ∧ bits (payload 0x5810) 10 4 ≠ 0) ∧
    (isPrefixWord 0x5C01 = true ∧ bits (0x5C01 : Half) 11 10 = 3 ∧ bits (payload 0x5C01) 3 0 ≠ 0) ∧
    (isPrefixWord 0x0000 = false ∧ opAt 0 (bits (0x0000 : Half) 14 8) = none) := by decide +kernel

/-- The placed program's word is a MOVI, or no chain; its thread issues by the agenda, or is selected. -/
def placed (w : Nat) (a : List Machine.Action) : State := { State.reset.withFetchWord 16 w with agenda := a }
def queued : State := (placed 0x6113 []).modCore 0 fun k =>
  { k with queues := [(0, { task := (loadedThread 0).task, group := {}, level := 1, tickets := 1 })] }
def chosen : CoreSt := ((select (queued.core 0)).map (·.1)).getD {}
theorem witness_StepByAgenda : ∀ w ∈ [0x6113, 0x0000], (placed w []).on = true ∧ (placed w []).recovery = false ∧
    (((placed w [.issue 0 0]).thread? 0 0).map fun t => (t.pc, t.isReady)) = some (0, true) ∧
    fetchPoison (placed w [.issue 0 0]) 0 0 = none ∧ (placed w [.issue 0 0]).agenda = [.issue 0 0] ∧
    (placed w [.ev (.leaseGrant 0)]).agenda = [.ev (.leaseGrant 0)] ∧ ((placed w []).core 0).istNew = [] := by decide +kernel

theorem witness_StepBySelection :
    decodeBytes (fetchBytes queued (queued.core 0) 0) = .ok (.movi ⟨false, 3, 0, 17, [], none, false, none⟩) ∧
    decodeBytes (fetchBytes (placed 0 []) ((placed 0 []).core 0) 0) = .error .unassigned ∧
    (queued.agenda = [] ∧ (firstEvent (candidates queued) queued).isNone = true ∧
      queued.focus = 0 ∧ select (queued.core 0) = some (chosen, 0) ∧
      (((picked queued chosen).thread? 0 0).map fun t => t.pc) = some 0 ∧
      fetchPoison (picked queued chosen) 0 0 = none ∧
      decodeBytes (fetchBytes (picked queued chosen) ((picked queued chosen).core 0) 0) =
        .ok (.movi ⟨false, 3, 0, 17, [], none, false, none⟩)) := by
  refine ⟨by decide +kernel, by decide +kernel, rfl, by decide +kernel, rfl, ?_, by decide +kernel⟩
  have h : (select (queued.core 0)).map (·.2) = some 0 := by decide +kernel
  obtain ⟨⟨k, i⟩, hk, hi⟩ := Option.map_eq_some_iff.mp h
  have hc : chosen = k := by unfold chosen; rw [hk]; rfl
  rw [hk, hc, ← hi]

end Sys2Proof.Tests
end

section
/-! PROOFS. Scalar division, compares, predicate operations, and the source formats that FSEL may not name (spec/04 R94,
R97, R98, R112; spec/03 R81). -/

namespace Sys2Proof.Machine

/-! ### The values of the divisions (R94) -/

/-- The quotient truncated toward zero, but for the one signed overflow. -/
theorem divS_toInt {x y : Word} (hy : y ≠ 0) (h : ¬(x = 0x8000000000000000 ∧ y = 0xFFFFFFFFFFFFFFFF)) :
    (divS x y).toInt = x.toInt.tdiv y.toInt := by
  have hq : divS x y = x.sdiv y := by
    apply BitVec.eq_of_toInt_eq
    rw [BitVec.toInt_sdiv, divS, if_neg (by simpa using hy), BitVec.toInt_ofInt]
  rw [hq]
  exact BitVec.toInt_sdiv_of_ne_or_ne x y (not_and_or.mp h)

/-- A remainder is smaller than the divisor, so that it is never wrapped. -/
theorem remS_toInt {x y : Word} (hy : y ≠ 0) : (remS x y).toInt = x.toInt.tmod y.toInt := by
  have hy' : 0 < y.toInt.natAbs := by
    have : y.toInt ≠ 0 := fun h => hy (BitVec.eq_of_toInt_eq h)
    omega
  have hlt : (x.toInt.tmod y.toInt).natAbs < y.toInt.natAbs := by
    rw [Int.natAbs_tmod]
    exact Nat.mod_lt _ hy'
  have hlo := BitVec.le_toInt y
  have hhi := BitVec.toInt_lt (x := y)
  rw [remS, if_neg (by simpa using hy)]
  exact BitVec.toInt_ofInt_eq_self (by decide) (by omega) (by omega)

theorem divN_toNat {x y : Word} (hy : y ≠ 0) : (divN x y).toNat = x.toNat / y.toNat := by
  rw [divN, if_neg (by simpa using hy), word, ← BitVec.udiv_def, BitVec.toNat_udiv]

theorem remN_toNat {x y : Word} (hy : y ≠ 0) : (remN x y).toNat = x.toNat % y.toNat := by
  rw [remN, if_neg (by simpa using hy), word, ← BitVec.umod_def, BitVec.toNat_umod]

/-- The signed remainder is what the signed quotient leaves; in the one overflow the quotient wraps. -/
theorem remS_toInt_eq_sub {x y : Word} (hy : y ≠ 0) (h : ¬(x = 0x8000000000000000 ∧ y = 0xFFFFFFFFFFFFFFFF)) :
    (remS x y).toInt = x.toInt - (divS x y).toInt * y.toInt := by
  rw [remS_toInt hy, divS_toInt hy h, Int.tmod_def, Int.mul_comm]

theorem remN_toNat_eq_sub {x y : Word} (hy : y ≠ 0) :
    (remN x y).toNat = x.toNat - x.toNat / y.toNat * y.toNat := by
  rw [remN_toNat hy, Nat.mod_eq_sub_div_mul]

/-! ### The bodies with which the listed instructions issue -/

theorem exec_aluLong : ∀ e ∈ aluLong, ∀ c s, exec (Instr.ofOp e.1 c) s = issueChain e.1 c (alu2Long e.2) s := by
  simp only [aluLong, List.forall_mem_cons]
  refine ⟨?div, ?divn, ?rem, ?remn, List.forall_mem_nil _⟩ <;> exact fun _ _ => rfl

theorem exec_compares : ∀ e ∈ compares, ∀ c s, exec (Instr.ofOp e.1 c) s = issueChain e.1 c (cmp2 e.2) s := by
  simp only [compares, List.forall_mem_cons]
  refine ⟨?cmpeq, ?cmpne, ?cmplt, ?cmple, ?cmpltn, ?cmplen, ?tst, List.forall_mem_nil _⟩ <;> exact fun _ _ => rfl

theorem exec_predTwo : ∀ e ∈ predTwo, ∀ c s, exec (Instr.ofOp e.1 c) s = issueChain e.1 c (pred2 e.2) s := by
  simp only [predTwo, List.forall_mem_cons]
  refine ⟨?pand, ?por, ?pxor, List.forall_mem_nil _⟩ <;> exact fun _ _ => rfl

theorem exec_pnot (c : Chain) (s : State) : exec (.pnot c) s =
    issueChain .pnot c (fun x t s => writePred s x x.c.d.toNat (!pwPred t.pw x.c.a.toNat) false 0) s := rfl

theorem exec_fpCompares : ∀ e ∈ fpCompares, ∀ c s,
    exec (Instr.ofOp e.1 c) s = issueChain e.1 c (fcmpBody e.2.1 e.2.2) s := by
  simp only [fpCompares, List.forall_mem_cons]
  refine ⟨?fcmpeq, ?fcmplt, ?fcmple, ?fcmpun, List.forall_mem_nil _⟩ <;> exact fun _ _ => rfl

/-! ### What the bodies compute -/

/-- A predicate operation reads its operands as they stood before the issue, which clears no predicate (R33, R98). -/
theorem pred2_predPQ (f : Bool → Bool → Bool) {o : Op} {c : Chain} {s : State} {t : Thread} (h : s.here = some t)
    (hx : executable s t o c = true) :
    ∃ u τ, issueChain o c (pred2 f) s = .next u ∧ u.here = some τ ∧
      PredResult o c s u t τ (f (predP c t) (predQ c t)) 0 := by
  obtain ⟨u, τ, hu, hτ, hr⟩ := pred2_result f h hx
  refine ⟨u, τ, hu, hτ, ?_⟩
  by_cases hreg : c.hasReg = true <;> simpa [hreg, predP, predQ, pwPred_clearPP] using hr

/-- p := f(a, b) on values of floating point, with formats that FSEL may name (R112). -/
theorem fcmp_result (quiet : Bool) (f : FVal → FVal → Bool) {o : Op} {c : Chain} {s : State} {t : Thread}
    (h : s.here = some t) (hx : executable s t o c = true) (ha : isQueue c.a = false) (hb : isQueue c.b = false)
    (hfa : fselFmtOk (fpFmtA o c t) = true) (hfb : fselFmtOk (fpFmtB o c t) = true) :
    ∃ u τ, issueChain o c (fcmpBody quiet f) s = .next u ∧ u.here = some τ ∧
      PredResult o c s u t τ (f (fpValue t (fpFmtA o c t) c.a) (fpValue t (fpFmtB o c t) c.b))
        (compareFlags quiet (fpValue t (fpFmtA o c t) c.a) (fpValue t (fpFmtB o c t) c.b)) := by
  refine writePred_result _ _ _ h hx ?_
  rw [fpFmtA] at hfa
  rw [fpFmtB] at hfb
  simp only [fcmpBody, ctxOf_c, ctxOf_pw, ctxOf_et, hfa, hfb, readField_reg ha, readField_reg hb, Bool.not_true,
    Bool.or_false, Bool.false_eq_true, if_false]
  rfl

/-! ### Source formats that FSEL may not name (spec/03 R81) -/

/-- A format that is not permitted, of a source that "d op a" or "a op b" reads: b with XREG only (R110). -/
def badOperandFormat (x : Ctx) : Prop :=
  (fselFmtOk (fmtA x.pw true x.et) && (!x.c.hasReg || fselFmtOk (fmtB x.pw true x.et))) = false

/-- A format that is not permitted, of one of two sources that are read with and without XREG. -/
def badPairFormat (x : Ctx) : Prop :=
  fselFmtOk (fmtA x.pw true x.et) = false ∨ fselFmtOk (fmtB x.pw true x.et) = false

/-- A format that is not permitted, of a single source with its default format, where AV is honoured or not. -/
def badSourceFormat (honours : Bool) (dflt : Nat → Nat) (x : Ctx) : Prop :=
  fselFmtOk (fmtA x.pw honours (dflt x.et)) = false

/-- The instruction issues with a body that answers ILLOP to the chains `bad`, whatever its operands. -/
def RefusesChains (bad : Ctx → Prop) (o : Op) : Prop :=
  ∃ body, (∀ c s, exec (Instr.ofOp o c) s = issueChain o c body s) ∧ ∀ x t s, bad x → body x t s = x.trap cILLOP

/-- A refused chain that passes every check before it traps at its first word. -/
theorem RefusesChains.illop {bad : Ctx → Prop} {o : Op} (hr : RefusesChains bad o) {c : Chain} {s : State} {t : Thread}
    (h : s.here = some t) (hx : executable s t o c = true) (hbad : bad (ctxOf s t o c)) :
    exec (Instr.ofOp o c) s = .next (takeTrap s s.cur.1 s.cur.2 { cause := cILLOP, xpc := t.pc }) := by
  obtain ⟨body, hexec, htrap⟩ := hr
  rw [hexec, issueChain_executes body h hx, htrap _ _ _ hbad]
  rfl

theorem fsources_refused {x : Ctx} (t : Thread) (s : State) (h : badOperandFormat x) :
    fsources x t s = .error (x.trap cILLOP) := by
  have h' : (!fselFmtOk (fmtA x.pw true x.et) || (x.c.hasReg && !fselFmtOk (fmtB x.pw true x.et))) = true := by
    rwa [badOperandFormat, ← Bool.not_eq_true', Bool.not_and, Bool.not_or, Bool.not_not] at h
  simp only [fsources, h', if_true]

theorem fsource1_refused {x : Ctx} {honours : Bool} {dflt : Nat} (t : Thread) (s : State)
    (h : fselFmtOk (fmtA x.pw honours dflt) = false) : fsource1 x t s dflt honours = .error (x.trap cILLOP) := by
  simp only [fsource1, h, Bool.not_false, if_true]

theorem fop2_refused (f : RMode → FVal → FVal → FVal × Flags) {x : Ctx} (t : Thread) (s : State)
    (h : badOperandFormat x) : fop2 f x t s = x.trap cILLOP := by simp only [fop2, fsources_refused t s h]

theorem fdivBody_refused {x : Ctx} (t : Thread) (s : State) (h : badOperandFormat x) :
    fdivBody x t s = x.trap cILLOP := by simp only [fdivBody, fsources_refused t s h]

theorem badPairFormat_iff {x : Ctx} : badPairFormat x ↔
    (!fselFmtOk (fmtA x.pw true x.et) || !fselFmtOk (fmtB x.pw true x.et)) = true := by
  simp [badPairFormat]

theorem fmaBody_refused (subtract : Bool) {x : Ctx} (t : Thread) (s : State) (h : badPairFormat x) :
    fmaBody subtract x t s = x.trap cILLOP := by simp only [fmaBody, badPairFormat_iff.mp h, if_true]

theorem fcmpBody_refused (quiet : Bool) (f : FVal → FVal → Bool) {x : Ctx} (t : Thread) (s : State)
    (h : badPairFormat x) : fcmpBody quiet f x t s = x.trap cILLOP := by
  simp only [fcmpBody, badPairFormat_iff.mp h, if_true]

theorem fsqrtBody_refused {x : Ctx} (t : Thread) (s : State) (h : badSourceFormat true id x) :
    fsqrtBody x t s = x.trap cILLOP := by simp only [fsqrtBody, fsource1_refused (dflt := x.et) t s h]

theorem fsignBody_refused (invert : Bool) {x : Ctx} (t : Thread) (s : State) (h : badSourceFormat false id x) :
    fsignBody invert x t s = x.trap cILLOP := by simp only [fsignBody, fsource1_refused (dflt := x.et) t s h]

theorem fclassBody_refused {x : Ctx} (t : Thread) (s : State) (h : badSourceFormat true id x) :
    fclassBody x t s = x.trap cILLOP := by simp only [fclassBody, fsource1_refused (dflt := x.et) t s h]

theorem fcvtBody_refused {x : Ctx} (t : Thread) (s : State) (h : badSourceFormat true (fun _ => 0) x) :
    fcvtBody x t s = x.trap cILLOP := by simp only [fcvtBody, fsource1_refused (dflt := 0) t s h]

theorem ftoiBody_refused (code : Nat) {x : Ctx} (t : Thread) (s : State) (h : badSourceFormat true id x) :
    ftoiBody code x t s = x.trap cILLOP := by simp only [ftoiBody, fsource1_refused (dflt := x.et) t s h]

theorem frndBody_refused {x : Ctx} (t : Thread) (s : State) (h : badSourceFormat false id x) :
    frndBody x t s = x.trap cILLOP := by simp only [frndBody, fsource1_refused (dflt := x.et) t s h]

/-- The two-source instructions of R110 and R111. -/
theorem operand_instructions_refuse :
    ∀ o ∈ [Op.fadd, .fsub, .fmul, .fmin, .fmax, .fdiv], RefusesChains badOperandFormat o := by
  simp only [List.forall_mem_cons]
  refine ⟨?fadd, ?fsub, ?fmul, ?fmin, ?fmax, ?fdiv, List.forall_mem_nil _⟩
  case fdiv => exact ⟨_, fun _ _ => rfl, fun _ => fdivBody_refused⟩
  all_goals exact ⟨_, fun _ _ => rfl, fun _ => fop2_refused _⟩

/-- The fused instructions of R110 and the compares of R112. -/
theorem pair_instructions_refuse :
    ∀ o ∈ [Op.fma, .fms, .fcmpeq, .fcmplt, .fcmple, .fcmpun], RefusesChains badPairFormat o := by
  simp only [List.forall_mem_cons]
  refine ⟨?fma, ?fms, ?fcmpeq, ?fcmplt, ?fcmple, ?fcmpun, List.forall_mem_nil _⟩
  case fma | fms => exact ⟨_, fun _ _ => rfl, fun _ => fmaBody_refused _⟩
  all_goals exact ⟨_, fun _ _ => rfl, fun _ => fcmpBody_refused _ _⟩

theorem fsqrt_refuses : RefusesChains (badSourceFormat true id) .fsqrt :=
  ⟨fsqrtBody, fun _ _ => rfl, fun _ => fsqrtBody_refused⟩

/-- The one-source instructions of R110, R113 and R114. -/
theorem fpOne_refuses : ∀ e ∈ fpOne, RefusesChains (badSourceFormat e.2.2.1 e.2.1) e.1 := by
  simp only [fpOne, List.forall_mem_cons]
  refine ⟨?fabs, ?fneg, ?fclass, ?fcvt, ?ftoi, ?fton, ?frnd, List.forall_mem_nil _⟩
  case fabs | fneg => exact ⟨_, fun _ _ => rfl, fun _ => fsignBody_refused _⟩
  case fclass => exact ⟨_, fun _ _ => rfl, fun _ => fclassBody_refused⟩
  case fcvt => exact ⟨_, fun _ _ => rfl, fun _ => fcvtBody_refused⟩
  case ftoi | fton => exact ⟨_, fun _ _ => rfl, fun _ => ftoiBody_refused _⟩
  case frnd => exact ⟨_, fun _ _ => rfl, fun _ => frndBody_refused⟩

/-! ### The obligations -/

/-- Settles O2: the divisions issue with `alu2Long`, and their values are the truncated quotient and the remainder
that it leaves, neither of which wraps outside the one signed overflow. -/
theorem longDivision : Obligations.LongDivision := by
  unfold Obligations.LongDivision
  refine ⟨?pending, ?values, ?byZero, by decide, by decide, by decide, by decide⟩
  case pending =>
    intro e he c s t h hx hp hd
    rw [exec_aluLong e he]
    exact alu2Long_result e.2 h hx hp hd
  case values =>
    intro x y hy hov
    exact ⟨divS_toInt hy hov, remS_toInt_eq_sub hy hov, divN_toNat hy, remN_toNat_eq_sub hy⟩
  case byZero => exact fun x => ⟨rfl, rfl, rfl, rfl⟩

theorem claim_compareResult : Claim.CompareResult := by
  intro e he c s t h hx hp
  rw [exec_compares e he]
  exact cmp2_result e.2 h hx hp

theorem claim_predicateOperations : Claim.PredicateOperations := by
  intro c s t h
  constructor
  · intro e he hx
    rw [exec_predTwo e he]
    exact pred2_predPQ e.2 h hx
  · intro hx
    rw [exec_pnot, ← pwPred_clearPP]
    exact writePred_result _ 0 _ h hx rfl

/-- Settles O3: each issues with `cmp2`, `pred2` or the negation, which write one predicate. -/
theorem comparesAndPredicates : Obligations.ComparesAndPredicates :=
  ⟨claim_compareResult, claim_predicateOperations⟩

theorem claim_floatCompareResult : Claim.FloatCompareResult := by
  intro e he c s t h hx ha hb hfa hfb
  rw [exec_fpCompares e he]
  exact fcmp_result e.2.1 e.2.2 h hx ha hb hfa hfb

theorem claim_formatRefused : Claim.FormatRefused := by
  intro c s t h
  refine ⟨?operands, ?pairs, ?root, ?one⟩
  case operands => exact fun o ho hx hbad => (operand_instructions_refuse o ho).illop h hx hbad
  case pairs => exact fun o ho hx hbad => (pair_instructions_refuse o ho).illop h hx hbad
  case root => exact fun hx hbad => fsqrt_refuses.illop h hx hbad
  case one => exact fun e he hx hbad => (fpOne_refuses e he).illop h hx hbad

/-- Settles O8: the compares write the relation of the two values read, and every body looks at the formats of its
sources before it reads them. -/
theorem floatCompares : Obligations.FloatCompares :=
  ⟨claim_floatCompareResult, claim_formatRefused⟩

end Sys2Proof.Machine

end

section
/-! PROOFS. Trap entry and double faults (spec/07 R215, R216, R218; spec/15 R330). -/

namespace Sys2Proof.Machine

/-! ### What the writing of results leaves (R34) -/

theorem Thread.write_keeps (t : Thread) (w : RegWrite) :
    t.write w = { t with
      g := (t.write w).g, pw := (t.write w).pw, lease := (t.write w).lease, parity := (t.write w).parity } := by
  cases w <;> rfl

theorem Thread.writes_keeps (t : Thread) (ws : List RegWrite) :
    t.writes ws = { t with
      g := (t.writes ws).g, pw := (t.writes ws).pw, lease := (t.writes ws).lease, parity := (t.writes ws).parity } := by
  induction ws generalizing t with
  | nil => rfl
  | cons w ws ih =>
    have hstep : t.writes (w :: ws) = (t.write w).writes ws := rfl
    rw [hstep, ih (t.write w), Thread.write_keeps t w]

@[simp] theorem Thread.flush_gates (t : Thread) : t.flush.gates = t.gates := by
  rw [Thread.flush, Thread.writes_keeps]

@[simp] theorem Thread.flush_dom (t : Thread) : t.flush.dom = t.dom := by
  rw [Thread.flush, Thread.writes_keeps]

/-! ### What a trap does to its thread (R215, R218, R330) -/

section
variable {s : State} {c slot : Nat} {t : Thread} (x : TrapRec)

theorem takeTrap_doubleFault (h : s.thread? c slot = some t) (hh : t.inHandler = true) :
    takeTrap s c slot x = stopThread s c slot t x.cause x.detail := by
  simp [takeTrap, h, hh]

theorem takeTrap_invalidDomain (h : s.thread? c slot = some t) (hh : t.inHandler = false)
    (he : (s.domEntry c t).ok = false) : takeTrap s c slot x = stopThread s c slot t cPERM 5 := by
  simp [takeTrap, h, hh, he]

theorem takeTrap_waits (h : s.thread? c slot = some t) (hh : t.inHandler = false)
    (he : (s.domEntry c t).ok = true) (hk : t.allKnown = false) :
    takeTrap s c slot x = s.setThread c slot { t with status := .trapWait x } := by
  simp [takeTrap, h, hh, he, hk]

theorem takeTrap_enters (h : s.thread? c slot = some t) (hh : t.inHandler = false)
    (he : (s.domEntry c t).ok = true) (hk : t.allKnown = true) :
    takeTrap s c slot x = s.setThread c slot (enterHandler (s.domEntry c t) t.flush x) := by
  simp [takeTrap, h, hh, he, hk]

end

theorem State.modHere_eq {s : State} {t : Thread} (f : Thread → Thread) (h : s.here = some t) :
    s.modHere f = s.setThread s.cur.1 s.cur.2 (f t) :=
  State.modThread_eq f h

/-- A stop keeps the context of the thread at hand and leaves a record for the steward (R218). -/
theorem stopThread_here {s : State} {t : Thread} (cause detail : Nat) (h : s.here = some t) :
    stopThread s s.cur.1 s.cur.2 t cause detail =
      { s.modHere fun u => { u with status := .stopped } with
        dfault := s.dfault ++ [⟨stewardOf s.cur.1, s.ep s.cur.1, s.cur.2, t.pc, cause, detail⟩] } := by
  rw [State.modHere_eq _ h, stopThread]

/-- The fields of xcause, in the order of their codes (R216). -/
theorem xcauseOf_eq (x : TrapRec) : xcauseOf x =
    word (x.cause + x.detail * 2 ^ 16 + (if x.remote then 2 ^ 15 else 0) + (if x.more then 2 ^ 14 else 0)) := by
  unfold xcauseOf flagBit
  congr 1
  omega

/-- Settles O21: `takeTrap` has four outcomes, one for each of the cases; the handler is entered by the thread with its
results written, and writing them leaves its gate levels and its domain. -/
theorem trapEntry : Obligations.TrapEntry := by
  intro s t x h
  refine ⟨?enters, ?waits, ?doubleFault, ?invalidDomain⟩
  case enters =>
    intro hh he hk
    refine ⟨enterHandler (s.domEntry s.cur.1 t) t.flush x, ?_, rfl, rfl, rfl, rfl, xcauseOf_eq x, rfl, rfl,
      congrArg List.length t.flush_gates, rfl, rfl, rfl, fun _ _ _ => rfl, rfl, t.flush_gates, t.flush_dom⟩
    rw [takeTrap_enters x h hh he hk, State.modHere_eq _ h]
  case waits =>
    intro hh he hk
    rw [takeTrap_waits x h hh he hk, State.modHere_eq _ h]
  case doubleFault =>
    intro hh
    rw [takeTrap_doubleFault x h hh, stopThread_here _ _ h]
  case invalidDomain =>
    intro hh he
    rw [takeTrap_invalidDomain x h hh he, stopThread_here _ _ h]

end Sys2Proof.Machine

end

section
/-! PROOFS. Decoding undoes encoding, and refuses reserved words (spec/01 R12-R23; spec/02 R48). -/

namespace Sys2Proof

/-! ### The opcode map -/

/-- The 7-bit opcodes at which a row stands: a K opcode leaves the two low bits to the immediate (R13, R14). -/
def OpRow.opcodes (r : OpRow) : List Nat :=
  match r.code with
  | .d n => [n]
  | .k k => [96 + 4 * k, 97 + 4 * k, 98 + 4 * k, 99 + 4 * k]

/-- The opcodes of a row belong to words that end a chain, and the map gives the row back (R12, R48). -/
theorem opAt_opcodes (o : Op) :
    ∀ n ∈ (opRow o).opcodes, n < 128 ∧ n / 16 ≠ 5 ∧ opAt (opRow o).page n = some o := by
  cases o <;> decide

theorem opRow_page_lt (o : Op) : (opRow o).page < 7 := by cases o <;> decide

theorem Instr.op?_ofOp (o : Op) (c : Chain) : (Instr.ofOp o c).op? = some (o, c) := by cases o <;> rfl

theorem Instr.ofOp_op? {i : Instr} {o : Op} {c : Chain} (h : i.op? = some (o, c)) : Instr.ofOp o c = i := by
  cases i <;> cases h <;> rfl

/-! ### Fields of words -/

theorem bits_eq {n : Nat} (x : BitVec n) (hi lo : Nat) : bits x hi lo = x.toNat / 2 ^ lo % 2 ^ (hi + 1 - lo) := by
  rw [bits, Nat.shiftRight_eq_div_pow]

theorem bit_eq {n : Nat} (x : BitVec n) (i : Nat) : bit x i = decide (x.toNat / 2 ^ i % 2 = 1) := by
  rw [bit, BitVec.getLsbD, Nat.testBit_eq_decide_div_mod_eq]

theorem bits_lt {n : Nat} (x : BitVec n) (hi lo : Nat) : bits x hi lo < 2 ^ (hi + 1 - lo) :=
  Nat.mod_lt _ (Nat.two_pow_pos _)

/-! ### Prefix words (R16) -/

theorem prefixWord_toNat {kind : Nat} (p : BitVec 11) (hk : kind < 4) :
    (prefixWord kind p).toNat = p.toNat / 1024 * 32768 + 0x5000 + kind * 1024 + p.toNat % 1024 := by
  have hp := p.isLt
  simp only [prefixWord, bits_eq, BitVec.toNat_ofNat]
  omega

theorem isPrefixWord_prefixWord {kind : Nat} (p : BitVec 11) (hk : kind < 4) :
    isPrefixWord (prefixWord kind p) = true := by
  have hp := p.isLt
  simp only [isPrefixWord, bits_eq, prefixWord_toNat p hk, beq_iff_eq]
  omega

theorem kind_prefixWord {kind : Nat} (p : BitVec 11) (hk : kind < 4) : bits (prefixWord kind p) 11 10 = kind := by
  have hp := p.isLt
  simp only [bits_eq, prefixWord_toNat p hk]
  omega

theorem payload_prefixWord {kind : Nat} (p : BitVec 11) (hk : kind < 4) : payload (prefixWord kind p) = p := by
  have hp := p.isLt
  apply BitVec.eq_of_toNat_eq
  simp only [payload, bits_eq, prefixWord_toNat p hk, BitVec.toNat_ofNat]
  omega

theorem flagBit_eq (b : Bool) (i : Nat) : flagBit b i = b.toNat * 2 ^ i := by cases b <;> simp [flagBit]

theorem xregOf_payload (x : XReg) : xregOf x.payload = x := by
  obtain ⟨b, d5, a5, b5, guard⟩ := x
  have hb := b.isLt
  have hg := guard.isLt
  have h1 := d5.toNat_lt
  have h2 := a5.toNat_lt
  have h3 := b5.toNat_lt
  simp only [xregOf, XReg.payload, XReg.mk.injEq, bits_eq, bit_eq, flagBit_eq, BitVec.toNat_ofNat]
  refine ⟨BitVec.eq_of_toNat_eq ?_, ?_, ?_, ?_, BitVec.eq_of_toNat_eq ?_⟩
  · rw [BitVec.toNat_ofNat]; omega
  · cases d5 <;> simp <;> omega
  · cases a5 <;> simp <;> omega
  · cases b5 <;> simp <;> omega
  · rw [BitVec.toNat_ofNat]; omega

theorem scopeOf_code (x : Scope) : scopeOf x.code = x := by cases x <;> rfl

theorem Scope.code_lt (x : Scope) : x.code < 4 := by cases x <;> decide

theorem xctl_payload_toNat (x : XCtl) : x.payload.toNat =
    x.scope.code * 512 + x.etype.toNat * 64 + x.urg.toNat * 32 + x.nt.toNat * 16 := by
  have h1 := x.scope.code_lt
  have h2 := x.etype.isLt
  have h3 := x.urg.toNat_lt
  have h4 := x.nt.toNat_lt
  simp only [XCtl.payload, flagBit_eq, BitVec.toNat_ofNat]
  omega

theorem xctlOf_payload (x : XCtl) : xctlOf x.payload = x := by
  obtain ⟨scope, etype, urg, nt⟩ := x
  have h1 := scope.code_lt
  have h2 := etype.isLt
  have h3 := urg.toNat_lt
  have h4 := nt.toNat_lt
  simp only [xctlOf, XCtl.mk.injEq, bits_eq, bit_eq, xctl_payload_toNat]
  refine ⟨?_, BitVec.eq_of_toNat_eq ?_, ?_, ?_⟩
  · conv_rhs => rw [← scopeOf_code scope]
    congr 1
    omega
  · rw [BitVec.toNat_ofNat]; omega
  · cases urg <;> simp <;> omega
  · cases nt <;> simp <;> omega

theorem xctl_reserved_zero (x : XCtl) : bits x.payload 3 0 = 0 := by
  rw [bits_eq, xctl_payload_toNat]
  omega

/-! ### Base words (R13, R14) -/

theorem baseWord_d {o : Op} {c : Chain} {n : Nat} (h : (opRow o).code = .d n) (hn : n < 128) :
    (baseWord o c).toNat = c.marker.toNat * 32768 + n * 256 + c.d.toNat * 16 + c.a.toNat := by
  have h1 := c.marker.toNat_lt
  have h2 := c.d.isLt
  have h3 := c.a.isLt
  have hw : baseWord o c = BitVec.ofNat 16 (c.marker.toNat * 2 ^ 15 + (n * 256 + c.d.toNat * 16 + c.a.toNat)) := by
    rw [baseWord, h, flagBit_eq]
  rw [hw, BitVec.toNat_ofNat]
  omega

theorem baseWord_k {o : Op} {c : Chain} {k : Nat} (h : (opRow o).code = .k k) (hk : k < 8) :
    (baseWord o c).toNat = c.marker.toNat * 32768 + 0x6000 + k * 1024 + c.imm6.toNat * 16 + c.d.toNat := by
  have h1 := c.marker.toNat_lt
  have h2 := c.d.isLt
  have h3 := c.imm6.isLt
  have hw : baseWord o c =
      BitVec.ofNat 16 (c.marker.toNat * 2 ^ 15 + (0x6000 + k * 1024 + c.imm6.toNat * 16 + c.d.toNat)) := by
    rw [baseWord, h, flagBit_eq]
  rw [hw, BitVec.toNat_ofNat]
  omega

theorem baseWord_opcode (o : Op) (c : Chain) : bits (baseWord o c) 14 8 ∈ (opRow o).opcodes := by
  have h1 := c.marker.toNat_lt
  have h2 := c.d.isLt
  have hop := fun n hn => (opAt_opcodes o n hn).1
  unfold OpRow.opcodes at hop ⊢
  cases hcode : (opRow o).code with
  | d n =>
    simp only [hcode, List.mem_singleton, forall_eq] at hop ⊢
    have h3 := c.a.isLt
    rw [bits_eq, baseWord_d hcode hop]
    omega
  | k k =>
    simp only [hcode, List.mem_cons, forall_eq_or_imp, List.not_mem_nil, or_false] at hop ⊢
    have h3 := c.imm6.isLt
    rw [bits_eq, baseWord_k hcode (by omega)]
    omega

theorem baseWord_marker (o : Op) (c : Chain) : bit (baseWord o c) 15 = c.marker := by
  have h2 := c.d.isLt
  have hop := fun n hn => (opAt_opcodes o n hn).1
  unfold OpRow.opcodes at hop
  rw [bit_eq]
  cases hcode : (opRow o).code with
  | d n =>
    simp only [hcode, List.mem_singleton, forall_eq] at hop
    have h3 := c.a.isLt
    rw [baseWord_d hcode hop]
    cases c.marker <;> simp <;> omega
  | k k =>
    simp only [hcode, List.mem_cons, forall_eq_or_imp] at hop
    have h3 := c.imm6.isLt
    rw [baseWord_k hcode (by omega)]
    cases c.marker <;> simp <;> omega

theorem isPrefixWord_baseWord (o : Op) (c : Chain) : isPrefixWord (baseWord o c) = false := by
  obtain ⟨-, hne, -⟩ := opAt_opcodes o _ (baseWord_opcode o c)
  rw [bits_eq] at hne
  simp only [isPrefixWord, bits_eq, beq_eq_false_iff_ne]
  omega

/-- The register fields of a form D base word. -/
theorem baseWord_fields_d {o : Op} {c : Chain} (h : o.isK = false) :
    BitVec.ofNat 4 (bits (baseWord o c) 7 4) = c.d ∧ BitVec.ofNat 4 (bits (baseWord o c) 3 0) = c.a := by
  have h2 := c.d.isLt
  have h3 := c.a.isLt
  have hop := fun n hn => (opAt_opcodes o n hn).1
  unfold OpRow.opcodes at hop
  cases hcode : (opRow o).code with
  | d n =>
    simp only [hcode, List.mem_singleton, forall_eq] at hop
    rw [bits_eq, bits_eq, baseWord_d hcode hop]
    constructor <;> apply BitVec.eq_of_toNat_eq <;> rw [BitVec.toNat_ofNat] <;> omega
  | k k => rw [Op.isK, hcode] at h; cases h

/-- The register field and the immediate of a form K base word. -/
theorem baseWord_fields_k {o : Op} {c : Chain} (h : o.isK = true) :
    BitVec.ofNat 4 (bits (baseWord o c) 3 0) = c.d ∧ BitVec.ofNat 6 (bits (baseWord o c) 9 4) = c.imm6 := by
  have h2 := c.d.isLt
  have h3 := c.imm6.isLt
  have hop := fun n hn => (opAt_opcodes o n hn).1
  unfold OpRow.opcodes at hop
  cases hcode : (opRow o).code with
  | d n => rw [Op.isK, hcode] at h; cases h
  | k k =>
    simp only [hcode, List.mem_cons, forall_eq_or_imp] at hop
    rw [bits_eq, bits_eq, baseWord_k hcode (by omega)]
    constructor <;> apply BitVec.eq_of_toNat_eq <;> rw [BitVec.toNat_ofNat] <;> omega

/-- The static checks that a chain passes. -/
theorem chainErr_none {o : Op} {c : Chain} (h : chainErr o c = none) :
    acceptErr o c = none ∧ fieldErr o c = none ∧ regErr o c = none := by
  unfold chainErr at h
  cases h1 : acceptErr o c <;> cases h2 : fieldErr o c <;> cases h3 : regErr o c <;> simp [h1, h2, h3] at h ⊢

/-- The field that the form of the base word leaves out is zero. -/
theorem regErr_none_unused {o : Op} {c : Chain} (h : regErr o c = none) :
    (o.isK = true → c.a = 0) ∧ (o.isK = false → c.imm6 = 0) := by
  by_contra hne
  have hused : (o.isK && c.a != 0 || !o.isK && c.imm6 != 0) = true := by
    cases hk : o.isK <;> simp_all
  simp only [regErr, hused, if_true] at h
  split at h <;> simp at h

theorem finishChain_baseWord {o : Op} {c : Chain} {s : Prefixes} (h : chainErr o c = none) (hi : s.ximm = c.ximm)
    (hr : s.xreg = c.xreg) (hp : s.xpage = if hasXpage o c then some ((opRow o).page, c.neg) else none)
    (hc : s.xctl = c.xctl) : finishChain s (baseWord o c) = .ok (o, c) := by
  have hpage : (s.xpage.map (·.1)).getD 0 = (opRow o).page := by
    rw [hp]
    by_cases hx : hasXpage o c = true
    · simp [hx]
    · simp_all [hasXpage]
  have hneg : (s.xpage.map (·.2)).getD false = c.neg := by
    rw [hp]
    by_cases hx : hasXpage o c = true
    · simp [hx]
    · simp_all [hasXpage]
  obtain ⟨-, -, hat⟩ := opAt_opcodes o _ (baseWord_opcode o c)
  obtain ⟨ha, himm⟩ := regErr_none_unused (chainErr_none h).2.2
  have hchain : (if o.isK then (⟨bit (baseWord o c) 15, BitVec.ofNat 4 (bits (baseWord o c) 3 0), 0,
        BitVec.ofNat 6 (bits (baseWord o c) 9 4), s.ximm, s.xreg, c.neg, s.xctl⟩ : Chain)
      else ⟨bit (baseWord o c) 15, BitVec.ofNat 4 (bits (baseWord o c) 7 4), BitVec.ofNat 4 (bits (baseWord o c) 3 0), 0,
        s.ximm, s.xreg, c.neg, s.xctl⟩) = c := by
    rw [baseWord_marker, hi, hr, hc]
    cases hk : o.isK with
    | true => rw [if_pos rfl, (baseWord_fields_k hk).1, (baseWord_fields_k hk).2, ← ha hk]
    | false => rw [if_neg (by simp), (baseWord_fields_d hk).1, (baseWord_fields_d hk).2, ← himm hk]
  simp only [finishChain, hpage, hneg, hat, hchain, h]

/-! ### Reading prefixes (R17, R19-R23) -/

theorem decodeFrom_prefix {s s' : Prefixes} {w : Half} (rest : List Half) (hw : isPrefixWord w = true)
    (h : addPrefix s w = .ok s') : decodeFrom s (w :: rest) = decodeFrom s' rest := by
  simp only [decodeFrom, hw, if_true, h]

theorem addPrefix_ximm {s : Prefixes} (p : BitVec 11) (hn : s.count < 4) :
    addPrefix s (prefixWord 0 p) = .ok { s with count := s.count + 1, ximm := s.ximm ++ [p] } := by
  simp [addPrefix, hn, kind_prefixWord, payload_prefixWord]

theorem addPrefix_xreg {s : Prefixes} (x : XReg) (hn : s.count < 4) (h : s.xreg = none) :
    addPrefix s (prefixWord 1 x.payload) = .ok { s with count := s.count + 1, xreg := some x } := by
  simp [addPrefix, hn, kind_prefixWord, payload_prefixWord, h, xregOf_payload]

theorem addPrefix_xctl {s : Prefixes} (x : XCtl) (hn : s.count < 4) (h : s.xctl = none) :
    addPrefix s (prefixWord 3 x.payload) = .ok { s with count := s.count + 1, xctl := some x } := by
  simp [addPrefix, hn, kind_prefixWord, payload_prefixWord, h, xctlOf_payload, xctl_reserved_zero]

/-- XPAGE carries its page and the negation, of which one is not zero (R20). -/
theorem addPrefix_xpage {s : Prefixes} {page : Nat} {neg : Bool} (hn : s.count < 4) (h : s.xpage = none) (hp : page < 7)
    (hz : page ≠ 0 ∨ neg = true) : addPrefix s (prefixWord 2 (BitVec.ofNat 11 (flagBit neg 3 + page))) =
      .ok { s with count := s.count + 1, xpage := some (page, neg) } := by
  have hv : (BitVec.ofNat 11 (flagBit neg 3 + page)).toNat = neg.toNat * 8 + page := by
    have := neg.toNat_lt
    rw [flagBit_eq, BitVec.toNat_ofNat]
    omega
  have h10 : bits (BitVec.ofNat 11 (flagBit neg 3 + page)) 10 4 = 0 := by
    have := neg.toNat_lt
    rw [bits_eq, hv]
    omega
  have h2 : bits (BitVec.ofNat 11 (flagBit neg 3 + page)) 2 0 = page := by rw [bits_eq, hv]; omega
  have h3 : bit (BitVec.ofNat 11 (flagBit neg 3 + page)) 3 = neg := by
    rw [bit_eq, hv]
    cases neg <;> simp <;> omega
  have hok : ¬ ((page == 0 && !neg) = true) := by simpa using fun e => hz.resolve_left (not_not.mpr e)
  have h7 : page ≠ 7 := by omega
  simp only [addPrefix, if_neg (Nat.not_le.mpr hn), kind_prefixWord _ (show 2 < 4 by decide),
    payload_prefixWord _ (show 2 < 4 by decide), h, h10, h2, h3]
  simp [h7, hok]

/-- The XPAGE word of a chain is read, where it has one. -/
theorem decodeFrom_xpage {s : Prefixes} (o : Op) (c : Chain) (rest : List Half)
    (hn : s.count + (hasXpage o c).toNat ≤ 4) (h : s.xpage = none) :
    decodeFrom s ((if hasXpage o c then [prefixWord 2 (BitVec.ofNat 11 (flagBit c.neg 3 + (opRow o).page))] else []) ++
        rest) =
      decodeFrom { s with
        count := s.count + (hasXpage o c).toNat,
        xpage := if hasXpage o c then some ((opRow o).page, c.neg) else none } rest := by
  cases hx : hasXpage o c with
  | false => simp [← h]
  | true =>
    rw [hx] at hn
    have hz : (opRow o).page ≠ 0 ∨ c.neg = true := by simpa [hasXpage] using hx
    exact decodeFrom_prefix rest (isPrefixWord_prefixWord _ (by decide))
      (addPrefix_xpage (Nat.lt_of_succ_le hn) h (opRow_page_lt o) hz)

/-- The XCTL word of a chain is read, where it has one. -/
theorem decodeFrom_xctl {s : Prefixes} (x : Option XCtl) (rest : List Half) (hn : s.count + x.isSome.toNat ≤ 4)
    (h : s.xctl = none) : decodeFrom s ((x.map fun y => prefixWord 3 y.payload).toList ++ rest) =
      decodeFrom { s with count := s.count + x.isSome.toNat, xctl := x } rest := by
  cases x with
  | none => cases s; cases h; rfl
  | some y =>
    exact decodeFrom_prefix rest (isPrefixWord_prefixWord _ (by decide)) (addPrefix_xctl y (Nat.lt_of_succ_le hn) h)

/-- The XREG word of a chain is read, where it has one. -/
theorem decodeFrom_xreg {s : Prefixes} (x : Option XReg) (rest : List Half) (hn : s.count + x.isSome.toNat ≤ 4)
    (h : s.xreg = none) : decodeFrom s ((x.map fun y => prefixWord 1 y.payload).toList ++ rest) =
      decodeFrom { s with count := s.count + x.isSome.toNat, xreg := x } rest := by
  cases x with
  | none => cases s; cases h; rfl
  | some y =>
    exact decodeFrom_prefix rest (isPrefixWord_prefixWord _ (by decide)) (addPrefix_xreg y (Nat.lt_of_succ_le hn) h)

/-- The XIMM words of a chain are read in their order (R17). -/
theorem decodeFrom_ximm {s : Prefixes} (l : List (BitVec 11)) (rest : List Half) (hn : s.count + l.length ≤ 4) :
    decodeFrom s (l.map (prefixWord 0) ++ rest) =
      decodeFrom { s with count := s.count + l.length, ximm := s.ximm ++ l } rest := by
  induction l generalizing s with
  | nil => simp
  | cons p l ih =>
    rw [List.length_cons] at hn
    rw [List.map_cons, List.cons_append, decodeFrom_prefix _ (isPrefixWord_prefixWord p (by decide))
      (addPrefix_ximm p (by omega)), ih (by dsimp only; omega)]
    simp [Nat.add_assoc, Nat.add_comm 1]

/-- The words of a chain that no static check refuses decode to it, whatever follows. -/
theorem decodeChain_encodeWords {o : Op} {c : Chain} (rest : List Half) (h : chainErr o c = none) :
    decodeChain (encodeWords o c ++ rest) = .ok (o, c) := by
  have hn : prefixCount o c ≤ 4 := prefixCount_le (by simp [chainWf, h])
  unfold prefixCount at hn
  rw [decodeChain, encodeWords]
  simp only [List.append_assoc, List.singleton_append]
  rw [decodeFrom_xpage o c _ (by dsimp only; omega) rfl, decodeFrom_xctl _ _ (by dsimp only; omega) rfl,
    decodeFrom_xreg _ _ (by dsimp only; omega) rfl, decodeFrom_ximm _ _ (by dsimp only; omega)]
  simp only [decodeFrom, isPrefixWord_baseWord, Bool.false_eq_true, if_false]
  exact finishChain_baseWord h rfl rfl rfl rfl

/-! ### Reserved words -/

/-- What makes a chain passes every static check (R28, R30). -/
theorem finishChain_ok {s : Prefixes} {w : Half} {o : Op} {c : Chain} (h : finishChain s w = .ok (o, c)) :
    chainErr o c = none := by
  unfold finishChain at h
  dsimp only at h
  split at h
  · cases h
  · split at h <;> cases h
    assumption

theorem decodeFrom_ok {s : Prefixes} {ws : List Half} {o : Op} {c : Chain} (h : decodeFrom s ws = .ok (o, c)) :
    chainErr o c = none := by
  induction ws generalizing s with
  | nil => cases h
  | cons w rest ih =>
    unfold decodeFrom at h
    split at h
    · split at h
      · cases h
      · exact ih h
    · exact finishChain_ok h

/-- Prefix words are read one after the other, before what follows them. -/
theorem decodeFrom_prefixes {ps : List Half} (s : Prefixes) (rest : List Half) (h : ∀ w ∈ ps, isPrefixWord w = true) :
    decodeFrom s (ps ++ rest) = ps.foldlM addPrefix s >>= fun s' => decodeFrom s' rest := by
  induction ps generalizing s with
  | nil => rfl
  | cons w ps ih =>
    obtain ⟨hw, hps⟩ := List.forall_mem_cons.mp h
    rw [List.cons_append, decodeFrom, if_pos hw, List.foldlM_cons]
    cases addPrefix s w with
    | error e => rfl
    | ok s' => exact ih s' hps

/-- Whether one of a kind that a chain holds once has been read: XREG, XPAGE or XCTL (R23). -/
def Prefixes.holds (s : Prefixes) : Nat → Bool
  | 0 => false
  | 1 => s.xreg.isSome
  | 2 => s.xpage.isSome
  | _ => s.xctl.isSome

/-- One more is counted, and what the chain holds it keeps; one of a fourth kind is noted. -/
theorem addPrefix_ok {s s' : Prefixes} {w : Half} (h : addPrefix s w = .ok s') :
    s'.count = s.count + 1 ∧ s.count < 4 ∧ (∀ k, s.holds k = true → s'.holds k = true) ∧
      (bits w 11 10 ≠ 0 → s'.holds (bits w 11 10) = true) := by
  have hk : bits w 11 10 < 4 := bits_lt w 11 10
  unfold addPrefix at h
  split at h
  · cases h
  · rename_i hn
    have hn := Nat.not_le.mp hn
    dsimp only at h
    split at h <;> rename_i hkind
    · cases h
      exact ⟨rfl, hn, fun _ hk => hk, fun h0 => absurd hkind h0⟩
    · split at h <;> cases h
      refine ⟨rfl, hn, fun k hk => ?_, fun _ => by rw [hkind]; rfl⟩
      unfold Prefixes.holds at hk ⊢
      split <;> simp_all
    · split at h
      · cases h
      · split at h <;> cases h
        refine ⟨rfl, hn, fun k hk => ?_, fun _ => by rw [hkind]; rfl⟩
        unfold Prefixes.holds at hk ⊢
        split <;> simp_all
    · split at h
      · cases h
      · split at h <;> cases h
        refine ⟨rfl, hn, fun k hk => ?_, fun _ => ?_⟩ <;> unfold Prefixes.holds at * <;> split <;> simp_all

theorem addPrefixes_ok {ps : List Half} {s s' : Prefixes} (h : ps.foldlM addPrefix s = .ok s') :
    s'.count = s.count + ps.length ∧ (s'.count ≤ 4 ∨ ps = []) ∧ (∀ k, s.holds k = true → s'.holds k = true) ∧
      ∀ v ∈ ps, bits v 11 10 ≠ 0 → s'.holds (bits v 11 10) = true := by
  induction ps generalizing s with
  | nil =>
    cases h
    exact ⟨rfl, .inr rfl, fun _ hk => hk, fun _ hv => absurd hv (List.not_mem_nil)⟩
  | cons w ps ih =>
    rw [List.foldlM_cons] at h
    cases hw : addPrefix s w with
    | error e => rw [hw] at h; cases h
    | ok s1 =>
      rw [hw] at h
      obtain ⟨h1, h2, h3, h4⟩ := addPrefix_ok hw
      obtain ⟨i1, i2, i3, i4⟩ := ih h
      refine ⟨by rw [i1, h1, List.length_cons]; omega, .inl ?_, fun k hk => i3 k (h3 k hk), ?_⟩
      · rcases i2 with i2 | rfl
        · exact i2
        · rw [i1, h1, List.length_nil]; omega
      · exact List.forall_mem_cons.mpr ⟨fun h0 => i3 _ (h4 h0), i4⟩

/-- A kind that is held already is refused (R23). -/
theorem addPrefix_repeated {s : Prefixes} {w : Half} (h0 : bits w 11 10 ≠ 0) (h : s.holds (bits w 11 10) = true) :
    ∃ e, addPrefix s w = .error e := by
  unfold addPrefix Prefixes.holds at *
  split
  · exact ⟨_, rfl⟩
  · dsimp only
    split <;> simp_all

/-- A reserved payload of XPAGE is refused (R20). -/
theorem addPrefix_reserved_xpage {s : Prefixes} {w : Half} (hk : bits w 11 10 = 2)
    (h : bits (payload w) 10 4 ≠ 0 ∨ bits (payload w) 2 0 = 7 ∨
      (bits (payload w) 2 0 = 0 ∧ bit (payload w) 3 = false)) : ∃ e, addPrefix s w = .error e := by
  have hb : (bits (payload w) 10 4 != 0 || bits (payload w) 2 0 == 7 ||
      (bits (payload w) 2 0 == 0 && !bit (payload w) 3)) = true := by simpa [or_assoc] using h
  simp only [addPrefix, hk, hb, if_true]
  split
  · exact ⟨_, rfl⟩
  · split <;> exact ⟨_, rfl⟩

/-- A reserved payload of XCTL is refused (R21). -/
theorem addPrefix_reserved_xctl {s : Prefixes} {w : Half} (hk : bits w 11 10 = 3)
    (h : bits (payload w) 3 0 ≠ 0) : ∃ e, addPrefix s w = .error e := by
  simp only [addPrefix, hk, bne_iff_ne.mpr h, if_true]
  split
  · exact ⟨_, rfl⟩
  · split <;> exact ⟨_, rfl⟩

theorem decodeWords_error {ws : List Half} {e : DecodeErr} (h : decodeFrom ⟨0, [], none, none, none⟩ ws = .error e) :
    decodeWords ws = .error e := by
  rw [decodeWords, decodeChain, h]

/-- Where the prefixes before a word are read, or not, the chain is refused if that word is. -/
theorem decodeWords_refused {ps : List Half} {w : Half} (rest : List Half) (hps : ∀ v ∈ ps, isPrefixWord v = true)
    (hw : isPrefixWord w = true)
    (h : ∀ s, ps.foldlM addPrefix ⟨0, [], none, none, none⟩ = .ok s → ∃ e, addPrefix s w = .error e) :
    ∃ e, decodeWords (ps ++ w :: rest) = .error e := by
  have hd := decodeFrom_prefixes ⟨0, [], none, none, none⟩ (w :: rest) hps
  cases hf : ps.foldlM addPrefix ⟨0, [], none, none, none⟩ with
  | error e => exact ⟨e, decodeWords_error (by rw [hd, hf]; rfl)⟩
  | ok s =>
    obtain ⟨e, he⟩ := h s hf
    refine ⟨e, decodeWords_error ?_⟩
    rw [hd, hf]
    show decodeFrom s (w :: rest) = _
    simp only [decodeFrom, hw, if_true, he]

/-! ### The obligations -/

/-- Settles O57: the prefixes are read back one kind after the other, then the base word, whose opcode the map gives
back to its row. -/
theorem encodeDecode : Obligations.EncodeDecode := by
  intro i rest hc hw
  obtain ⟨⟨o, c⟩, ho⟩ := Option.isSome_iff_exists.mp hc
  have herr : chainErr o c = none := by simpa [Instr.wf, ho, chainWf] using hw
  have hd : decodeChain (encode i ++ rest) = .ok (o, c) := by
    rw [encode, ho]
    exact decodeChain_encodeWords rest herr
  rw [decodeWords, hd]
  exact congrArg _ (Instr.ofOp_op? ho)

/-- Settles O58: what the prefixes read so far hold and count refuses every repeated, surplus or reserved one, and the
checks of the base word see every chain. -/
theorem reservedRefused : Obligations.ReservedRefused := by
  refine ⟨?wellFormed, ?surplus, ?pastEnd, ?repeated, ?reservedXpage, ?reservedXctl, ?unassigned⟩
  case wellFormed =>
    intro ws i h
    unfold decodeWords at h
    split at h
    · cases h
    · rename_i o c hd
      cases h
      simp [Instr.wf, Instr.op?_ofOp, chainWf, decodeFrom_ok hd]
  case surplus =>
    intro ps rest hps hlen
    have hd := decodeFrom_prefixes ⟨0, [], none, none, none⟩ rest hps
    cases hf : ps.foldlM addPrefix ⟨0, [], none, none, none⟩ with
    | error e => exact ⟨e, decodeWords_error (by rw [hd, hf]; rfl)⟩
    | ok s =>
      obtain ⟨hcount, hle, -, -⟩ := addPrefixes_ok hf
      rcases hle with hle | rfl
      · dsimp only at hcount; omega
      · simp at hlen
  case pastEnd =>
    intro ps hps
    have hd := decodeFrom_prefixes ⟨0, [], none, none, none⟩ [] hps
    rw [List.append_nil] at hd
    cases hf : ps.foldlM addPrefix ⟨0, [], none, none, none⟩ with
    | error e => exact ⟨e, decodeWords_error (by rw [hd, hf]; rfl)⟩
    | ok s => exact ⟨.pastEnd, decodeWords_error (by rw [hd, hf]; rfl)⟩
  case repeated =>
    intro ps w rest hps hw h0 ⟨v, hv, hk⟩
    refine decodeWords_refused rest hps hw fun s hs => addPrefix_repeated h0 ?_
    obtain ⟨-, -, -, hheld⟩ := addPrefixes_ok hs
    rw [← hk] at h0 ⊢
    exact hheld v hv h0
  case reservedXpage =>
    exact fun ps w rest hps hw hk h => decodeWords_refused rest hps hw fun _ _ => addPrefix_reserved_xpage hk h
  case reservedXctl =>
    exact fun ps w rest hps hw hk h => decodeWords_refused rest hps hw fun _ _ => addPrefix_reserved_xctl hk h
  case unassigned =>
    intro w rest hw ho
    apply decodeWords_error
    simp only [decodeFrom, hw, Bool.false_eq_true, if_false, finishChain, Option.map_none, Option.getD_none, ho]

end Sys2Proof

end

section
/-! PROOFS. Scalar integer instructions, moves, the predicate word and branches (spec/04 R93-R102, R106, R109, R115,
R117). -/

namespace Sys2Proof.Machine

/-! ### The bodies with which the listed instructions issue -/

theorem exec_aluTwo : ∀ e ∈ aluTwo, ∀ c s, exec (Instr.ofOp e.1 c) s = issueChain e.1 c (alu2 e.2) s := by
  simp only [aluTwo, List.forall_mem_cons]
  refine ⟨?add, ?sub, ?mul, ?mulh, ?mulhn, ?and, ?or, ?xor, ?andn, ?shl, ?shr, ?sar, ?rol, ?min, ?max, ?minn, ?maxn,
    List.forall_mem_nil _⟩ <;> exact fun _ _ => rfl

theorem exec_aluOne : ∀ e ∈ aluOne, ∀ c s,
    exec (Instr.ofOp e.1 c) s = issueChain e.1 c (fun x => alu1 (e.2 x.et) x) s := by
  simp only [aluOne, List.forall_mem_cons]
  refine ⟨?mov, ?neg, ?not, ?abs, ?clz, ?ctz, ?popc, ?brev, ?bswap, ?sext, List.forall_mem_nil _⟩ <;>
    exact fun _ _ => rfl

/-- A body is looked at in the context of the chain only. -/
theorem issueChain_congr {body body' : Ctx → Thread → State → Out} {o : Op} {c : Chain} {s : State} {t : Thread}
    (h : s.here = some t) (hx : executable s t o c = true)
    (hb : body (ctxOf s t o c) (issuedThread s t) (issued s (ctxOf s t o c)) =
      body' (ctxOf s t o c) (issuedThread s t) (issued s (ctxOf s t o c))) :
    issueChain o c body s = issueChain o c body' s := by
  rw [issueChain_executes _ h hx, issueChain_executes _ h hx, hb]

/-- A chain whose execution traps has no effect but the trap (R38). -/
theorem issueChain_traps {body : Ctx → Thread → State → Out} {o : Op} {c : Chain} {s : State} {t : Thread} {x : TrapRec}
    (h : s.here = some t) (hx : executable s t o c = true)
    (hb : body (ctxOf s t o c) (issuedThread s t) (issued s (ctxOf s t o c)) = .trap x) :
    issueChain o c body s = .next (takeTrap s s.cur.1 s.cur.2 x) := by
  rw [issueChain_executes _ h hx, hb]
  rfl

@[simp] theorem issuedThread_pw (s : State) (t : Thread) : (issuedThread s t).pw = clearPP t.pw := rfl

/-! ### The parts of the obligations -/

theorem claim_aluTwoResult : Claim.AluTwoResult := by
  intro e he c s t h hx hp hd
  rw [exec_aluTwo e he]
  exact alu2_result e.2 h hx hp hd

theorem claim_aluOneResult : Claim.AluOneResult := by
  intro e he c s t h hx ha hd
  rw [exec_aluOne e he,
    issueChain_congr (body := fun x => alu1 (e.2 x.et) x) (body' := alu1 (e.2 (etCode e.1 c))) h hx rfl]
  exact alu1_result _ h hx ha hd

/-- Each move writes its value to d at once. -/
theorem moves_write : ∀ e ∈ moves, ∀ (c : Chain) (s : State) (t : Thread), isQueue c.a = false → isQueue c.b = false →
    ∃ body, exec (Instr.ofOp e.1 c) s = issueChain e.1 c body s ∧
      body (ctxOf s t e.1 c) (issuedThread s t) (issued s (ctxOf s t e.1 c)) =
        writeField (issued s (ctxOf s t e.1 c)) (ctxOf s t e.1 c) c.d (e.2 c t) false 0 := by
  simp only [moves, List.forall_mem_cons]
  refine ⟨?movi, ?addi, ?andi, ?rdpw, ?sel, List.forall_mem_nil _⟩ <;> intro c s t ha hb
  case sel =>
    refine ⟨selBody, rfl, ?_⟩
    simp only [selBody, ctxOf_c, readField_reg ha, readField_reg hb, issuedThread_scalar, issuedThread_pw,
      pwPred_clearPP, Bool.or_self]
  case movi => exact ⟨moviBody, rfl, rfl⟩
  case addi => exact ⟨kImm fun d i => d + i, rfl, rfl⟩
  case andi => exact ⟨kImm fun d i => d &&& i, rfl, rfl⟩
  case rdpw => exact ⟨fun x _ s => writeField s x x.c.d (x.pw ||| 1) false 0, rfl, rfl⟩

theorem claim_moveResult : Claim.MoveResult := by
  intro e he c s t h hx ha hb hd
  obtain ⟨body, hexec, hbody⟩ := moves_write e he c s t ha hb
  rw [hexec]
  exact writeField_result _ 0 body h hx hd hbody

/-- An issue takes a cycle at least (R34). -/
theorem cyc_lt_issueCycle (s : State) (c : Nat) (t : Thread) : s.cyc c < issueCycle s c t := by
  unfold issueCycle
  cases t.lastIssue <;> dsimp only <;> omega

theorem claim_cycleCounterRead : Claim.CycleCounterRead := by
  intro c s t h hx hd
  have hcyc := issued_cyc .rdcyc c h
  obtain ⟨u, τ, hu, hτ, hr⟩ := short_result (o := .rdcyc) (c := c) (word (issueCycle s s.cur.1 t)) 0 h hx hd
  have hend : u.cyc s.cur.1 = issueCycle s s.cur.1 t := by
    rw [← hu, writeField_short _ _ h hd]
    simpa [conclude] using hcyc
  refine ⟨u, τ, ?_, hτ, by rw [hend]; exact hr, hend, by rw [hend]; exact cyc_lt_issueCycle _ _ _⟩
  show issueChain .rdcyc c (fun x _ s => writeField s x x.c.d (word (s.cyc x.core)) false 0) s = _
  rw [issueChain_executes _ h hx, ctxOf_core, hcyc]
  exact congrArg _ hu

theorem setPP_clearPP (pw : Word) (f : BitVec 12) : setPP (clearPP pw) f = setPP pw f := by
  simp only [setPP, clearPP, BitVec.and_assoc, BitVec.and_self]

theorem claim_predicateWordWrites : Claim.PredicateWordWrites := by
  intro c s t h
  refine ⟨?wrpw, ?fclrf, ?fmt⟩
  case wrpw =>
    intro hx ha hok
    refine pw_result wrpwBody h hx (fun u => u.write (.pw (t.scalar c.a))) ?_ rfl ?_ rfl rfl rfl fun _ => rfl
    · simp only [wrpwBody, ctxOf_c, readField_reg ha, issuedThread_scalar, hok, Bool.false_eq_true, if_false]
      rfl
    · unfold Kept; rfl
  case fclrf =>
    intro hx
    exact pw_result fclrfBody h hx _ rfl rfl (by unfold Kept; rfl) rfl rfl rfl fun _ => rfl
  case fmt =>
    intro hx
    rw [← setPP_clearPP]
    exact pw_result fmtBody h hx _ rfl rfl (by unfold Kept; rfl) rfl rfl rfl fun _ => rfl

/-! ### Where a chain goes on -/

/-- NOP and a branch that is not taken go on at the next chain. -/
theorem issueChain_continues {body : Ctx → Thread → State → Out} {o : Op} {c : Chain} {s : State} {t : Thread}
    (h : s.here = some t) (hx : executable s t o c = true)
    (hb : body (ctxOf s t o c) (issuedThread s t) (issued s (ctxOf s t o c)) = .done (issued s (ctxOf s t o c))) :
    ∃ u τ, issueChain o c body s = .next u ∧ u.here = some τ ∧ FlowResult c s u t τ (nextPc o c t) [] := by
  obtain ⟨u, τ, hu, hr⟩ := jump_result (o := o) (c := c) (nextPc o c t) h hx
  rw [issueChain_executes _ h hx, hb]
  exact ⟨u, τ, congrArg _ hu, hr⟩

theorem issueChain_jumps {body : Ctx → Thread → State → Out} {o : Op} {c : Chain} {s : State} {t : Thread} {pc : Nat}
    (h : s.here = some t) (hx : executable s t o c = true)
    (hb : body (ctxOf s t o c) (issuedThread s t) (issued s (ctxOf s t o c)) = .jump (issued s (ctxOf s t o c)) pc) :
    ∃ u τ, issueChain o c body s = .next u ∧ u.here = some τ ∧ FlowResult c s u t τ pc [] := by
  obtain ⟨u, τ, hu, hr⟩ := jump_result (o := o) (c := c) pc h hx
  rw [issueChain_executes _ h hx, hb]
  exact ⟨u, τ, congrArg _ hu, hr⟩

theorem issueChain_links {body : Ctx → Thread → State → Out} {o : Op} {c : Chain} {s : State} {t : Thread} {pc : Nat}
    (h : s.here = some t) (hx : executable s t o c = true) (hd : isQueue c.d = false)
    (hb : body (ctxOf s t o c) (issuedThread s t) (issued s (ctxOf s t o c)) =
      linkTo (ctxOf s t o c) (issued s (ctxOf s t o c)) (word (nextPc o c t)) pc) :
    ∃ u τ, issueChain o c body s = .next u ∧ u.here = some τ ∧ FlowResult c s u t τ pc [c.d.toNat] ∧
      (c.d.toNat < 10 → τ.greg c.d.toNat = word (nextPc o c t)) := by
  obtain ⟨u, τ, hu, hr⟩ := link_result (o := o) (c := c) (word (nextPc o c t)) pc h hx
  rw [issueChain_executes _ h hx, hb]
  simp only [linkTo, ctxOf_c, writeField_plain _ h hd]
  exact ⟨u, τ, congrArg _ hu, hr⟩

theorem branchTarget_eq (s : State) (t : Thread) (o : Op) (c : Chain) :
    branchTarget (ctxOf s t o c) = relativeTarget o c t := rfl

/-- BT and BF look at their predicate as it stood before the issue, which clears no predicate (R101). -/
theorem branchBody_eq (sense : Bool) (s : State) (t : Thread) (o : Op) (c : Chain) (e : State) :
    branchBody sense (ctxOf s t o c) (issuedThread s t) e =
      if pwPred t.pw c.d.toNat == sense then .jump e (relativeTarget o c t) else .done e := by
  simp only [branchBody, ctxOf_c, issuedThread_pw, pwPred_clearPP, branchTarget_eq]

theorem claim_relativeBranches : Claim.RelativeBranches := by
  intro c s t h
  refine ⟨?nop, ?bt, ?bf, ?call⟩
  case nop => exact fun hx => issueChain_continues (body := fun _ _ s => .done s) h hx rfl
  case bt =>
    intro hx
    cases hp : pwPred t.pw c.d.toNat with
    | true => exact issueChain_jumps (body := branchBody true) h hx (by rw [branchBody_eq, hp]; rfl)
    | false => exact issueChain_continues (body := branchBody true) h hx (by rw [branchBody_eq, hp]; rfl)
  case bf =>
    intro hx
    cases hp : pwPred t.pw c.d.toNat with
    | true => exact issueChain_continues (body := branchBody false) h hx (by rw [branchBody_eq, hp]; rfl)
    | false => exact issueChain_jumps (body := branchBody false) h hx (by rw [branchBody_eq, hp]; rfl)
  case call => exact fun hx hd => issueChain_links (body := callBody) h hx hd rfl

theorem registerTarget_even {x : Ctx} {a : Word} (h : bit a 0 = false) :
    registerTarget x a = .ok (a.toNat % 2 ^ 18) := by
  simp [registerTarget, h, bits]

theorem registerTarget_odd {x : Ctx} {a : Word} (h : bit a 0 = true) :
    registerTarget x a = .error (x.trap cALIGN 0 a) := by
  simp [registerTarget, h]

theorem claim_registerBranches : Claim.RegisterBranches := by
  intro c s t h
  refine ⟨?jr, ?callr, ?odd⟩
  case jr =>
    intro hx ha
    exact issueChain_jumps (body := jrBody) h hx (by
      simp only [jrBody, ctxOf_c, issuedThread_scalar, registerTarget_even ha])
  case callr =>
    intro hx ha hd
    exact issueChain_links (body := callrBody) h hx hd (by
      simp only [callrBody, ctxOf_c, issuedThread_scalar, registerTarget_even ha, ctxOf_next])
  case odd =>
    rintro o (rfl | rfl) hx ha
    · exact issueChain_traps (body := jrBody) h hx (by
        simp only [jrBody, ctxOf_c, issuedThread_scalar, registerTarget_odd ha]; rfl)
    · exact issueChain_traps (body := callrBody) h hx (by
        simp only [callrBody, ctxOf_c, issuedThread_scalar, registerTarget_odd ha]; rfl)

/-! ### The obligations -/

/-- Settles O1: the two-operand forms issue with `alu2`, the one-operand forms with `alu1`. -/
theorem integerArithmetic : Obligations.IntegerArithmetic := ⟨claim_aluTwoResult, claim_aluOneResult⟩

/-- Settles O4: each move writes one register at once, each of the others the predicate word. -/
theorem movesAndPredicateWord : Obligations.MovesAndPredicateWord :=
  ⟨claim_moveResult, claim_cycleCounterRead, claim_predicateWordWrites⟩

end Sys2Proof.Machine

namespace Sys2Proof

/-- Settles O5: a branch is a jump or goes on, a call a jump with its link written. -/
theorem branches : Obligations.Branches := ⟨Machine.claim_relativeBranches, Machine.claim_registerBranches⟩

end Sys2Proof

end

section
/-! PROOFS. Scalar floating point: what the operands are and what each instruction writes (spec/04 R110, R111, R113,
R114). -/

namespace Sys2Proof.Machine

/-! ### The bodies with which the listed instructions issue -/

theorem exec_fpTwo : ∀ e ∈ fpTwo, ∀ c s, exec (Instr.ofOp e.1 c) s = issueChain e.1 c (fop2 e.2) s := by
  simp only [fpTwo, List.forall_mem_cons]
  refine ⟨?fadd, ?fsub, ?fmul, ?fmin, ?fmax, List.forall_mem_nil _⟩ <;> exact fun _ _ => rfl

theorem exec_fused : ∀ e ∈ [(Op.fma, false), (Op.fms, true)], ∀ c s,
    exec (Instr.ofOp e.1 c) s = issueChain e.1 c (fmaBody e.2) s := by
  simp only [List.forall_mem_cons]
  refine ⟨?fma, ?fms, List.forall_mem_nil _⟩ <;> exact fun _ _ => rfl

theorem exec_fromInteger : ∀ e ∈ [(Op.itof, 3), (Op.ntof, 7)], ∀ c s,
    exec (Instr.ofOp e.1 c) s = issueChain e.1 c (itofBody e.2) s := by
  simp only [List.forall_mem_cons]
  refine ⟨?itof, ?ntof, List.forall_mem_nil _⟩ <;> exact fun _ _ => rfl

/-! ### Operands -/

/-- The operands x and y of permitted formats without a queue port (R110). -/
theorem fsources_plain {o : Op} {c : Chain} {s : State} {t : Thread} (e : State) (hp : portless c = true)
    (hf : fpFormatsOk o c t = true) :
    fsources (ctxOf s t o c) (issuedThread s t) e = .ok (fpX o c t, fpY o c t, e, false) := by
  simp only [portless, Bool.and_eq_true, Bool.or_eq_true, Bool.not_eq_true'] at hp
  obtain ⟨ha, hb⟩ := hp
  simp only [fpFormatsOk, fpFmtA, fpFmtB, Bool.and_eq_true, Bool.or_eq_true, Bool.not_eq_true'] at hf
  obtain ⟨hfa, hfb⟩ := hf
  by_cases hr : c.hasReg = true
  · have hb := hb.resolve_left (by simp [hr])
    have hfb := hfb.resolve_left (by simp [hr])
    simp only [fsources, ctxOf_c, ctxOf_pw, ctxOf_et, hfa, hfb, hr, readField_reg ha, readField_reg hb, Bool.not_true,
      Bool.and_false, Bool.or_self, Bool.false_eq_true, if_false, if_true, fpX, fpY, fpValue, fpFmtA, fpFmtB, lowBits,
      issuedThread_scalar]
  · have hr := Bool.eq_false_iff.mpr hr
    simp only [fsources, ctxOf_c, ctxOf_pw, ctxOf_et, hfa, hr, readField_reg ha, Bool.not_true, Bool.false_and,
      Bool.or_self, Bool.false_eq_true, if_false, fpX, fpY, fpValue, fpFmtA, lowBits, issuedThread_scalar]

/-- The bits of one source of a permitted format without a queue port (R110). -/
theorem fsource1_plain {o : Op} {c : Chain} {s : State} {t : Thread} {honours : Bool} {dflt : Nat} (e : State)
    (ha : isQueue c.a = false) (hf : fselFmtOk (fmtA t.pw honours dflt) = true) :
    fsource1 (ctxOf s t o c) (issuedThread s t) e dflt honours =
      .ok (fmtA t.pw honours dflt, lowBits (fmtA t.pw honours dflt) (t.scalar c.a), e, false) := by
  simp only [fsource1, ctxOf_c, ctxOf_pw, hf, readField_reg ha, Bool.not_true, Bool.false_eq_true, if_false, lowBits,
    issuedThread_scalar]

/-! ### The parts of the obligations -/

theorem claim_floatTwoResult : Claim.FloatTwoResult := by
  intro e he c s t h hx hp hd hf
  rw [exec_fpTwo e he]
  refine writeField_result _ _ _ h hx hd ?_
  simp only [fop2, fsources_plain _ hp hf]
  rfl

theorem claim_floatMultiplyAdd : Claim.FloatMultiplyAdd := by
  intro e he c s t h hx ha hb hd hfa hfb
  rw [exec_fused e he]
  refine writeField_result _ _ _ h hx hd ?_
  rw [fpFmtA] at hfa
  rw [fpFmtB] at hfb
  simp only [fmaBody, ctxOf_c, ctxOf_pw, ctxOf_et, hfa, hfb, readField_reg ha, readField_reg hb, Bool.not_true,
    Bool.or_self, Bool.false_eq_true, if_false]
  rfl

/-- A long result in floating point: the sticky flags are pending with d (R34, R110). -/
theorem fresult_long_result {body : Ctx → Thread → State → Out} {o : Op} {c : Chain} {s : State} {t : Thread}
    (r : FVal × Bool × Flags) (h : s.here = some t) (hx : executable s t o c = true) (hd : isQueue c.d = false)
    (hb : body (ctxOf s t o c) (issuedThread s t) (issued s (ctxOf s t o c)) =
      fresult (ctxOf s t o c) (issued s (ctxOf s t o c)) (etCode o c) r.1 r.2.1 r.2.2 true) :
    ∃ u τ, issueChain o c body s = .next u ∧ u.here = some τ ∧
      LongResult o c s u t τ (gRes c.d ++ [.flags]) (longFloat o c t r) :=
  writeLong_result _ _ [.flags] body h hx hd hb

theorem claim_floatLongResult : Claim.FloatLongResult := by
  intro c s t h hd
  refine ⟨?fdiv, ?fsqrt⟩
  case fdiv =>
    intro hx hp hf
    exact fresult_long_result (body := fdivBody) _ h hx hd (by simp only [fdivBody, fsources_plain _ hp hf]; rfl)
  case fsqrt =>
    intro hx ha hf
    rw [fpFmtA] at hf ⊢
    exact fresult_long_result (body := fsqrtBody) _ h hx hd (by
      simp only [fsqrtBody, ctxOf_et, fsource1_plain _ ha hf]; rfl)

/-- The instructions of one source write what `fpOne` gives of its bits (R110, R113, R114). -/
theorem fpOne_writes : ∀ e ∈ fpOne, ∀ (c : Chain) (s : State) (t : Thread) (code : Nat), isQueue c.a = false →
    code = fmtA t.pw e.2.2.1 (e.2.1 (etCode e.1 c)) → fselFmtOk code = true →
    ∃ body, exec (Instr.ofOp e.1 c) s = issueChain e.1 c body s ∧
      body (ctxOf s t e.1 c) (issuedThread s t) (issued s (ctxOf s t e.1 c)) =
        writeField (issued s (ctxOf s t e.1 c)) (ctxOf s t e.1 c) c.d
          (e.2.2.2 (fctlOf t.pw) (etCode e.1 c) code (lowBits code (t.scalar c.a))).1 false
          (e.2.2.2 (fctlOf t.pw) (etCode e.1 c) code (lowBits code (t.scalar c.a))).2 := by
  simp only [fpOne, List.forall_mem_cons, id]
  refine ⟨?fabs, ?fneg, ?fclass, ?fcvt, ?ftoi, ?fton, ?frnd, List.forall_mem_nil _⟩ <;>
    rintro c s t code ha rfl hf
  case fabs =>
    exact ⟨fsignBody false, rfl, by simp only [fsignBody, ctxOf_et, fsource1_plain _ ha hf, ctxOf_c]⟩
  case fneg =>
    exact ⟨fsignBody true, rfl, by simp only [fsignBody, ctxOf_et, fsource1_plain _ ha hf, ctxOf_c]⟩
  case fclass =>
    exact ⟨fclassBody, rfl, by simp only [fclassBody, ctxOf_et, fsource1_plain _ ha hf, ctxOf_c]⟩
  case fcvt =>
    exact ⟨fcvtBody, rfl, by simp only [fcvtBody, ctxOf_et, ctxOf_pw, fsource1_plain _ ha hf, ctxOf_c]⟩
  case ftoi =>
    exact ⟨ftoiBody 3, rfl, by simp only [ftoiBody, ctxOf_et, ctxOf_pw, fsource1_plain _ ha hf, ctxOf_c]⟩
  case fton =>
    exact ⟨ftoiBody 7, rfl, by simp only [ftoiBody, ctxOf_et, ctxOf_pw, fsource1_plain _ ha hf, ctxOf_c]⟩
  case frnd =>
    exact ⟨frndBody, rfl, by simp only [frndBody, ctxOf_et, ctxOf_pw, fsource1_plain _ ha hf, ctxOf_c]⟩

theorem flags_or_none (f : Flags) : f ||| 0 = f := BitVec.or_zero

/-! ### The obligations -/

/-- Settles O6: the operands are values in their formats; FDIV and FSQRT leave their result pending. -/
theorem floatArithmetic : Obligations.FloatArithmetic :=
  ⟨claim_floatTwoResult, claim_floatMultiplyAdd, claim_floatLongResult⟩

/-- Settles O7: each writes at once what it computes of the bits, or of the integer, that a holds. -/
theorem floatOneResult : Obligations.FloatOneResult := by
  intro c s t h ha hd
  constructor
  · intro e he hx hf
    obtain ⟨body, hexec, hbody⟩ := fpOne_writes e he c s t _ ha rfl hf
    rw [hexec]
    exact writeField_result _ _ body h hx hd hbody
  · intro e he hx
    rw [exec_fromInteger e he]
    refine writeField_result _ _ (itofBody e.2) h hx hd ?_
    simp only [itofBody, ctxOf_c, readField_reg ha, issuedThread_scalar, fpWritten, ctxOf_pw, ctxOf_et,
      flags_or_none]

end Sys2Proof.Machine

end

section
/-! PROOFS. Vector instructions: integers, masks, floating point, reductions and blocks (spec/05 R126-R135, R139-R142). -/

namespace Sys2Proof.Machine

/-! ### Vector fields that name no stream register (R128) -/

section
variable {o : Op} {c : Chain} {t : Thread}

theorem streamless_vd (h : streamless o c t = true) (hv : (opRow o).fd.isVec = true) : (t.stream? c.vd).isNone = true := by
  simp only [streamless, List.all_eq_true] at h
  exact h _ (by simp [vecFields, hv])

theorem streamless_va (h : streamless o c t = true) (hv : (opRow o).fa.isVec = true) : (t.stream? c.va).isNone = true := by
  simp only [streamless, List.all_eq_true] at h
  exact h _ (by simp [vecFields, hv])

theorem streamless_vb (h : streamless o c t = true) (hv : (opRow o).fb.isVec = true) (hu : usesB o c = true) :
    (t.stream? c.vb).isNone = true := by
  simp only [streamless, List.all_eq_true] at h
  exact h _ (by simp [vecFields, hv, hu])

theorem usesB_optional (h : (opRow o).fb = .vOpt) (hr : c.hasReg = true) : usesB o c = true := by
  rw [usesB, h]
  exact hr

theorem usesB_always (h : (opRow o).fb = .vAlw) : usesB o c = true := by rw [usesB, h]

/-- The rows of the form "d := f(x, y)" (R125). -/
def isVecTwo (r : OpRow) : Bool := r.fd.isVec && r.fa.isVec && r.fb == .vOpt

/-- The rows that read a and b always. -/
def readsVecAB (r : OpRow) : Bool := r.fa.isVec && r.fb == .vAlw

theorem vsources_streamless {s e : State} (h : streamless o c t = true) (hv : isVecTwo (opRow o) = true) :
    vsources (ctxOf s t o c) (issuedThread s t) e = .ok (vecX c t, vecY c t, e) := by
  simp only [isVecTwo, Bool.and_eq_true, beq_iff_eq] at hv
  obtain ⟨⟨-, ha⟩, hb⟩ := hv
  exact vsources_plain (streamless_va h ha)
    fun hr => streamless_vb h (by rw [hb]; rfl) (usesB_optional hb hr)

theorem vsourcesAB_streamless {s e : State} (h : streamless o c t = true) (hv : readsVecAB (opRow o) = true) :
    vsourcesAB (ctxOf s t o c) (issuedThread s t) e = .ok (vecReg t c.va, vecReg t c.vb, e) := by
  simp only [readsVecAB, Bool.and_eq_true, beq_iff_eq] at hv
  obtain ⟨ha, hb⟩ := hv
  exact vsourcesAB_plain (streamless_va h ha) (streamless_vb h (by rw [hb]; rfl) (usesB_always hb))

theorem readVec_streamless {s e : State} (h : streamless o c t = true) (hv : (opRow o).fa.isVec = true) :
    readVec e (ctxOf s t o c) (issuedThread s t) c.va = .ok (vecReg t c.va, e) := by
  rw [readVec_reg (by rw [stream_issued]; exact streamless_va h hv)]
  rfl

end

/-! ### Element counts (R120) -/

theorem etWidth_ge (code : Nat) : 8 ≤ etWidth code := Nat.le_mul_of_pos_right 8 (Nat.two_pow_pos _)

theorem lanes_fit (w : Nat) : w * (1024 / w) ≤ 1024 := Nat.mul_div_le 1024 w

theorem maskLanes_fit (code : Nat) : 1 * (1024 / etWidth code) ≤ 128 := by
  rw [Nat.one_mul]
  exact Nat.div_le_of_le_mul (by have := etWidth_ge code; omega)

/-- As many elements as the widest format allows fit a register, and their bits a mask. -/
theorem laneCount_fits {w n : Nat} (h : laneCount w = some n) : w * n ≤ 1024 ∧ 1 * n ≤ 128 := by
  unfold laneCount at h
  split at h
  · cases h
  · rename_i hw
    cases h
    refine ⟨lanes_fit w, ?_⟩
    rw [Nat.one_mul]
    exact Nat.div_le_of_le_mul (by omega)

theorem laneCount_fits_le {v w n : Nat} (hv : v ≤ w) (h : laneCount w = some n) : v * n ≤ 1024 :=
  (Nat.mul_le_mul_right n hv).trans (laneCount_fits h).1

/-- Active elements are compared modulo their width (R120). -/
theorem LanesAre.congr {o : Op} {c : Chain} {t : Thread} {n w old v : Nat} {f g : Nat → Nat}
    (h : LanesAre o c t n w old f v)
    (hfg : ∀ i, i < n → laneActive o c t i = true → f i % 2 ^ w = g i % 2 ^ w) : LanesAre o c t n w old g v := by
  intro i hi
  rw [h i hi]
  by_cases ha : laneActive o c t i = true
  · rw [if_pos ha, if_pos ha, hfg i hi ha]
  · rw [if_neg ha, if_neg ha]

/-! ### Results under mask control (R126, R127) -/

section
variable {body : Ctx → Thread → State → Out} {o : Op} {c : Chain} {s : State} {t : Thread} {n w : Nat}

/-- A vector result of integers. -/
theorem vecLanes_result (f : Nat → Nat × Flags) (h : s.here = some t) (hx : executable s t o c = true)
    (hst : streamless o c t = true) (hv : (opRow o).fd.isVec = true) (hw : w * n ≤ 1024)
    (hb : body (ctxOf s t o c) (issuedThread s t) (issued s (ctxOf s t o c)) =
      writeVec (issued s (ctxOf s t o c)) (ctxOf s t o c) (issuedThread s t)
        (lanesOf (ctxOf s t o c) (issuedThread s t) n w (vecReg t c.vd) f).1 false 0) :
    ∃ u τ v, issueChain o c body s = .next u ∧ u.here = some τ ∧
      LongResult o c s u t τ [.v c.vd] [.v c.vd v, .flags 0] ∧
      LanesAre o c t n w (vecReg t c.vd) (fun i => (f i).1) v.toNat := by
  obtain ⟨u, τ, hu, hτ, hr⟩ := writeVec_result _ false 0 body h hx (streamless_vd hst hv) hb
  exact ⟨u, τ, _, hu, hτ, hr, (lanesOf_lanes (vecReg t c.vd) f hw).1⟩

/-- A vector result in floating point, with the exceptions of its active elements. -/
theorem vecFloatLanes_result (f : Nat → Nat × Flags) (h : s.here = some t) (hx : executable s t o c = true)
    (hst : streamless o c t = true) (hv : (opRow o).fd.isVec = true) (hw : w * n ≤ 1024)
    (hb : body (ctxOf s t o c) (issuedThread s t) (issued s (ctxOf s t o c)) =
      writeVec (issued s (ctxOf s t o c)) (ctxOf s t o c) (issuedThread s t)
        (lanesOf (ctxOf s t o c) (issuedThread s t) n w (vecReg t c.vd) f).1 true
        (lanesOf (ctxOf s t o c) (issuedThread s t) n w (vecReg t c.vd) f).2) :
    ∃ u τ v, issueChain o c body s = .next u ∧ u.here = some τ ∧
      LongResult o c s u t τ [.v c.vd, .flags] [.v c.vd v, .flags (lanesFlags o c t n fun i => (f i).2)] ∧
      LanesAre o c t n w (vecReg t c.vd) (fun i => (f i).1) v.toNat := by
  obtain ⟨hl, hf⟩ := lanesOf_lanes (s := s) (t := t) (o := o) (c := c) (b := 1024) (vecReg t c.vd) f hw
  obtain ⟨u, τ, hu, hτ, hr⟩ := writeVec_result _ true _ body h hx (streamless_vd hst hv) hb
  rw [hf] at hr
  exact ⟨u, τ, _, hu, hτ, hr, hl⟩

/-- A mask result of integers. -/
theorem maskLanes_result (f : Nat → Nat × Flags) (h : s.here = some t) (hx : executable s t o c = true)
    (hw : 1 * n ≤ 128)
    (hb : body (ctxOf s t o c) (issuedThread s t) (issued s (ctxOf s t o c)) =
      writeMask (issued s (ctxOf s t o c)) (ctxOf s t o c)
        (lanesOf (ctxOf s t o c) (issuedThread s t) n 1 (t.mask c.d.toNat).toNat f).1 false 0) :
    ∃ u τ v, issueChain o c body s = .next u ∧ u.here = some τ ∧
      LongResult o c s u t τ [.m c.d.toNat] [.m c.d.toNat v, .flags 0] ∧
      LanesAre o c t n 1 (t.mask c.d.toNat).toNat (fun i => (f i).1) v.toNat := by
  obtain ⟨u, τ, hu, hτ, hr⟩ := writeMask_result _ false 0 body h hx hb
  exact ⟨u, τ, _, hu, hτ, hr, (lanesOf_lanes _ f hw).1⟩

/-- A mask result in floating point, with the exceptions of its active elements. -/
theorem maskFloatLanes_result (f : Nat → Nat × Flags) (h : s.here = some t) (hx : executable s t o c = true)
    (hw : 1 * n ≤ 128)
    (hb : body (ctxOf s t o c) (issuedThread s t) (issued s (ctxOf s t o c)) =
      writeMask (issued s (ctxOf s t o c)) (ctxOf s t o c)
        (lanesOf (ctxOf s t o c) (issuedThread s t) n 1 (t.mask c.d.toNat).toNat f).1 true
        (lanesOf (ctxOf s t o c) (issuedThread s t) n 1 (t.mask c.d.toNat).toNat f).2) :
    ∃ u τ v, issueChain o c body s = .next u ∧ u.here = some τ ∧
      LongResult o c s u t τ [.m c.d.toNat, .flags]
        [.m c.d.toNat v, .flags (lanesFlags o c t n fun i => (f i).2)] ∧
      LanesAre o c t n 1 (t.mask c.d.toNat).toNat (fun i => (f i).1) v.toNat := by
  obtain ⟨hl, hf⟩ := lanesOf_lanes (s := s) (t := t) (o := o) (c := c) (b := 128) (t.mask c.d.toNat).toNat f hw
  obtain ⟨u, τ, hu, hτ, hr⟩ := writeMask_result _ true _ body h hx hb
  rw [hf] at hr
  exact ⟨u, τ, _, hu, hτ, hr, hl⟩

/-- A whole register of packed elements. -/
theorem packed_result (l : List Nat) (g : Nat → Nat) (h : s.here = some t) (hx : executable s t o c = true)
    (hst : streamless o c t = true) (hv : (opRow o).fd.isVec = true) (hn : l.length = n) (hw : w * n ≤ 1024)
    (hg : ∀ i, i < n → l.getD i 0 = g i)
    (hb : body (ctxOf s t o c) (issuedThread s t) (issued s (ctxOf s t o c)) =
      writeVec (issued s (ctxOf s t o c)) (ctxOf s t o c) (issuedThread s t) (packLanes w l) false 0) :
    ∃ u τ v, issueChain o c body s = .next u ∧ u.here = some τ ∧
      LongResult o c s u t τ [.v c.vd] [.v c.vd v, .flags 0] ∧ ∀ i, i < n → lane w v.toNat i = g i % 2 ^ w := by
  obtain ⟨u, τ, hu, hτ, hr⟩ := writeVec_result _ false 0 body h hx (streamless_vd hst hv) hb
  exact ⟨u, τ, _, hu, hτ, hr, fun i hi => by rw [lane_ofNat (by rwa [hn]), hg i hi]⟩

end

@[simp] theorem oldVec_issued (s : State) (t : Thread) (o : Op) (c : Chain) :
    oldVec (ctxOf s t o c) (issuedThread s t) = vecReg t c.vd := rfl

@[simp] theorem oldMask_issued (s : State) (t : Thread) (o : Op) (c : Chain) :
    oldMask (ctxOf s t o c) (issuedThread s t) = (t.mask c.d.toNat).toNat := rfl

/-! ### Integer vector instructions (R129, R135) -/

theorem exec_vecIntTwo : ∀ e ∈ vecIntTwo, ∀ c s, exec (Instr.ofOp e.1 c) s = issueChain e.1 c (vi2 e.2) s := by
  simp only [vecIntTwo, List.forall_mem_cons]
  refine ⟨?viadd, ?visub, ?vimul, ?vimulh, ?vimin, ?vimax, ?vand, ?vor, ?vxor, ?vshl, ?vshr, ?viadds, ?visubs,
    List.forall_mem_nil _⟩ <;> exact fun _ _ => rfl

theorem vecIntTwo_row : ∀ e ∈ vecIntTwo, isVecTwo (opRow e.1) = true := by decide

theorem isVecTwo_vd {r : OpRow} (h : isVecTwo r = true) : r.fd.isVec = true := by
  simp only [isVecTwo, Bool.and_eq_true] at h
  exact h.1.1

theorem claim_vectorIntegerTwo : Claim.VectorIntegerTwo := by
  intro e he c s t h hx hst
  have hrow := vecIntTwo_row e he
  rw [exec_vecIntTwo e he]
  exact vecLanes_result (fun i => (e.2 (etCode e.1 c) (lane (etWidth (etCode e.1 c)) (vecX c t) i)
      (lane (etWidth (etCode e.1 c)) (vecY c t) i), 0)) h hx hst (isVecTwo_vd hrow) (lanes_fit _)
    (by simp only [vi2, vsources_streamless hst hrow, ctxOf_et, oldVec_issued])

theorem claim_vectorIntegerOne : Claim.VectorIntegerOne := by
  unfold Claim.VectorIntegerOne
  simp only [vecIntOne, List.forall_mem_cons]
  refine ⟨?viabs, ?vineg, ?vimad, ?viota, ?vmov, List.forall_mem_nil _⟩ <;> intro c s t h hx hst
  case viabs =>
    exact vecLanes_result (body := vi1 vabsI)
      (fun i => (vabsI (etCode .viabs c) (lane (etWidth (etCode .viabs c)) (vecReg t c.va) i), 0)) h hx hst rfl
      (lanes_fit _) (by simp only [vi1, ctxOf_c, readVec_streamless hst rfl, ctxOf_et, oldVec_issued])
  case vineg =>
    exact vecLanes_result (body := vi1 vnegI)
      (fun i => (vnegI (etCode .vineg c) (lane (etWidth (etCode .vineg c)) (vecReg t c.va) i), 0)) h hx hst rfl
      (lanes_fit _) (by simp only [vi1, ctxOf_c, readVec_streamless hst rfl, ctxOf_et, oldVec_issued])
  case vimad =>
    obtain ⟨u, τ, v, hu, hτ, hr, hl⟩ := vecLanes_result (body := vimadBody) (n := 1024 / etWidth (etCode .vimad c))
      (fun i => ((lane (etWidth (etCode .vimad c)) (vecReg t c.vd) i +
        lane (etWidth (etCode .vimad c)) (vecReg t c.va) i * lane (etWidth (etCode .vimad c)) (vecReg t c.vb) i) %
          2 ^ etWidth (etCode .vimad c), 0)) h hx hst rfl (lanes_fit _)
      (by simp only [vimadBody, vsourcesAB_streamless hst rfl, ctxOf_et, oldVec_issued])
    exact ⟨u, τ, v, hu, hτ, hr, hl.congr fun i _ _ => Nat.mod_mod _ _⟩
  case viota =>
    obtain ⟨u, τ, v, hu, hτ, hr, hl⟩ := vecLanes_result (body := viotaBody) (n := 1024 / etWidth (etCode .viota c))
      (fun i => (i % 2 ^ etWidth (etCode .viota c), 0)) h hx hst rfl (lanes_fit _)
      (by simp only [viotaBody, ctxOf_et, oldVec_issued])
    exact ⟨u, τ, v, hu, hτ, hr, hl.congr fun i _ _ => Nat.mod_mod _ _⟩
  case vmov =>
    exact vecLanes_result (body := vmovBody) (n := 1024 / 8) (fun i => (lane 8 (vecReg t c.va) i, 0)) h hx hst rfl
      (lanes_fit _) (by simp only [vmovBody, ctxOf_c, readVec_streamless hst rfl, oldVec_issued])

/-- Settles O9: every element of a result is that of `lanesOf`, and as many as the width allows fit the register. -/
theorem vectorInteger : Obligations.VectorInteger := ⟨claim_vectorIntegerTwo, claim_vectorIntegerOne⟩

end Sys2Proof.Machine

end

section
/-! PROOFS. Moves between elements, masks, compares and reductions (spec/05 R131-R135). -/

namespace Sys2Proof.Machine

/-! ### Moves between elements (R135) -/

theorem getD_map_range {n i : Nat} (f : Nat → Nat) (hi : i < n) : ((List.range n).map f).getD i 0 = f i := by
  rw [List.getD_eq_getElem?_getD, List.getElem?_map, List.getElem?_range hi, Option.map_some, Option.getD_some]

theorem getD_replicate {n i : Nat} (x : Nat) (hi : i < n) : (List.replicate n x).getD i 0 = x := by
  rw [List.getD_eq_getElem?_getD, List.getElem?_replicate_of_lt hi, Option.getD_some]

/-- Every element of d is the one that `vecMoves` gives. -/
theorem vecMoves_pack : ∀ e ∈ vecMoves, ∀ (c : Chain) (s : State) (t : Thread), isQueue c.a = false →
    streamless e.1 c t = true →
    ∃ body l, exec (Instr.ofOp e.1 c) s = issueChain e.1 c body s ∧ (opRow e.1).fd.isVec = true ∧
      l.length = 1024 / etWidth (etCode e.1 c) ∧
      (∀ i, i < 1024 / etWidth (etCode e.1 c) → l.getD i 0 = e.2 (etWidth (etCode e.1 c)) c t i) ∧
      body (ctxOf s t e.1 c) (issuedThread s t) (issued s (ctxOf s t e.1 c)) =
        writeVec (issued s (ctxOf s t e.1 c)) (ctxOf s t e.1 c) (issuedThread s t)
          (packLanes (etWidth (etCode e.1 c)) l) false 0 := by
  simp only [vecMoves, List.forall_mem_cons]
  refine ⟨?vperm, ?vbcast, ?vsplati, List.forall_mem_nil _⟩ <;> intro c s t ha hst
  case vperm =>
    exact ⟨vpermBody, _, rfl, rfl, by rw [List.length_map, List.length_range], fun i hi => getD_map_range _ hi,
      by simp only [vpermBody, vsourcesAB_streamless hst rfl, ctxOf_et]⟩
  case vbcast =>
    exact ⟨vbcastBody, _, rfl, rfl, List.length_replicate, fun i hi => getD_replicate _ hi,
      by simp only [vbcastBody, ctxOf_c, readField_reg ha, issuedThread_scalar, ctxOf_et]⟩
  case vsplati =>
    exact ⟨vsplatiBody, _, rfl, rfl, List.length_replicate, fun i hi => getD_replicate _ hi,
      by simp only [vsplatiBody, ctxOf_imm, ctxOf_et]⟩

theorem claim_vectorMoves : Claim.VectorMoves := by
  intro c s t h ha
  refine ⟨?moves, ?vins, ?vext⟩
  case moves =>
    intro e he hx hst
    obtain ⟨body, l, hexec, hv, hn, hg, hb⟩ := vecMoves_pack e he c s t ha hst
    rw [hexec]
    exact packed_result l _ h hx hst hv hn (lanes_fit _) hg hb
  case vins =>
    intro hx
    obtain ⟨u, τ, hu, hτ, hr⟩ := lease_result vinsBody h hx
      (fun u => u.setVreg c.vd (BitVec.ofNat 1024 (packLanes (etWidth (etCode .vins c))
        ((List.range (1024 / etWidth (etCode .vins c))).map fun i =>
          if i == (immInt .vins c).toNat then (t.scalar c.a).toNat
          else lane (etWidth (etCode .vins c)) (vecReg t c.vd) i))))
      (by simp only [vinsBody, ctxOf_c, readField_reg ha, issuedThread_scalar, ctxOf_et, oldVec_issued, ctxOf_immNat,
            Bool.false_eq_true, if_false, ctxOf_core, ctxOf_slot]
          rfl) rfl
      (leaseVec t c.vd _) (by unfold Kept; rfl) rfl rfl rfl (fun _ => rfl) rfl
    refine ⟨u, τ, _, hu, hτ, hr, fun i hi => ?_⟩
    rw [lane_ofNat (by rw [List.length_map, List.length_range]; exact lanes_fit _), getD_map_range _ hi]
    simp only [beq_iff_eq]
  case vext => exact fun hx hd => writeField_result _ 0 vextBody h hx hd rfl

/-! ### Mask operations (R132) -/

theorem exec_maskTwo : ∀ e ∈ maskTwo, ∀ c s, exec (Instr.ofOp e.1 c) s = issueChain e.1 c (mask2 e.2) s := by
  simp only [maskTwo, List.forall_mem_cons]
  refine ⟨?mand, ?mor, ?mxor, List.forall_mem_nil _⟩ <;> exact fun _ _ => rfl

/-- A mask written at once. -/
theorem setMask_result {body : Ctx → Thread → State → Out} {o : Op} {c : Chain} {s : State} {t : Thread}
    (m : BitVec 128) (h : s.here = some t) (hx : executable s t o c = true)
    (hb : body (ctxOf s t o c) (issuedThread s t) (issued s (ctxOf s t o c)) =
      .done ((issued s (ctxOf s t o c)).modThread s.cur.1 s.cur.2 fun u => u.setMask c.d.toNat m)) :
    ∃ u τ, issueChain o c body s = .next u ∧ u.here = some τ ∧ LeaseResult o c s u t τ (leaseMask t c.d.toNat m) :=
  lease_result body h hx _ hb rfl _ (by unfold Kept; rfl) rfl rfl rfl (fun _ => rfl) rfl

theorem claim_maskOperations : Claim.MaskOperations := by
  intro c s t h
  refine ⟨?two, ?mnot, ?mall, ?mpop⟩
  case two =>
    intro e he hx
    rw [exec_maskTwo e he]
    exact setMask_result _ h hx rfl
  case mnot => exact fun hx => setMask_result (body := mnotBody) _ h hx rfl
  case mall => exact fun hx => setMask_result (body := mallBody) _ h hx rfl
  case mpop => exact fun hx hd => writeField_result _ 0 mpopBody h hx hd rfl

/-- Settles O10: moves write packed elements, mask operations the lease at once. -/
theorem vectorMovesAndMasks : Obligations.VectorMovesAndMasks := ⟨claim_vectorMoves, claim_maskOperations⟩

/-! ### Compares into masks (R131) -/

theorem exec_vecIntCompares : ∀ e ∈ vecIntCompares, ∀ c s,
    exec (Instr.ofOp e.1 c) s = issueChain e.1 c (vicmp e.2) s := by
  simp only [vecIntCompares, List.forall_mem_cons]
  refine ⟨?vicmpeq, ?vicmplt, ?vicmple, List.forall_mem_nil _⟩ <;> exact fun _ _ => rfl

theorem vecIntCompares_row : ∀ e ∈ vecIntCompares, readsVecAB (opRow e.1) = true := by decide

theorem exec_vecFloatCompares : ∀ e ∈ vecFloatCompares, ∀ c s,
    exec (Instr.ofOp e.1 c) s = issueChain e.1 c (vfcmp e.2.1 e.2.2) s := by
  simp only [vecFloatCompares, List.forall_mem_cons]
  refine ⟨?vcmpeq, ?vcmplt, ?vcmple, ?vcmpun, List.forall_mem_nil _⟩ <;> exact fun _ _ => rfl

theorem vecFloatCompares_row : ∀ e ∈ vecFloatCompares, readsVecAB (opRow e.1) = true := by decide

theorem claim_vectorIntegerCompare : Claim.VectorIntegerCompare := by
  intro e he c s t h hx hst
  rw [exec_vecIntCompares e he]
  exact maskLanes_result (fun i => (flagBit (e.2
      (intOf (etCode e.1 c) (lane (etWidth (etCode e.1 c)) (vecReg t c.va) i))
      (intOf (etCode e.1 c) (lane (etWidth (etCode e.1 c)) (vecReg t c.vb) i))) 0, 0)) h hx (maskLanes_fit _)
    (by simp only [vicmp, vsourcesAB_streamless hst (vecIntCompares_row e he), ctxOf_et, oldMask_issued])

theorem claim_vectorFloatCompare : Claim.VectorFloatCompare := by
  intro e he c s t n h hx hst hfa hfb hn
  rw [exec_vecFloatCompares e he]
  rw [fpFmtA] at hfa hn ⊢
  rw [fpFmtB] at hfb hn ⊢
  exact maskFloatLanes_result (fun i => (flagBit (e.2.2
      (vecValue t (fmtA t.pw true (etCode e.1 c)) (vecReg t c.va) i)
      (vecValue t (fmtB t.pw true (etCode e.1 c)) (vecReg t c.vb) i)) 0,
    compareFlags e.2.1 (vecValue t (fmtA t.pw true (etCode e.1 c)) (vecReg t c.va) i)
      (vecValue t (fmtB t.pw true (etCode e.1 c)) (vecReg t c.vb) i))) h hx (laneCount_fits hn).2
    (by simp only [vfcmp, ctxOf_pw, ctxOf_et, hfa, hfb, Bool.not_true, Bool.or_self, Bool.false_eq_true, if_false,
          vsourcesAB_streamless hst (vecFloatCompares_row e he), hn, oldMask_issued]
        rfl)

/-- Settles O11: bit i of the mask is element i, of width 1, of what `lanesOf` gives. -/
theorem vectorCompares : Obligations.VectorCompares := ⟨claim_vectorIntegerCompare, claim_vectorFloatCompare⟩

/-! ### Reductions (R133, R134) -/

theorem exec_vecIntReductions : ∀ e ∈ vecIntReductions, ∀ c s,
    exec (Instr.ofOp e.1 c) s = issueChain e.1 c (vireduce e.2.1 e.2.2) s := by
  simp only [vecIntReductions, List.forall_mem_cons]
  refine ⟨?virsum, ?virmin, ?virmax, List.forall_mem_nil _⟩ <;> exact fun _ _ => rfl

theorem vecIntReductions_row : ∀ e ∈ vecIntReductions, (opRow e.1).fa.isVec = true := by decide

theorem exec_vecFloatReductions : ∀ e ∈ vecFloatReductions, ∀ c s,
    exec (Instr.ofOp e.1 c) s = issueChain e.1 c (vfreduce e.2.2 e.2.1) s := by
  simp only [vecFloatReductions, List.forall_mem_cons]
  refine ⟨?vrsum, ?vrmin, ?vrmax, List.forall_mem_nil _⟩ <;> exact fun _ _ => rfl

theorem vecFloatReductions_row : ∀ e ∈ vecFloatReductions, (opRow e.1).fa.isVec = true := by decide

theorem claim_vectorIntegerReduction : Claim.VectorIntegerReduction := by
  intro e he c s t h hx hst hd
  rw [exec_vecIntReductions e he, ← List.append_nil (gRes c.d)]
  refine writeLong_result _ 0 [] _ h hx hd ?_
  simp only [vireduce, ctxOf_c, readVec_streamless hst (vecIntReductions_row e he), ctxOf_et]
  rfl

theorem claim_vectorFloatReduction : Claim.VectorFloatReduction := by
  intro e he c s t n code h hx hst hd hcode hf hn
  subst hcode
  rw [exec_vecFloatReductions e he]
  refine writeLong_result _ _ [.flags] _ h hx hd ?_
  simp only [vfreduce, ctxOf_c, ctxOf_pw, hf, Bool.not_true, Bool.false_eq_true, if_false,
    readVec_streamless hst (vecFloatReductions_row e he), hn]
  rfl

/-- Settles O12: the body folds the active elements, and the scalar result is long. -/
theorem vectorReductions : Obligations.VectorReductions :=
  ⟨claim_vectorIntegerReduction, claim_vectorFloatReduction⟩

end Sys2Proof.Machine

end

section
/-! PROOFS. Floating-point vector instructions and blocks (spec/05 R127, R130, R139-R142). -/

namespace Sys2Proof.Machine

/-! ### Two sources (R127, R130) -/

theorem exec_vecFloatTwo : ∀ e ∈ vecFloatTwo, ∀ c s, exec (Instr.ofOp e.1 c) s = issueChain e.1 c (vf2 e.2) s := by
  simp only [vecFloatTwo, List.forall_mem_cons]
  refine ⟨?vadd, ?vsub, ?vmul, ?vdiv, ?vmin, ?vmax, List.forall_mem_nil _⟩ <;> exact fun _ _ => rfl

theorem vecFloatTwo_row : ∀ e ∈ vecFloatTwo, isVecTwo (opRow e.1) = true := by decide

theorem vfmtX_ctxOf (s : State) (t : Thread) (o : Op) (c : Chain) : vfmtX (ctxOf s t o c) = vecFmtX o c t := rfl

theorem vfmtY_ctxOf (s : State) (t : Thread) (o : Op) (c : Chain) : vfmtY (ctxOf s t o c) = vecFmtY o c t := rfl

theorem flane_ctxOf (s : State) (t : Thread) (o : Op) (c : Chain) (code v i : Nat) :
    flane (ctxOf s t o c) code v i = vecValue t code v i := rfl

theorem fput_ctxOf (s : State) (t : Thread) (o : Op) (c : Chain) (r : FVal × Bool × Flags) :
    fput (ctxOf s t o c) (etCode o c) r.1 r.2.1 r.2.2 = vecWritten o c t r := rfl

theorem claim_vectorFloatTwo : Claim.VectorFloatTwo := by
  intro e he c s t n h hx hst hfx hfy hn
  rw [exec_vecFloatTwo e he]
  have hrow := vecFloatTwo_row e he
  exact vecFloatLanes_result (fun i => vecWritten e.1 c t (e.2 (fctlOf t.pw).mode
      (vecValue t (vecFmtX e.1 c t) (vecX c t) i) (vecValue t (vecFmtY e.1 c t) (vecY c t) i))) h hx hst
    (isVecTwo_vd hrow) (laneCount_fits_le (le_max_left _ _) hn)
    (by simp only [vf2, vfmtX_ctxOf, vfmtY_ctxOf, hfx, hfy, Bool.not_true, Bool.or_self, Bool.false_eq_true, if_false,
          vsources_streamless hst hrow, ctxOf_et, hn, oldVec_issued, flane_ctxOf, fput_ctxOf, ctxOf_pw])

/-! ### One source (R130, R139) -/

/-- A body of one source in a permitted format computes `f` of the bits of each element. -/
theorem vf1_lanes {o : Op} {c : Chain} {s e : State} {t : Thread} {code w n : Nat} (f : Nat → Nat × Flags)
    (hst : streamless o c t = true) (ha : (opRow o).fa.isVec = true) (hf : fselFmtOk code = true)
    (hn : laneCount (max w (fw code)) = some n) :
    vf1 code w f (ctxOf s t o c) (issuedThread s t) e =
      writeVec e (ctxOf s t o c) (issuedThread s t)
        (lanesOf (ctxOf s t o c) (issuedThread s t) n w (vecReg t c.vd) fun i => f (lane (fw code) (vecReg t c.va) i)).1
        true
        (lanesOf (ctxOf s t o c) (issuedThread s t) n w (vecReg t c.vd) fun i => f (lane (fw code) (vecReg t c.va) i)).2 := by
  simp only [vf1, hf, Bool.not_true, Bool.false_eq_true, if_false, ctxOf_c, readVec_streamless hst ha, hn, oldVec_issued]

theorem fmtA_unhonoured (pw : Word) (dflt : Nat) : fmtA pw false dflt = dflt := by simp [fmtA]

/-- Each instruction of `vecFloatOne` runs `vf1` on the format and the width that the list gives. -/
theorem vecFloatOne_body : ∀ e ∈ vecFloatOne, ∀ (c : Chain) (s : State) (t : Thread),
    ∃ body, exec (Instr.ofOp e.1 c) s = issueChain e.1 c body s ∧ (opRow e.1).fa.isVec = true ∧
      (opRow e.1).fd.isVec = true ∧
      ∀ u, body (ctxOf s t e.1 c) u = vf1 (fmtA t.pw e.2.2.1 (e.2.1 (etCode e.1 c))) (e.2.2.2.1 (etCode e.1 c))
        (e.2.2.2.2 (fctlOf t.pw) (etCode e.1 c) (fmtA t.pw e.2.2.1 (e.2.1 (etCode e.1 c)))) (ctxOf s t e.1 c) u := by
  simp only [vecFloatOne, List.forall_mem_cons, fmtA_unhonoured]
  refine ⟨?vsqrt, ?vabs, ?vneg, ?vcvt, ?vcvti, List.forall_mem_nil _⟩ <;> intro c s t
  case vsqrt => exact ⟨vsqrtBody, rfl, rfl, rfl, fun _ => rfl⟩
  case vabs => exact ⟨vsignBody false, rfl, rfl, rfl, fun _ => rfl⟩
  case vneg => exact ⟨vsignBody true, rfl, rfl, rfl, fun _ => rfl⟩
  case vcvt => exact ⟨vcvtBody, rfl, rfl, rfl, fun _ => rfl⟩
  case vcvti => exact ⟨vcvtiBody, rfl, rfl, rfl, fun _ => rfl⟩

theorem claim_vectorFloatOne : Claim.VectorFloatOne := by
  intro e he c s t n code w h hx hst hcode hw hf hn
  subst hcode hw
  obtain ⟨body, hexec, ha, hd, hb⟩ := vecFloatOne_body e he c s t
  rw [hexec]
  exact vecFloatLanes_result _ h hx hst hd (laneCount_fits_le (le_max_left _ _) hn)
    (by rw [hb, vf1_lanes _ hst ha hf hn])

/-! ### The fused form and integers (R130, R139) -/

theorem claim_vectorFloatFused : Claim.VectorFloatFused := by
  intro c s t n h
  refine ⟨?vfma, ?vcvtf⟩
  case vfma =>
    intro hx hst hfa hfb hn
    rw [fpFmtA] at hfa hn
    rw [fpFmtB] at hfb hn
    exact vecFloatLanes_result (body := vfmaBody) (fusedLane c t) h hx hst rfl
      (laneCount_fits_le (le_max_left _ _) hn)
      (by simp only [vfmaBody, ctxOf_pw, ctxOf_et, hfa, hfb, Bool.not_true, Bool.or_self, Bool.false_eq_true, if_false,
            vsourcesAB_streamless hst rfl, hn, oldVec_issued]
          rfl)
  case vcvtf =>
    intro hx hst hn
    subst hn
    exact vecFloatLanes_result (body := vcvtfBody) (integerLane c t) h hx hst rfl (lanes_fit _)
      (by simp only [vcvtfBody, ctxOf_c, readVec_streamless hst rfl, ctxOf_et, oldVec_issued, ctxOf_pw]
          rfl)

/-- Settles O13: the elements of each body are those of `lanesOf`, as many as its widest format allows. -/
theorem vectorFloat : Obligations.VectorFloat :=
  ⟨claim_vectorFloatTwo, claim_vectorFloatOne, claim_vectorFloatFused⟩

/-! ### Blocks (R140-R142) -/

theorem blockOf_ctxOf (s : State) (t : Thread) (o : Op) (c : Chain) :
    blockOf (ctxOf s t o c) (vecReg t c.va) = blockElements c t := rfl

/-- Elements of a block that is read back, before they are written in FP32 (R141, R142). -/
def scaledElement (c : Chain) (t : Thread) (f : Nat → FVal) (i : Nat) : FVal :=
  if lane 8 (vecReg t c.va) 127 == 0xFF then .nan false
  else fscale (f i) ((lane 8 (vecReg t c.va) 127 : Int) - 127)

theorem fwrite_scaledElement (c : Chain) (t : Thread) (f : Nat → FVal) (i : Nat) :
    fwrite (fctlOf t.pw) .fp32 (scaledElement c t f i) = readBack c t (f i) := rfl

/-- The elements and the exceptions of a block read back. -/
theorem dequant_result {body : Ctx → Thread → State → Out} {o : Op} {c : Chain} {s : State} {t : Thread} (f : Nat → FVal)
    (h : s.here = some t) (hx : executable s t o c = true) (hst : streamless o c t = true)
    (hv : (opRow o).fd.isVec = true)
    (hb : body (ctxOf s t o c) (issuedThread s t) (issued s (ctxOf s t o c)) =
      writeVec (issued s (ctxOf s t o c)) (ctxOf s t o c) (issuedThread s t)
        (dequant (ctxOf s t o c) ((List.range 32).map (scaledElement c t f))).1 true
        (dequant (ctxOf s t o c) ((List.range 32).map (scaledElement c t f))).2) :
    ∃ u τ v, issueChain o c body s = .next u ∧ u.here = some τ ∧
      LongResult o c s u t τ [.v c.vd, .flags] [.v c.vd v, .flags (readBackFlags c t f)] ∧
      ∀ i, i < 32 → lane 32 v.toNat i = (readBack c t (f i)).1 % 2 ^ 32 := by
  obtain ⟨u, τ, hu, hτ, hr⟩ := writeVec_result _ true _ body h hx (streamless_vd hst hv) hb
  have hf : (dequant (ctxOf s t o c) ((List.range 32).map (scaledElement c t f))).2 = readBackFlags c t f := by
    simp only [dequant, readBackFlags, ctxOf_pw, List.foldl_map, fwrite_scaledElement]
  rw [hf] at hr
  refine ⟨u, τ, _, hu, hτ, hr, fun i hi => ?_⟩
  simp only [dequant, List.map_map]
  rw [lane_ofNat (by rw [List.length_map, List.length_range]), getD_map_range _ hi]
  rfl

/-- Settles O14: a quantisation writes the block register at once as one long result, a reading back packs its 32
elements. -/
theorem blockQuantisation : Obligations.BlockQuantisation := by
  intro c s t h
  refine ⟨?mxq, ?tsq, ?mxdq, ?tsdq⟩
  case mxq =>
    intro hx hst hf
    exact writeVec_result _ true _ mxqBody h hx (streamless_vd hst rfl)
      (by simp only [mxqBody, ctxOf_pw, hf, bne_self_eq_false, Bool.false_eq_true, if_false, ctxOf_c,
            readVec_streamless hst rfl, blockOf_ctxOf, ctxOf_et, blockReg])
  case tsq =>
    intro hx hst
    exact writeVec_result _ true _ tsqBody h hx (streamless_vd hst rfl)
      (by simp only [tsqBody, ctxOf_c, readVec_streamless hst rfl, blockOf_ctxOf, blockReg])
  case mxdq =>
    intro hx hst
    exact dequant_result (body := mxdqBody) _ h hx hst rfl
      (by simp only [mxdqBody, ctxOf_c, readVec_streamless hst rfl, ctxOf_pw, ctxOf_et]; rfl)
  case tsdq =>
    intro hx hst
    exact dequant_result (body := tsdqBody) _ h hx hst rfl
      (by simp only [tsdqBody, ctxOf_c, readVec_streamless hst rfl]; rfl)

end Sys2Proof.Machine

end

section
/-! PROOFS. Leases and the local window: loads, stores and their traps (spec/04 R104; spec/05 R122, R123, R136, R137). -/

namespace Sys2Proof.Machine

/-! ### Leases (R122, R123) -/

theorem endStreams_none_live {l : Option Lease} (s : State) (h : ∀ x, l = some x → x.streams = []) :
    endStreams s l = s := by
  cases l with
  | none => rfl
  | some x => simp [endStreams, h x rfl]

/-- Settles O15: VLEASE looks at the thread's lease, the room and the order of the core; VFREE ends the streams and drops the
lease. -/
theorem vectorLease : Obligations.VectorLease := by
  intro c s t h
  have hlq : ((issued s (ctxOf s t .vlease c)).core s.cur.1).leaseq = s.hereCore.leaseq := by
    rw [issued_core s t .vlease c h]
  refine ⟨?granted, ?waits, ?held, ?freed, ?streamless⟩
  case granted =>
    intro hx hl hroom hq
    refine lease_result vleaseBody h hx (·.leased (immInt .vlease c).toNat) ?_ rfl _ (by unfold Kept; rfl) rfl rfl rfl
      (fun _ => rfl) rfl
    have hl' : (issuedThread s t).lease.isSome = false := by simp [issuedThread, hl]
    simp only [issuedFor] at hroom
    simp only [vleaseBody, hl', ctxOf_core, ctxOf_slot, ctxOf_immNat, hroom, hlq, hq, List.isEmpty_nil, Bool.and_self,
      Bool.false_eq_true, if_false, if_true]
  case waits =>
    intro hx hl hno
    have hl' : (issuedThread s t).lease.isSome = false := by simp [issuedThread, hl]
    have hno' : (leaseRoom ((issued s (ctxOf s t .vlease c)).core s.cur.1) (immInt .vlease c).toNat &&
        s.hereCore.leaseq.isEmpty) = false := by
      simpa [issuedFor, List.isEmpty_eq_false_iff, ← Bool.not_eq_true, imp_iff_not_or] using hno
    show issueChain .vlease c vleaseBody s = _
    rw [issueChain_executes _ h hx]
    simp only [vleaseBody, hl', ctxOf_core, ctxOf_immNat, hlq, hno', Bool.false_eq_true, if_false]
    rfl
  case held =>
    intro hx hl
    have hl' : (issuedThread s t).lease.isSome = true := Option.isSome_iff_ne_none.mpr hl
    exact issueChain_traps (body := vleaseBody) h hx (by simp only [vleaseBody, hl', if_true]; rfl)
  case freed =>
    intro hx
    exact issueChain_executes vfreeBody h hx
  case streamless =>
    intro hx hs
    exact lease_result vfreeBody h hx (fun u => { u with lease := none, parity := u.parity.filter scalarRes })
      (by simp only [vfreeBody, show (issuedThread s t).lease = t.lease from rfl, endStreams_none_live _ hs]; rfl) rfl _
      (by unfold Kept; rfl) rfl rfl rfl (fun _ => rfl) rfl

/-! ### One access (R104, R136) -/

section
variable {s : State} {t : Thread} (o : Op) (c : Chain) (h : s.here = some t)
include h

theorem issued_conflict (w : Bool) (sp : Span) :
    threadConflict ((issued s (ctxOf s t o c)).core s.cur.1) w sp = threadConflict s.hereCore w sp := by
  rw [issued_core s t o c h]
  rfl

theorem issued_lstore : ((issued s (ctxOf s t o c)).core s.cur.1).lstore = s.hereCore.lstore := by
  rw [issued_core s t o c h]

/-- A load of a range that may be read. -/
theorem windowLoad_issued {ea : Word} {n align off : Nat} (hl : Loadable s t ea n align off) :
    windowLoad ((issued s (ctxOf s t o c)).core s.cur.1)
      ((issued s (ctxOf s t o c)).domEntry s.cur.1 (issuedThread s t)) ea n align =
      .ok (s.hereCore.lstore.read off n) := by
  obtain ⟨hc, hl, hp⟩ := hl
  rw [issued_windowLoad o c h, windowLoad_ok hc hl hp]

/-- A store to a range that may be written. -/
theorem windowStore_issued {ea : Word} {n align off : Nat} (x : Nat) (hs : Storable s t ea n align off) :
    windowStore ((issued s (ctxOf s t o c)).core s.cur.1)
      ((issued s (ctxOf s t o c)).domEntry s.cur.1 (issuedThread s t)) ea n align x =
      .ok { cleanPoison ((issued s (ctxOf s t o c)).core s.cur.1) 0 off n with
        lstore := ((issued s (ctxOf s t o c)).core s.cur.1).lstore.write off n x } := by
  obtain ⟨hc, hl⟩ := hs
  exact windowStore_ok x (by rw [issued_domEntry s t o c h]; exact hc) (by rw [issued_conflict o c h]; exact hl)

end

theorem claim_windowLoads : Claim.WindowLoads := by
  intro c s t off h hp
  refine ⟨?ldl, ?vld, ?vldm⟩
  case ldl =>
    intro hx hd hl
    exact writeField_result _ 0 ldlBody h hx hd
      (by simp only [ldlBody, memAddr_issued hp, ctxOf_core, ctxOf_et, windowLoad_issued .ldl c h hl, ctxOf_c])
  case vld =>
    intro hx hst hl
    exact writeVec_result _ false 0 vldBody h hx (streamless_vd hst rfl)
      (by simp only [vldBody, memAddr_issued hp, ctxOf_core, windowLoad_issued .vld c h hl])
  case vldm =>
    intro hx hl
    exact setMask_result (body := vldmBody) _ h hx
      (by simp only [vldmBody, memAddr_issued hp, ctxOf_core, windowLoad_issued .vldm c h hl, Bool.false_eq_true,
            if_false, ctxOf_slot, ctxOf_c])

/-- A chain that stores one range. -/
theorem storeOne_result {body : Ctx → Thread → State → Out} {o : Op} {c : Chain} {s : State} {t : Thread}
    (off n x : Nat) (h : s.here = some t) (hx : executable s t o c = true)
    (hb : body (ctxOf s t o c) (issuedThread s t) (issued s (ctxOf s t o c)) =
      .done ((issued s (ctxOf s t o c)).setCore s.cur.1
        { cleanPoison ((issued s (ctxOf s t o c)).core s.cur.1) 0 off n with
          lstore := ((issued s (ctxOf s t o c)).core s.cur.1).lstore.write off n x })) :
    ∃ u τ, issueChain o c body s = .next u ∧ u.here = some τ ∧
      StoreResult o c s u t τ (storedBytes s off n x) (storedPoison s off n) fun a => off ≤ a ∧ a < off + n := by
  obtain ⟨u, τ, hu, hr⟩ := storeRange_result (o := o) (c := c) off n x h hx
  rw [issueChain_executes _ h hx, hb]
  exact ⟨u, τ, congrArg _ hu, hr⟩

theorem claim_windowStores : Claim.WindowStores := by
  intro c s t off h hp
  refine ⟨?stl, ?vst, ?vstm⟩
  case stl =>
    intro hx hd hs
    exact storeOne_result (body := stlBody) off _ _ h hx
      (by simp only [stlBody, memAddr_issued hp, ctxOf_c, readField_reg hd, issuedThread_scalar, ctxOf_core, ctxOf_et,
            windowStore_issued .stl c h _ hs])
  case vst =>
    intro hx hst hs
    exact storeOne_result (body := vstBody) off _ _ h hx
      (by simp only [vstBody, memAddr_issued hp, ctxOf_c,
            readVec_reg (t := issuedThread s t) (streamless_vd hst rfl), issuedThread_vecReg, ctxOf_core,
            windowStore_issued .vst c h _ hs])
  case vstm =>
    intro hx hs
    exact storeOne_result (body := vstmBody) off _ _ h hx
      (by simp only [vstmBody, memAddr_issued hp, ctxOf_c, issuedThread_mask, ctxOf_core,
            windowStore_issued .vstm c h _ hs])

/-! ### An access for each element (R137) -/

/-- The addresses of the active elements of a list. -/
def activeAddrs (act : Nat → Bool) (addr : Nat → Word) (l : List Nat) : List (Option Word) :=
  l.map fun i => if act i then some (addr i) else none

theorem strideAddrs_eq (c : Chain) (t : Thread) :
    strideAddrs (t.scalar c.a) (t.scalar c.b) = activeAddrs (fun _ => true) (strideAddress c t) (List.range 16) := by
  simp only [strideAddrs, activeAddrs, if_true, strideAddress]

theorem indexAddrs_eq (s : State) (t : Thread) (o : Op) (c : Chain) :
    indexAddrs (ctxOf s t o c) (issuedThread s t) (t.scalar c.a) (vecReg t c.vb) =
      activeAddrs (laneActive o c t) (indexAddress o c t) (List.range (1024 / etWidth (etCode o c))) := rfl

/-- The elements that are loaded, where every active one may be. -/
theorem gatherLanes_ok {k : CoreSt} {e : DomCopy} {n : Nat} {act : Nat → Bool} {addr : Nat → Word} {val : Nat → Nat}
    (l : List Nat) (h : ∀ i ∈ l, act i = true → windowLoad k e (addr i) n n = .ok (val i)) :
    gatherLanes k e n (activeAddrs act addr l) = .ok (l.map fun i => if act i then some (val i) else none) := by
  induction l with
  | nil => rfl
  | cons i l ih =>
    obtain ⟨hi, hl⟩ := List.forall_mem_cons.mp h
    rw [activeAddrs] at ih
    rw [activeAddrs, List.map_cons, List.map_cons]
    cases ha : act i with
    | true => simp only [if_true, gatherLanes, hi ha, ih hl]
    | false => simp only [Bool.false_eq_true, if_false, gatherLanes, ih hl]

/-- A chain that loads an element of n bytes from each of m addresses. -/
theorem gather_result {body : Ctx → Thread → State → Out} {o : Op} {c : Chain} {s : State} {t : Thread} {n m : Nat}
    {act : Nat → Bool} {addr : Nat → Word} {off : Nat → Nat} (h : s.here = some t) (hx : executable s t o c = true)
    (hst : streamless o c t = true) (hv : (opRow o).fd.isVec = true) (hw : 8 * n * m ≤ 1024)
    (hact : ∀ i, laneActive o c t i = true → act i = true)
    (hl : ∀ i, i < m → act i = true → Loadable s t (addr i) n n (off i))
    (hb : body (ctxOf s t o c) (issuedThread s t) (issued s (ctxOf s t o c)) =
      gatherInto (ctxOf s t o c) (issuedThread s t) (issued s (ctxOf s t o c)) n (activeAddrs act addr (List.range m))) :
    ∃ u τ v, issueChain o c body s = .next u ∧ u.here = some τ ∧
      LongResult o c s u t τ [.v c.vd] [.v c.vd v, .flags 0] ∧
      LanesAre o c t m (8 * n) (vecReg t c.vd) (fun i => s.hereCore.lstore.read (off i) n) v.toNat := by
  have hg := gatherLanes_ok (k := (issued s (ctxOf s t o c)).core s.cur.1)
    (e := (issued s (ctxOf s t o c)).domEntry s.cur.1 (issuedThread s t)) (n := n) (act := act) (addr := addr)
    (val := fun i => s.hereCore.lstore.read (off i) n) (List.range m)
    (fun i hi ha => windowLoad_issued o c h (hl i (List.mem_range.mp hi) ha))
  obtain ⟨u, τ, v, hu, hτ, hr, hlanes⟩ := vecLanes_result (body := body) (n := m) (w := 8 * n)
    (fun i => ((((List.range m).map fun i => if act i then some (s.hereCore.lstore.read (off i) n) else none).getD i
      none).getD 0, 0)) h hx hst hv hw
    (by simp only [hb, gatherInto, ctxOf_core, hg, List.length_map, List.length_range, oldVec_issued])
  refine ⟨u, τ, v, hu, hτ, hr, hlanes.congr fun i hi ha => ?_⟩
  simp only [List.getD_eq_getElem?_getD, List.getElem?_map, List.getElem?_range hi, Option.map_some, Option.getD_some,
    hact i ha, if_true]

theorem claim_windowGathers : Claim.WindowGathers := by
  intro c s t off h
  refine ⟨?vlds, ?vgath⟩
  case vlds =>
    intro hx hst hb hl
    exact gather_result (body := vldsBody) (act := fun _ => true) h hx hst rfl (by decide) (fun _ _ => rfl)
      (fun i hi _ => hl i hi)
      (by simp only [vldsBody, ctxOf_c, readField_reg hb, issuedThread_scalar, strideAddrs_eq])
  case vgath =>
    intro hx hst hl
    exact gather_result (body := vgathBody) (n := etBytes (etCode .vgath c)) h hx hst rfl (lanes_fit _)
      (fun _ ha => ha) hl
      (by simp only [vgathBody, ctxOf_c,
            readVec_reg (t := issuedThread s t) (streamless_vb hst rfl (usesB_always rfl)), issuedThread_vecReg,
            issuedThread_scalar, indexAddrs_eq, ctxOf_et])

/-- The elements that are stored, with their addresses. -/
def activeStores (act : Nat → Bool) (addr : Nat → Word) (n v : Nat) (l : List Nat) : List (Option Word × Nat) :=
  l.map fun i => (if act i then some (addr i) else none, lane (8 * n) v i)

section
variable {k : CoreSt} {e : DomCopy} {n v : Nat} {act : Nat → Bool} {addr : Nat → Word} {off : Nat → Nat}

theorem scatterCheck_none (l : List Nat)
    (h : ∀ i ∈ l, act i = true → windowCheck e (addr i) n n = .ok (off i) ∧ threadConflict k true ⟨0, off i, n⟩ = false) :
    scatterCheck k e n (activeStores act addr n v l) = none := by
  induction l with
  | nil => rfl
  | cons i l ih =>
    obtain ⟨hi, hl⟩ := List.forall_mem_cons.mp h
    rw [activeStores] at ih
    rw [activeStores, List.map_cons]
    cases ha : act i with
    | true =>
      obtain ⟨h1, h2⟩ := hi ha
      simp only [if_true, scatterCheck, windowStore_ok _ h1 h2, ih hl]
    | false => simp only [Bool.false_eq_true, if_false, scatterCheck, ih hl]

/-- The stores of active elements change the local store and its poison alone. -/
theorem scatterLanes_eq (l : List Nat)
    (h : ∀ i ∈ l, act i = true → windowCheck e (addr i) n n = .ok (off i) ∧ threadConflict k true ⟨0, off i, n⟩ = false) :
    ∃ p, scatterLanes k e n (activeStores act addr n v l) = { k with
      lstore := l.foldl (fun m i => if act i then m.write (off i) n (lane (8 * n) v i) else m) k.lstore, poison := p } := by
  induction l generalizing k with
  | nil => exact ⟨k.poison, rfl⟩
  | cons i l ih =>
    obtain ⟨hi, hl⟩ := List.forall_mem_cons.mp h
    unfold activeStores at ih ⊢
    rw [List.map_cons, List.foldl_cons]
    cases ha : act i with
    | true =>
      obtain ⟨h1, h2⟩ := hi ha
      simp only [if_true, scatterLanes, windowStore_ok _ h1 h2]
      exact ih (k := { cleanPoison k 0 (off i) n with lstore := k.lstore.write (off i) n (lane (8 * n) v i) }) hl
    | false =>
      simp only [Bool.false_eq_true, if_false, scatterLanes]
      exact ih hl

end

/-- A byte that no active element stores is as before. -/
theorem storedLanes_byte_other (s : State) (act : Nat → Bool) (off : Nat → Nat) (n k v a : Nat)
    (ha : ¬ InLanes act off n k a) : (storedLanes s act off n k v).byte a = s.hereCore.lstore.byte a := by
  have key : ∀ (l : List Nat) (m : Memory), (∀ i ∈ l, i < k) →
      (l.foldl (fun m i => if act i then m.write (off i) n (lane (8 * n) v i) else m) m).byte a = m.byte a := by
    intro l
    induction l with
    | nil => exact fun _ _ => rfl
    | cons i l ih =>
      intro m hl
      obtain ⟨hi, hl⟩ := List.forall_mem_cons.mp hl
      rw [List.foldl_cons, ih _ hl]
      by_cases hact : act i = true
      · rw [if_pos hact]
        refine Memory.byte_write_other _ _ ?_
        by_contra hin
        exact ha ⟨i, hi, hact, by omega, by omega⟩
      · rw [if_neg hact]
  exact key _ _ fun i hi => List.mem_range.mp hi

/-- A chain that stores an element of n bytes at each of m addresses. -/
theorem scatter_result {body : Ctx → Thread → State → Out} {o : Op} {c : Chain} {s : State} {t : Thread} {n m v : Nat}
    {act : Nat → Bool} {addr : Nat → Word} {off : Nat → Nat} (h : s.here = some t) (hx : executable s t o c = true)
    (hs : ∀ i, i < m → act i = true → Storable s t (addr i) n n (off i))
    (hb : body (ctxOf s t o c) (issuedThread s t) (issued s (ctxOf s t o c)) =
      scatterFrom (ctxOf s t o c) (issuedThread s t) (issued s (ctxOf s t o c)) n v
        (activeAddrs act addr (List.range m))) :
    ∃ u τ p, issueChain o c body s = .next u ∧ u.here = some τ ∧
      StoreResult o c s u t τ (storedLanes s act off n m v) p (InLanes act off n m) := by
  have hok : ∀ i ∈ List.range m, act i = true →
      windowCheck ((issued s (ctxOf s t o c)).domEntry s.cur.1 (issuedThread s t)) (addr i) n n = .ok (off i) ∧
      threadConflict ((issued s (ctxOf s t o c)).core s.cur.1) true ⟨0, off i, n⟩ = false := fun i hi ha => by
    obtain ⟨h1, h2⟩ := hs i (List.mem_range.mp hi) ha
    exact ⟨by rw [issued_domEntry s t o c h]; exact h1, by rw [issued_conflict o c h]; exact h2⟩
  have hxs : ((List.range (activeAddrs act addr (List.range m)).length).map fun i =>
      ((activeAddrs act addr (List.range m)).getD i none, lane (8 * n) v i)) =
      activeStores act addr n v (List.range m) := by
    simp only [activeAddrs, List.length_map, List.length_range, activeStores]
    refine List.map_congr_left fun i hi => ?_
    rw [List.getD_eq_getElem?_getD, List.getElem?_map, List.getElem?_range (List.mem_range.mp hi), Option.map_some,
      Option.getD_some]
  obtain ⟨p, hp⟩ := scatterLanes_eq (v := v) (List.range m) hok
  rw [issued_lstore o c h] at hp
  obtain ⟨u, τ, hu, hr⟩ := store_result (o := o) (c := c) (storedLanes s act off n m v) p (InLanes act off n m) h hx
    (storedLanes_byte_other s act off n m v)
  refine ⟨u, τ, p, ?_, hr⟩
  rw [issueChain_executes _ h hx, hb]
  simp only [scatterFrom, ctxOf_core, hxs, scatterCheck_none _ hok, hp]
  exact congrArg _ hu

theorem claim_windowScatters : Claim.WindowScatters := by
  intro c s t off h
  refine ⟨?vsts, ?vscat⟩
  case vsts =>
    intro hx hst hb hs
    exact scatter_result (body := vstsBody) (act := fun _ => true) h hx (fun i hi _ => hs i hi)
      (by simp only [vstsBody, ctxOf_c, readField_reg hb,
            readVec_reg (t := issuedThread s t) (streamless_vd hst rfl), issuedThread_vecReg, issuedThread_scalar,
            strideAddrs_eq])
  case vscat =>
    intro hx hst hs
    exact scatter_result (body := vscatBody) h hx hs
      (by simp only [vscatBody, ctxOf_c, readVec_reg (t := issuedThread s t) (streamless_vd hst rfl),
            readVec_reg (t := issuedThread s t) (streamless_vb hst rfl (usesB_always rfl)), issuedThread_vecReg,
            issuedThread_scalar, indexAddrs_eq, ctxOf_et])

/-- Settles O16: one load, or one for each element, of ranges that may be read. -/
theorem windowLoads : Obligations.WindowLoads := ⟨claim_windowLoads, claim_windowGathers⟩

/-- Settles O17: one store, or one for each element, changes the bytes of its range alone. -/
theorem windowStores : Obligations.WindowStores := ⟨claim_windowStores, claim_windowScatters⟩

end Sys2Proof.Machine

end

section
/-! PROOFS. Traps of the local window, the issue and the end of a chain, and the checks before it executes (spec/01 R27, R33,
R34, R36, R38; spec/04 R104). -/

namespace Sys2Proof.Machine

/-! ### Traps of the local window (R104) -/

/-- An access of the thread at hand to the local window fails with a trap: its checks fail, or a range lock forbids it. -/
def AccessFails (s : State) (t : Thread) (write : Bool) (ea : Word) (n align : Nat) (r : TrapRec) : Prop :=
  windowCheck (s.domEntry s.cur.1 t) ea n align = .error r ∨
    ∃ off, windowCheck (s.domEntry s.cur.1 t) ea n align = .ok off ∧
      threadConflict s.hereCore write ⟨0, off, n⟩ = true ∧ r = { cause := cRLOCK, xaddr := ea }

section
variable {s : State} {t : Thread} (o : Op) (c : Chain) (h : s.here = some t) {ea : Word} {n align : Nat} {r : TrapRec}
include h

theorem windowLoad_fails (hf : AccessFails s t false ea n align r) :
    windowLoad ((issued s (ctxOf s t o c)).core s.cur.1)
      ((issued s (ctxOf s t o c)).domEntry s.cur.1 (issuedThread s t)) ea n align = .error r := by
  unfold windowLoad
  rw [issued_domEntry s t o c h]
  rcases hf with hc | ⟨off, hc, hl, rfl⟩
  · rw [hc]
  · simp only [hc, issued_conflict o c h, hl, if_true]

theorem windowStore_fails (x : Nat) (hf : AccessFails s t true ea n align r) :
    windowStore ((issued s (ctxOf s t o c)).core s.cur.1)
      ((issued s (ctxOf s t o c)).domEntry s.cur.1 (issuedThread s t)) ea n align x = .error r := by
  unfold windowStore
  rw [issued_domEntry s t o c h]
  rcases hf with hc | ⟨off, hc, hl, rfl⟩
  · rw [hc]
  · simp only [hc, issued_conflict o c h, hl, if_true]

end

/-- Each instruction with one access to the local window takes the trap of its access. -/
theorem windowOps_trap : ∀ e ∈ windowOps, ∀ (c : Chain) (s : State) (t : Thread) (r : TrapRec), s.here = some t →
    executable s t e.1 c = true → portless c = true → isQueue c.d = false → streamless e.1 c t = true →
    AccessFails s t e.2.2.2 (addressOf e.1 c t) (e.2.1 (etCode e.1 c)) (e.2.2.1 (etCode e.1 c)) r →
    exec (Instr.ofOp e.1 c) s = .next (takeTrap s s.cur.1 s.cur.2 { r with xpc := t.pc }) := by
  simp only [windowOps, List.forall_mem_cons]
  refine ⟨?ldl, ?stl, ?vld, ?vst, ?vldm, ?vstm, List.forall_mem_nil _⟩ <;> intro c s t r h hx hp hd hst hf
  case ldl =>
    exact issueChain_traps (body := ldlBody) h hx
      (by simp only [ldlBody, memAddr_issued hp, ctxOf_core, ctxOf_et, windowLoad_fails .ldl c h hf]; rfl)
  case stl =>
    exact issueChain_traps (body := stlBody) h hx
      (by simp only [stlBody, memAddr_issued hp, ctxOf_core, ctxOf_c, ctxOf_et, readField_reg hd,
            windowStore_fails .stl c h _ hf]; rfl)
  case vld =>
    exact issueChain_traps (body := vldBody) h hx
      (by simp only [vldBody, memAddr_issued hp, ctxOf_core, windowLoad_fails .vld c h hf]; rfl)
  case vst =>
    exact issueChain_traps (body := vstBody) h hx
      (by simp only [vstBody, memAddr_issued hp, ctxOf_c, readVec_reg (t := issuedThread s t) (streamless_vd hst rfl),
            ctxOf_core, windowStore_fails .vst c h _ hf]; rfl)
  case vldm =>
    exact issueChain_traps (body := vldmBody) h hx
      (by simp only [vldmBody, memAddr_issued hp, ctxOf_core, windowLoad_fails .vldm c h hf]; rfl)
  case vstm =>
    exact issueChain_traps (body := vstmBody) h hx
      (by simp only [vstmBody, memAddr_issued hp, ctxOf_c, ctxOf_core, windowStore_fails .vstm c h _ hf]; rfl)

/-- The offset of an address in the local window. -/
theorem bits_window (ea : Word) : bits ea 51 0 = ea.toNat % 2 ^ 52 := by
  simp [bits]

/-- Settles O18: the checks of an access come in the order of `windowCheck`, and its range locks after them. -/
theorem windowTraps : Obligations.WindowTraps := by
  intro e he c s t ea n h hx hp hd hst hea hn
  subst hea hn
  have key := fun r => windowOps_trap e he c s t r h hx hp hd hst
  refine ⟨?guard, ?align, ?lock⟩
  case guard =>
    intro hg
    refine key { cause := cLGUARD, xaddr := addressOf e.1 c t } (.inl ?_)
    rcases hg with hw | ⟨ha, hg⟩
    · simp [windowCheck, hw]
    · cases hw : isWindow (addressOf e.1 c t) <;> simp [windowCheck, bits_window, hw, ha, hg, -Nat.reducePow]
  case align =>
    intro hw ha
    exact key { cause := cALIGN, xaddr := addressOf e.1 c t } (.inl (by simp [windowCheck, bits_window, hw, ha, -Nat.reducePow]))
  case lock =>
    intro hw ha hg hl
    exact key { cause := cRLOCK, xaddr := addressOf e.1 c t }
      (.inr ⟨_, by simp [windowCheck, bits_window, hw, ha, hg, -Nat.reducePow], hl, rfl⟩)

/-! ### The issue and the end of a chain (R33, R34, R38) -/

/-- The end of a chain is the same seen from any state with the same thread at hand. -/
theorem goesTo_cur {s e : State} (h : e.cur = s.cur) (t : Thread) (o : Op) (c : Chain) (u : State) (pc : Nat) :
    goesTo s t o c u pc = goesTo e t o c u pc := by
  simp only [goesTo, ctxOf, h]


/-- Settles O19: the issue writes the cycle and the thread, the end of a chain the thread alone. -/
theorem issueAndEnd : Obligations.IssueAndEnd := by
  intro o c s t h
  have hframed : Framed s (issuedFor s t o c) := Framed.issued o c h
  refine ⟨hframed, by rw [State.here, hframed.cur]; exact issued_here o c h, ?_⟩
  intro e t' pc hcur he hr
  rw [goesTo_cur hcur]
  obtain ⟨hτ, hf⟩ := conclude_jump (s := e) (t := t) (o := o) (c := c) pc he (Framed.refl e)
  exact ⟨endedThread c t' pc, hτ, hf, kept_ended c pc (by unfold Kept; rfl), goesOn_ended c t' pc hr,
    endedThread_pw c t' pc, fun n _ _ => endedThread_greg c t' pc n⟩

/-! ### The checks before the execution (R27, R30, R36, R38) -/

/-- Every coded instruction is the issue of a chain with a body of its own (R38). -/
theorem exec_ofOp (o : Op) (c : Chain) : ∃ body, exec (Instr.ofOp o c) = issueChain o c body := by
  cases o
  case nop => exact ⟨fun _ _ s => .done s, rfl⟩
  case sext => exact ⟨fun x => alu1 (fun a => extendTo64 x.et a.toNat) x, rfl⟩
  case rdpw => exact ⟨fun x _ s => writeField s x x.c.d (x.pw ||| 1) false 0, rfl⟩
  case rdcyc => exact ⟨fun x _ s => writeField s x x.c.d (word (s.cyc x.core)) false 0, rfl⟩
  case pnot => exact ⟨fun x t s => writePred s x x.c.d.toNat (!pwPred t.pw x.c.a.toNat) false 0, rfl⟩
  all_goals exact ⟨_, rfl⟩

/-- What the issue of a chain concludes with, after the checks that come before its guard. -/
def afterHazard (o : Op) (c : Chain) (body : Ctx → Thread → State → Out) (s : State) (t : Thread) : Out :=
  if guardParity t c then (ctxOf s t o c).trap cPOISON 1
  else if !guardHolds t.pw o c then .done (issued s (ctxOf s t o c))
  else match portWait s s.cur.1 s.cur.2 o c with
    | some w => .wait w
    | none => orPoison (ctxOf s t o c) (body (ctxOf s t o c) (issuedThread s t) (issued s (ctxOf s t o c)))
        (brokenSource s s.cur.1 t o c)

/-- The checks of a chain in their order. -/
theorem issueChain_checks {o : Op} {c : Chain} {s : State} {t : Thread} (body : Ctx → Thread → State → Out)
    (h : s.here = some t) (hr : t.isReady = true) :
    issueChain o c body s = .next (conclude s (ctxOf s t o c)
      (if (chainErr o c).isSome then (ctxOf s t o c).trap cILLOP
      else match threadErr s s.cur.1 t o c with
        | some cause => (ctxOf s t o c).trap cause
        | none => if hazard t.span o c then (ctxOf s t o c).trap cHAZARD else afterHazard o c body s t)) := by
  have h' : s.thread? s.cur.1 s.cur.2 = some t := h
  have hi := issued_here o c h
  simp only [ctxOf] at hi
  simp only [issueChain, h', hr, Bool.not_true, Bool.false_eq_true, if_false, ctxOf, afterHazard, hi] <;> rfl

/-- A broken source raises POISON, or the trap of the execution that comes before it (R217). -/
theorem orPoison_traps (x : Ctx) (out : Out) (p : TrapRec) :
    ∃ r, orPoison x out (some p) = .trap r ∧ (r = { p with xpc := x.start } ∨ r.cause < cPOISON) := by
  cases out with
  | trap r =>
    by_cases hr : r.cause < cPOISON
    · exact ⟨r, if_pos hr, .inr hr⟩
    · exact ⟨_, if_neg hr, .inl rfl⟩
  | _ => exact ⟨_, rfl, .inl rfl⟩

/-- A chain that reaches its queue ports and whose source is broken traps. -/
theorem afterHazard_broken {o : Op} {c : Chain} {s : State} {t : Thread} {p : TrapRec} (body : Ctx → Thread → State → Out)
    (hg : guardParity t c = false) (hh : guardHolds t.pw o c = true) (hp : portWait s s.cur.1 s.cur.2 o c = none)
    (hb : brokenSource s s.cur.1 t o c = some p) :
    ∃ r, afterHazard o c body s t = .trap r ∧ (r = { p with xpc := t.pc } ∨ r.cause < cPOISON) := by
  simp only [afterHazard, hg, hh, hp, hb, Bool.false_eq_true, Bool.not_true, if_false]
  exact orPoison_traps _ _ _

/-- Settles O20: each check is a branch of `issueChain`, in the order of R38. -/
theorem checksBeforeExecution : Obligations.ChecksBeforeExecution := by
  intro o c s t h hr
  obtain ⟨body, hbody⟩ := exec_ofOp o c
  rw [hbody, issueChain_checks body h hr]
  refine ⟨?illop, ?field, fun hc ht => ⟨?hazard, ?parity, ?guard, fun hz hg hh => ⟨?port, ?poison, ?queue⟩⟩⟩
  case illop =>
    intro hc
    rw [if_pos (Option.isSome_iff_ne_none.mpr hc)]
    rfl
  case field =>
    intro hc cause ht
    simp only [hc, ht, Option.isSome_none, Bool.false_eq_true, if_false]
    rfl
  all_goals simp only [hc, ht, Option.isSome_none, Bool.false_eq_true, if_false]
  case hazard =>
    intro hz
    rw [if_pos hz]
    rfl
  case parity =>
    intro hz hg
    simp only [hz, afterHazard, hg, Bool.false_eq_true, if_false, if_true]
    rfl
  case guard =>
    intro hz hg hh
    simp only [hz, afterHazard, hg, hh, Bool.not_false, Bool.false_eq_true, if_false, if_true]
    rfl
  case port =>
    intro w hw
    simp only [hz, afterHazard, hg, hh, hw, Bool.not_true, Bool.false_eq_true, if_false]
    rfl
  case poison =>
    intro hp hb
    obtain ⟨r, hr, hcase⟩ := afterHazard_broken (p := { cause := cPOISON, detail := 1 }) body hg hh hp
      (by simp only [brokenSource, hb, if_true])
    exact ⟨r, by simp only [hz, hr, Bool.false_eq_true, if_false]; rfl, hcase⟩
  case queue =>
    intro hp hn hb
    obtain ⟨r, hr, hcase⟩ := afterHazard_broken (p := { cause := cPOISON }) body hg hh hp
      (by simp only [brokenSource, hn, hb, Bool.false_eq_true, if_false, if_true])
    exact ⟨r, by simp only [hz, hr, Bool.false_eq_true, if_false]; rfl, hcase⟩

end Sys2Proof.Machine

end

section
/-! PROOFS. How a chain concludes, its trap and its return, and the ends of threads (spec/04 R107, R108; spec/07 R219). -/

namespace Sys2Proof.Machine

/-! ### The outcome of a chain, by what its body answers -/

section
variable {body : Ctx → Thread → State → Out} {o : Op} {c : Chain} {s e : State} {t : Thread}

theorem issueChain_done (h : s.here = some t) (hx : executable s t o c = true)
    (hb : body (ctxOf s t o c) (issuedThread s t) (issuedFor s t o c) = .done e) :
    issueChain o c body s = .next (endsIn s t o c e) := by
  rw [issueChain_executes _ h hx]
  exact congrArg (fun out => Host.Outcome.next (conclude s (ctxOf s t o c) out)) hb

theorem issueChain_jump {pc : Nat} (h : s.here = some t) (hx : executable s t o c = true)
    (hb : body (ctxOf s t o c) (issuedThread s t) (issuedFor s t o c) = .jump e pc) :
    issueChain o c body s = .next (goesTo s t o c e pc) := by
  rw [issueChain_executes _ h hx]
  exact congrArg (fun out => Host.Outcome.next (conclude s (ctxOf s t o c) out)) hb

theorem issueChain_over (h : s.here = some t) (hx : executable s t o c = true)
    (hb : body (ctxOf s t o c) (issuedThread s t) (issuedFor s t o c) = .over e) :
    issueChain o c body s = .next e := by
  rw [issueChain_executes _ h hx]
  exact congrArg (fun out => Host.Outcome.next (conclude s (ctxOf s t o c) out)) hb

theorem issueChain_waits {w : Wait} (h : s.here = some t) (hx : executable s t o c = true)
    (hb : body (ctxOf s t o c) (issuedThread s t) (issuedFor s t o c) = .wait w) :
    issueChain o c body s = .next (blockAt s (ctxOf s t o c) w) := by
  rw [issueChain_executes _ h hx]
  exact congrArg (fun out => Host.Outcome.next (conclude s (ctxOf s t o c) out)) hb

theorem issueChain_holds {st : Status} (h : s.here = some t) (hx : executable s t o c = true)
    (hb : body (ctxOf s t o c) (issuedThread s t) (issuedFor s t o c) = hold e (ctxOf s t o c) st) :
    issueChain o c body s = .next (heldIn s t e st) := by
  rw [issueChain_executes _ h hx]
  exact congrArg (fun out => Host.Outcome.next (conclude s (ctxOf s t o c) out)) hb

end

/-- A parked thread with nothing pending is ready in a new span (R35). -/
theorem settle_parked {s : State} {c i : Nat} {t : Thread} {y : Bool} (hs : t.status = .parked y) (hp : t.pend = []) :
    settle (s.setThread c i t) c i =
      (s.setThread c i { t with span := [], status := .ready, order := if y then s.nextId else t.order }).bump := by
  simp only [settle, State.thread_setThread, hs, hp, List.isEmpty_nil, if_true, State.setThread_setThread,
    State.setThread_nextId, Thread.newSpan]

/-- A parked thread with something pending stays so. -/
theorem settle_pending {s : State} {c i : Nat} {t : Thread} {y : Bool} (hs : t.status = .parked y) (hp : t.pend ≠ []) :
    settle (s.setThread c i t) c i = s.setThread c i t := by
  simp only [settle, State.thread_setThread, hs, List.isEmpty_iff, hp, if_false]

/-! ### TRAP and TRET (R219) -/

/-- TRET inside a handler, with a good predicate word. -/
theorem tretBody_returns {t : Thread} (x : Ctx) (e : State) (hi : t.inHandler = true) (hg : t.gates.length ≤ t.entryDepth)
    (hp : pwReserved t.xpw = false) (hf : fselOk (pwFsel t.xpw) = true) :
    tretBody x t e = .over (if x.c.marker then
      settle (e.setThread x.core x.slot { leaveHandler t with status := .parked false }) x.core x.slot
      else e.setThread x.core x.slot (leaveHandler t)) := by
  simp only [tretBody, hi, Nat.not_lt.mpr hg, hp, hf, Bool.not_true, decide_false, Bool.or_self, Bool.false_eq_true,
    if_false, State.modThread_setThread]

/-- Settles O22: TRET writes the thread once; its marker parks it, which a thread with nothing pending leaves at once. -/
theorem trapAndReturn : Obligations.TrapAndReturn := by
  intro c s t h
  refine ⟨fun hx => issueChain_traps (body := trapBody) h hx rfl, ?returns, ?outside, ?badret⟩
  case returns =>
    intro hx hi hg hp hf e he
    have hb := tretBody_returns (t := issuedThread s t) (ctxOf s t .tret c) (issuedFor s t .tret c) hi hg hp hf
    have he' : ∀ st, e st = (issuedFor s t .tret c).setThread s.cur.1 s.cur.2
        { leaveHandler (issuedThread s t) with status := st } := fun st => by
      rw [he, modHere_issued _ _ _ h]; rfl
    refine ⟨fun hm => ?_, fun hm hp => ?_, fun hm hp => ?_⟩
    · rw [he']
      exact issueChain_over (body := tretBody) h hx (by simp only [hb, ctxOf_c, hm, Bool.false_eq_true, if_false]; rfl)
    · rw [he']
      refine issueChain_over (body := tretBody) h hx ?_
      simp only [hb, ctxOf_c, ctxOf_core, ctxOf_slot, hm, if_true]
      exact congrArg Out.over (settle_parked (y := false) rfl hp)
    · rw [he']
      refine issueChain_over (body := tretBody) h hx ?_
      simp only [hb, ctxOf_c, ctxOf_core, ctxOf_slot, hm, if_true]
      exact congrArg Out.over (settle_pending (y := false) rfl hp)
  case outside =>
    intro hx hn
    have hn' : (!(issuedThread s t).inHandler ||
        decide ((issuedThread s t).entryDepth < (issuedThread s t).gates.length)) = true := by
      rcases hn with hi | hg
      · simp [issuedThread, hi]
      · simp [issuedThread, hg]
    exact issueChain_traps (body := tretBody) h hx (by simp only [tretBody, hn', if_true]; rfl)
  case badret =>
    intro hx hi hg hbad
    have hn : (!(issuedThread s t).inHandler ||
        decide ((issuedThread s t).entryDepth < (issuedThread s t).gates.length)) = false := by
      simp [issuedThread, hi, hg]
    have hbad' : (pwReserved (issuedThread s t).xpw || !fselOk (pwFsel (issuedThread s t).xpw)) = true := by
      simpa [issuedThread] using hbad
    exact issueChain_traps (body := tretBody) h hx (by
      simp only [tretBody, hn, hbad', Bool.false_eq_true, if_false, if_true]; rfl)

/-! ### What leaves the threads of every core -/

/-- Every thread of every core is as before, and the thread at hand is the same one. -/
def SameThreads (s u : State) : Prop := u.cur = s.cur ∧ ∀ c i, u.thread? c i = s.thread? c i

theorem SameThreads.refl (s : State) : SameThreads s s := ⟨rfl, fun _ _ => rfl⟩

theorem SameThreads.trans {s u v : State} (h : SameThreads s u) (h' : SameThreads u v) : SameThreads s v :=
  ⟨h'.1.trans h.1, fun c i => (h'.2 c i).trans (h.2 c i)⟩

theorem SameThreads.foldl {α : Type} {f : State → α → State} (hf : ∀ s x, SameThreads s (f s x)) (l : List α) (s : State) :
    SameThreads s (l.foldl f s) := by
  induction l generalizing s with
  | nil => exact SameThreads.refl s
  | cons x l ih => exact (hf s x).trans (ih _)

theorem SameThreads.setCore {s : State} {c : Nat} {k : CoreSt} (hk : k.threads = (s.core c).threads) :
    SameThreads s (s.setCore c k) := by
  refine ⟨rfl, fun d i => ?_⟩
  by_cases hd : d = c
  · subst hd
    simp only [State.thread?, State.core_setCore, hk]
  · simp only [State.thread?, State.core_setCore_other _ _ hd]

theorem SameThreads.modCore (s : State) (c : Nat) {f : CoreSt → CoreSt} (hf : ∀ k, (f k).threads = k.threads) :
    SameThreads s (s.modCore c f) := SameThreads.setCore (hf _)

/-- An update of every core that leaves its threads. -/
theorem SameThreads.mapCores (s : State) {f : CoreSt → CoreSt} (hf : ∀ k, (f k).threads = k.threads) :
    SameThreads s { s with cores := s.cores.map fun c => (c.1, f c.2) } := by
  refine ⟨rfl, fun c i => ?_⟩
  have hmap : ∀ l : Tab CoreSt, tget (l.map fun c => (c.1, f c.2)) c = (tget l c).map f := by
    intro l
    induction l with
    | nil => rfl
    | cons e l ih =>
      obtain ⟨k, v⟩ := e
      simp only [List.map_cons, tget]
      split
      · rfl
      · exact ih
  simp only [State.thread?, State.core, hmap]
  cases tget s.cores c with
  | none => rfl
  | some k => exact congrArg (tget · i) (hf k)

theorem SameThreads.countSent (s : State) (p : Packet) : SameThreads s (s.countSent p) := by
  unfold State.countSent
  split
  · exact SameThreads.refl s
  · split
    · exact SameThreads.modCore s _ fun _ => rfl
    · exact SameThreads.refl s

theorem SameThreads.send (s : State) (p : Packet) : SameThreads s (s.send p) := SameThreads.countSent s p

theorem SameThreads.faultMessage (s : State) (e : DomCopy) (origin kind cause detail dom task : Nat) (addr w3 : Word) :
    SameThreads s (s.faultMessage e origin kind cause detail dom task addr w3) := by
  unfold State.faultMessage
  split
  · exact SameThreads.send s _
  · exact SameThreads.send s _

theorem SameThreads.reportExit (s : State) (c : Nat) (x : Gone) : SameThreads s (reportExit s c x) := by
  unfold Machine.reportExit
  split
  · exact (SameThreads.faultMessage s _ _ _ _ _ _ _ _ _).trans (SameThreads.send _ _)
  · exact SameThreads.send s _

theorem SameThreads.reportExits (s : State) (c : Nat) : SameThreads s (reportExits s c) := by
  refine SameThreads.trans (u := s.setCore c { s.core c with gone := (s.core c).gone.filter fun x => !x.sends.isEmpty })
    (SameThreads.setCore rfl) ?_
  exact SameThreads.foldl (fun s x => SameThreads.reportExit s c x) _ _

theorem SameThreads.pieceDropped (s : State) (owner : LockOwner) (p : Piece) : SameThreads s (pieceDropped s owner p) :=
  SameThreads.mapCores s (f := fun k => pieceDone k owner false p) fun _ => rfl

theorem SameThreads.releaseEverywhere (s : State) (owner : LockOwner) : SameThreads s (releaseEverywhere s owner) :=
  SameThreads.mapCores s (f := fun k => releaseLocks k owner none) fun _ => rfl

theorem SameThreads.endStreams (s : State) (l : Option Lease) : SameThreads s (endStreams s l) := by
  cases l with
  | none => exact SameThreads.refl s
  | some l =>
    refine SameThreads.foldl (fun s e => ?_) _ s
    unfold endStream
    split
    · exact SameThreads.foldl (fun s p => SameThreads.pieceDropped s _ p) _ s
    · exact SameThreads.releaseEverywhere s _

/-! ### EXIT and YIELD (R107, R108) -/

/-- Of the threads of a core only the one in a slot may have changed. -/
def OthersKept (c i : Nat) (s u : State) : Prop := u.cur = s.cur ∧ ∀ j, j ≠ i → u.thread? c j = s.thread? c j

theorem OthersKept.trans {c i : Nat} {s u v : State} (h : OthersKept c i s u) (h' : OthersKept c i u v) :
    OthersKept c i s v := ⟨h'.1.trans h.1, fun j hj => (h'.2 j hj).trans (h.2 j hj)⟩

theorem SameThreads.others {s u : State} (h : SameThreads s u) (c i : Nat) : OthersKept c i s u :=
  ⟨h.1, fun j _ => h.2 c j⟩

theorem OthersKept.modThread (s : State) (c i : Nat) (f : Thread → Thread) : OthersKept c i s (s.modThread c i f) := by
  unfold State.modThread
  split
  · exact (SameThreads.refl s).others c i
  · exact ⟨rfl, fun j hj => State.thread_setThread_other s c _ hj⟩

theorem OthersKept.enterMatrix (s : State) (c i : Nat) (t : Thread) (kind : MKind) (w0 w1 : Word) (posts : Bool) :
    OthersKept c i s (enterMatrix s c i t kind w0 w1 posts) := by
  unfold Machine.enterMatrix
  refine OthersKept.trans ?_ (OthersKept.modThread _ c i _)
  apply SameThreads.others
  exact SameThreads.setCore rfl

theorem OthersKept.leaveHalf (s : State) (c i : Nat) (t : Thread) : OthersKept c i s (leaveHalf s c i t) := by
  have hs := (SameThreads.refl s).others c i
  unfold Machine.leaveHalf
  split
  · exact hs
  · split
    · exact OthersKept.enterMatrix s c i t _ _ _ _
    · exact hs

theorem thread_delThread (s : State) (c i j : Nat) :
    (s.delThread c i).thread? c j = if j = i then none else s.thread? c j := by
  simp only [State.thread?, State.delThread, State.core_modCore]
  by_cases hj : j = i
  · rw [if_pos hj, hj]; exact tget_tdel_same _ _
  · rw [if_neg hj]; exact tget_tdel_other _ hj

/-- A thread whose results are known leaves its slot, and no other thread of its core changes. -/
theorem endThread_leaves {s : State} {c i : Nat} {t : Thread} (h : s.thread? c i = some t) (hk : t.allKnown = true) :
    (endThread s c i).cur = s.cur ∧
      ∀ j, (endThread s c i).thread? c j = if j = i then none else s.thread? c j := by
  have hbefore := ((SameThreads.endStreams s t.lease).others c i).trans (OthersKept.leaveHalf _ c i t)
  have hafter : ∀ (v : State) (f : CoreSt → CoreSt), (∀ k, (f k).threads = k.threads) →
      SameThreads v (reportExits (v.modCore c f) c) := fun v f hf =>
    (SameThreads.modCore v c hf).trans (SameThreads.reportExits _ c)
  simp only [endThread, h, hk, Bool.not_true, Bool.false_eq_true, if_false]
  obtain ⟨hcur, hth⟩ := hafter ((leaveHalf (endStreams s t.lease) c i t).delThread c i)
    (fun k => { k with
      gone := k.gone ++ [⟨t.uid, i, t.dom, t.task, t.group, t.sends, t.frec, t.fraddr⟩], sinkq := k.sinkq ++ t.beats })
    (fun _ => rfl)
  refine ⟨hcur.trans hbefore.1, fun j => ?_⟩
  rw [hth, thread_delThread]
  by_cases hj : j = i
  · rw [if_pos hj, if_pos hj]
  · rw [if_neg hj, if_neg hj, hbefore.2 j hj]

/-- A thread with results unknown only waits. -/
theorem endThread_waits {s : State} {c i : Nat} {t : Thread} (h : s.thread? c i = some t) (hk : t.allKnown = false) :
    endThread s c i = s := by
  simp [endThread, h, hk]

/-- EXIT outside a gate call. -/
theorem exitBody_ends {t : Thread} (x : Ctx) (e : State) (hg : t.gates = []) :
    exitBody x t e = .over (endThread (e.setThread x.core x.slot { t with status := .exiting }) x.core x.slot) := by
  simp [exitBody, hg]

/-- Settles O23: EXIT takes the thread off its slot and leaves the others; YIELD parks the thread. -/
theorem threadEnds : Obligations.ThreadEnds := by
  intro c s t h
  refine ⟨?ends, ?waits, ?gate, ?parks, ?goesOn⟩
  case ends =>
    intro hx hg hk
    have hframed := Framed.issued .exit c h
    obtain ⟨hcur, hth⟩ := endThread_leaves (t := { issuedThread s t with status := .exiting })
      (State.thread_setThread (issuedFor s t .exit c) s.cur.1 s.cur.2 _) hk
    refine ⟨_, issueChain_over (body := exitBody) h hx (exitBody_ends _ _ hg), ?_, fun i hi => ?_⟩
    · have hcur' := hcur.trans hframed.cur
      simp only [ctxOf_core, ctxOf_slot, State.here, hcur', hth, if_true]
    · obtain ⟨_, _, _, hothers, _⟩ := hframed
      simp only [ctxOf_core, ctxOf_slot, hth, hi, if_false, State.thread_setThread_other _ _ _ hi]
      exact hothers i hi
  case waits =>
    intro hx hg hk
    refine issueChain_over (body := exitBody) h hx ?_
    rw [exitBody_ends (t := issuedThread s t) _ _ hg, modHere_issued _ _ _ h]
    exact congrArg Out.over (endThread_waits (State.thread_setThread _ _ _ _) hk)
  case gate =>
    intro hx hg
    have hg' : (!(issuedThread s t).gates.isEmpty) = true := by simpa [issuedThread] using hg
    exact ⟨_, issueChain_traps (body := exitBody) h hx (by simp only [exitBody, hg', if_true]; rfl)⟩
  case parks =>
    intro hx hp
    refine issueChain_over (body := yieldBody) h hx ?_
    rw [modHere_issued _ _ _ h]
    exact congrArg Out.over (settle_pending (y := true) rfl hp)
  case goesOn =>
    intro hx hp
    refine issueChain_over (body := yieldBody) h hx ?_
    rw [modHere_issued _ _ _ h, ← issuedFor_nextId .yield c h]
    exact congrArg Out.over (settle_parked (y := true) rfl hp)

end Sys2Proof.Machine

end

section
/-! PROOFS. Gate calls and returns, and the control registers (spec/07 R211-R214, R217, R220; spec/15 R329, R330, R347). -/

namespace Sys2Proof.Machine

/-! ### Gates (R211-R214, R347) -/

theorem keepRegs_eq (g : Vector Word 10) (mask : Nat) : keepRegs g mask = maskedRegs g mask := by
  unfold keepRegs maskedRegs
  congr 1
  funext i
  have hbit : (bit (BitVec.ofNat 10 mask) i.val = true) = (mask / 2 ^ i.val % 2 = 1) := by
    have hi := i.isLt
    rw [bit, BitVec.getLsbD_ofNat, Nat.testBit_eq_decide_div_mod_eq]
    simp [hi]
  simp only [hbit]

theorem useDom_threads (k : CoreSt) (d : Nat) : (useDom k d).threads = k.threads := by
  unfold useDom
  split <;> rfl

/-- Taking a copy of a domain does not change the domain. -/
theorem domOf_useDom (k : CoreSt) (d : Nat) : domOf (useDom k d) d = domOf k d := by
  unfold useDom
  cases h : tget k.doms d with
  | some e => rfl
  | none => simp [domOf, h]

/-- An update of the core at hand and then of the thread at hand of the state in which its chain executes. -/
theorem modHere_modHereCore_issued {s : State} {t : Thread} (o : Op) (c : Chain) {f : CoreSt → CoreSt} (g : Thread → Thread)
    (hf : ∀ k, (f k).threads = k.threads) (h : s.here = some t) :
    ((issuedFor s t o c).modHereCore f).modHere g =
      ((issuedFor s t o c).modCore s.cur.1 f).setThread s.cur.1 s.cur.2 (g (issuedThread s t)) := by
  rw [modHereCore_issued _ _ _ h]
  unfold State.modHere
  rw [State.modCore_cur, issuedFor_cur _ _ h]
  exact State.modThread_eq g (((SameThreads.modCore _ _ hf).2 _ _).trans (issued_here o c h))

section
variable {s : State} {t : Thread} {c : Chain} (h : s.here = some t)
include h

/-- The gate entry that the executing GCALL reads. -/
theorem gateEntry_issued : gateEntry ((issuedFor s t .gcall c).core s.cur.1) (s.domEntry s.cur.1 t)
    (immInt .gcall c).toNat = calledGate c s t := by
  have hl : ((issuedFor s t .gcall c).core s.cur.1).lstore = s.hereCore.lstore := issued_lstore .gcall c h
  simp only [gateEntry, calledGate, hl]

/-- What GCALL does, in terms of the state before its issue. -/
theorem gcallBody_issued : gcallBody (ctxOf s t .gcall c) (issuedThread s t) (issuedFor s t .gcall c) =
    if (s.domEntry s.cur.1 t).gtn ≤ (immInt .gcall c).toNat || !(calledGate c s t).ok then
      (ctxOf s t .gcall c).trap cGATE 1 (word (immInt .gcall c).toNat)
    else if !(calledGate c s t).admits t.dom then (ctxOf s t .gcall c).trap cGATE 2 (word (immInt .gcall c).toNat)
    else if 4 ≤ t.gates.length then (ctxOf s t .gcall c).trap cGATE 3 (word (immInt .gcall c).toNat)
    else if !(calledDom c s t).ok then (ctxOf s t .gcall c).trap cGATE 7 (word (immInt .gcall c).toNat)
    else if !(calledGate c s t).window (calledDom c s t) then
      (ctxOf s t .gcall c).trap cGATE 6 (word (immInt .gcall c).toNat)
    else .jump (((issuedFor s t .gcall c).modCore s.cur.1 fun k => useDom k (bits (calledGate c s t).w0 55 44)).setThread
      s.cur.1 s.cur.2 (enterGate (ctxOf s t .gcall c) (issuedThread s t) (calledGate c s t)))
      (bits (calledGate c s t).w0 43 26) := by
  have hd : (issuedFor s t .gcall c).domEntry s.cur.1 (issuedThread s t) = s.domEntry s.cur.1 t := issued_domEntry _ _ _ _ h
  simp only [gcallBody, ctxOf_core, ctxOf_immNat, ctxOf_slot, gateEntry_issued h, hd, domOf_useDom, issuedFor_domOf _ _ _ h]
  rfl

end

theorem claim_gateRefused : Claim.GateRefused := by
  intro c s t h hx
  have trapped : ∀ detail, gcallBody (ctxOf s t .gcall c) (issuedThread s t) (issuedFor s t .gcall c) =
      (ctxOf s t .gcall c).trap cGATE detail (word (immInt .gcall c).toNat) →
      exec (.gcall c) s = .next (gateTrap c s t detail) := fun detail hb => issueChain_traps (body := gcallBody) h hx hb
  refine ⟨?entry, fun hn hok => ⟨?admits, fun hadm => ⟨?depth, fun hlen => ⟨?target, ?window⟩⟩⟩⟩
  case entry =>
    intro hbad
    refine trapped 1 ?_
    rw [gcallBody_issued h, if_pos]
    rcases hbad with hn | hok
    · simp [hn]
    · simp [hok]
  all_goals
    have hentry : ((s.domEntry s.cur.1 t).gtn ≤ (immInt .gcall c).toNat || !(calledGate c s t).ok) = false := by
      simp [Nat.not_le.mpr hn, hok]
  case admits =>
    intro hadm
    refine trapped 2 ?_
    simp only [gcallBody_issued h, hentry, hadm, Bool.not_false, Bool.false_eq_true, if_false, if_true]
  case depth =>
    intro hlen
    refine trapped 3 ?_
    simp only [gcallBody_issued h, hentry, hadm, hlen, Bool.not_true, Bool.false_eq_true, if_false, if_true]
  case target =>
    intro hd
    refine trapped 7 ?_
    simp only [gcallBody_issued h, hentry, hadm, Nat.not_le.mpr hlen, hd, Bool.not_true, Bool.not_false,
      Bool.false_eq_true, if_false, if_true]
  case window =>
    intro hd hw
    refine trapped 6 ?_
    simp only [gcallBody_issued h, hentry, hadm, Nat.not_le.mpr hlen, hd, hw, Bool.not_true, Bool.not_false,
      Bool.false_eq_true, if_false, if_true]

theorem claim_gateCalls : Claim.GateCalls := by
  intro c s t h
  refine ⟨?call, fun hx f rest hf => ⟨?plain, ?unwinds⟩⟩
  case call =>
    intro hx hn hok hadm hlen hd hw
    have hentry : ((s.domEntry s.cur.1 t).gtn ≤ (immInt .gcall c).toNat || !(calledGate c s t).ok) = false := by
      simp [Nat.not_le.mpr hn, hok]
    refine issueChain_jump (body := gcallBody) h hx ?_
    rw [modHere_modHereCore_issued _ _ _ (fun k => useDom_threads k _) h]
    simp only [gcallBody_issued h, hentry, hadm, Nat.not_le.mpr hlen, hd, hw, Bool.not_true, Bool.false_eq_true, if_false,
      enterGate, keepRegs_eq, ctxOf_next, Thread.hasLease, Bool.and_eq_true, beq_iff_eq]
    rfl
  case plain =>
    intro hin
    have hin' : ((issuedThread s t).inHandler && (issuedThread s t).gates.length == (issuedThread s t).entryDepth) = false := by
      rcases hin with hin | hin <;> simp [issuedThread, hin]
    refine issueChain_jump (body := gretBody) h hx ?_
    rw [modHere_modHereCore_issued _ _ _ (fun k => useDom_threads k _) h]
    have hf' : (issuedThread s t).gates = f :: rest := hf
    simp only [gretBody, hf', leaveGate]
    simp only [← hf', hin', Bool.false_eq_true, if_false, keepRegs_eq, beq_iff_eq]
    rfl
  case unwinds =>
    intro hin hlen
    have hin' : ((issuedThread s t).inHandler && (issuedThread s t).gates.length == (issuedThread s t).entryDepth) = true := by
      simp [issuedThread, hin, hlen]
    refine issueChain_jump (body := gretBody) h hx ?_
    rw [modHere_modHereCore_issued _ _ _ (fun k => useDom_threads k _) h]
    have hf' : (issuedThread s t).gates = f :: rest := hf
    simp only [gretBody, hf', leaveGate]
    simp only [← hf', hin', if_true, beq_iff_eq]
    rfl

/-- Settles O24: GCALL and GRET change the core's copy of a domain and the thread; a refused GCALL is a trap. -/
theorem gates : Obligations.Gates := ⟨claim_gateCalls, claim_gateRefused⟩

/-! ### Control registers (R220) -/

/-- What CTLR reads in the state in which it executes is what stood there before its issue. -/
theorem readCtl_issued {s : State} {t : Thread} (c : Chain) (h : s.here = some t) : ∀ e ∈ controlValues s t,
    readCtl (issuedFor s t .ctlr c) s.cur.1 (issuedThread s t) e.1 = e.2 := by
  have hk := issued_core s t .ctlr c h
  have hl := issuedFor_logical .ctlr c h
  have hsplit : (issuedFor s t .ctlr c).splitc = s.splitc := by rw [issuedFor_fields .ctlr c h]
  have hep : (issuedFor s t .ctlr c).ep s.cur.1 = s.ep s.cur.1 := by simp only [State.ep, hl]
  have hmail : mailSet ((issuedFor s t .ctlr c).core s.cur.1) t.group = mailSet s.hereCore t.group := by
    rw [issuedFor, hk]; rfl
  have hmw : ((issuedFor s t .ctlr c).core s.cur.1).mwlim = s.hereCore.mwlim := by rw [issuedFor, hk]
  have hmg : ((issuedFor s t .ctlr c).core s.cur.1).mglim = s.hereCore.mglim := by rw [issuedFor, hk]
  have hfe : ((issuedFor s t .ctlr c).core s.cur.1).fewlim = s.hereCore.fewlim := by rw [issuedFor, hk]
  have hdt : ((issuedFor s t .ctlr c).core s.cur.1).dtab = s.hereCore.dtab := by rw [issuedFor, hk]
  simp only [controlValues, List.forall_mem_cons]
  refine ⟨?xpc, ?xpw, ?xcause, ?xaddr, ?frec, ?fraddr, ?hdepth, ?dom, ?ep, ?mberr, ?mwlim, ?mglim, ?fewlim, ?splitc, ?dtab,
    ?caps, List.forall_mem_nil _⟩
  case ep => exact congrArg word hep
  case mberr => exact congrArg (fun m : MailSet => word m.mberr.toNat) hmail
  case caps =>
    show capsAddr (issuedFor s t .ctlr c) = capsAddr s
    simp only [capsAddr, hl]
  case mwlim => exact hmw
  case mglim => exact hmg
  case fewlim => exact hfe
  case splitc => exact hsplit
  case dtab => exact hdt
  all_goals rfl

section
variable {e : State} {τ : Thread} (h : e.here = some τ) (hr : τ.status = .ready)
include h hr

/-- A write of a register of the thread at hand leaves it ready. -/
theorem ready_modHere {f : Thread → Thread} (hf : ∀ u, (f u).status = u.status) :
    (((e.modHere f).thread? e.cur.1 e.cur.2).any fun u => u.status == .stopped) = false := by
  have hm : e.modHere f = e.setThread e.cur.1 e.cur.2 (f τ) := State.modThread_eq f h
  rw [hm, State.thread_setThread, Option.any_some, hf, hr]
  rfl

theorem ready_same {u : State} (hu : SameThreads e u) :
    ((u.thread? e.cur.1 e.cur.2).any fun u => u.status == .stopped) = false := by
  rw [hu.2, show e.thread? e.cur.1 e.cur.2 = some τ from h, Option.any_some, hr]
  rfl

/-- Each write of `controlWrites` is what CTLW does, and leaves the thread at hand ready. -/
theorem writeCtl_writes (t : Thread) (hg : t.group = τ.group) (a : Word) : ∀ r ∈ controlWrites τ,
    writeCtl e e.cur.1 e.cur.2 t r.1 a = r.2 e a ∧
      (((r.2 e a).thread? e.cur.1 e.cur.2).any fun u => u.status == .stopped) = false := by
  simp only [controlWrites, List.forall_mem_cons]
  refine ⟨⟨rfl, ready_modHere h hr fun _ => rfl⟩, ⟨rfl, ready_modHere h hr fun _ => rfl⟩,
    ⟨rfl, ready_modHere h hr fun _ => rfl⟩, ⟨rfl, ready_modHere h hr fun _ => rfl⟩, ?frec, ?mberr,
    ⟨rfl, ready_same h hr (SameThreads.modCore _ _ fun _ => rfl)⟩, ⟨rfl, ready_same h hr (SameThreads.modCore _ _ fun _ => rfl)⟩,
    ⟨rfl, ready_same h hr (SameThreads.modCore _ _ fun _ => rfl)⟩, ⟨rfl, ready_same h hr ⟨rfl, fun _ _ => rfl⟩⟩,
    List.forall_mem_nil _⟩
  case frec =>
    refine ⟨by simp only [writeCtl, clearFrec, beq_iff_eq]; rfl, ?_⟩
    split
    · exact ready_modHere h hr fun _ => rfl
    · exact ready_same h hr (SameThreads.refl e)
  case mberr =>
    refine ⟨by simp only [writeCtl, clearMberr, beq_iff_eq, hg]; rfl, ready_same h hr (SameThreads.modCore _ _ fun k => ?_)⟩
    split <;> rfl

end

/-- The state in which CTLW writes its register. -/
def ctlwState (s : State) (t : Thread) (c : Chain) : State :=
  (issuedFor s t .ctlw c).modHere fun u => { u with pc := nextPc .ctlw c t }

/-- What CTLW does, where its operand is a register. -/
theorem ctlwBody_issued {s : State} {t : Thread} {c : Chain} (h : s.here = some t) (ha : isQueue c.a = false) :
    ctlwBody (ctxOf s t .ctlw c) (issuedThread s t) (issuedFor s t .ctlw c) =
      if (immInt .ctlw c).toNat == 0x21 && !dtabOk (t.scalar c.a) then (ctxOf s t .ctlw c).trap cILLOP
      else if ((writeCtl (ctlwState s t c) s.cur.1 s.cur.2 (issuedThread s t) (immInt .ctlw c).toNat
          (t.scalar c.a)).thread? s.cur.1 s.cur.2).any fun u => u.status == .stopped then
        .over (writeCtl (ctlwState s t c) s.cur.1 s.cur.2 (issuedThread s t) (immInt .ctlw c).toNat (t.scalar c.a))
      else .done (writeCtl (ctlwState s t c) s.cur.1 s.cur.2 (issuedThread s t) (immInt .ctlw c).toNat (t.scalar c.a)) := by
  have hm : (issuedFor s t .ctlw c).modThread s.cur.1 s.cur.2 (fun u => { u with pc := nextPc .ctlw c t }) =
      ctlwState s t c := by
    rw [ctlwState, State.modHere, issuedFor_cur _ _ h]
  simp only [ctlwBody, ctxOf_c, readField_reg ha, issuedThread_scalar, ctxOf_immNat, ctxOf_core, ctxOf_slot, ctxOf_next, hm]

theorem cur_foldl {α : Type} {f : State → α → State} (hf : ∀ s x, (f s x).cur = s.cur) (l : List α) (s : State) :
    (l.foldl f s).cur = s.cur := by
  induction l generalizing s with
  | nil => rfl
  | cons x l ih => exact (ih _).trans (hf s x)

theorem writeDtab_cur (s : State) (c : Nat) (w : Word) : (writeDtab s c w).cur = s.cur := by
  refine (cur_foldl (fun s t => ?_) _ _).trans rfl
  unfold stopInvalid
  split
  · rfl
  · split <;> rfl

theorem ctlwState_here {s : State} {t : Thread} (c : Chain) (h : s.here = some t) : (ctlwState s t c).cur = s.cur ∧
    (ctlwState s t c).here = some { issuedThread s t with pc := nextPc .ctlw c t } := by
  have hcur : (ctlwState s t c).cur = s.cur := by
    rw [ctlwState, modHere_issued _ _ _ h, State.setThread_cur, issuedFor_cur _ _ h]
  refine ⟨hcur, ?_⟩
  rw [State.here, hcur, ctlwState, modHere_issued _ _ _ h, State.thread_setThread]

/-- Settles O25: CTLR is a short result of `readCtl`, CTLW is `writeCtl`; only a write of dtab can stop the thread. -/
theorem controlRegisters : Obligations.ControlRegisters := by
  intro c s t h
  refine ⟨?ctlr, ?ctlw, ?dtab⟩
  case ctlr =>
    intro hx hd e he hsel
    refine writeField_result e.2 0 ctlrBody h hx hd ?_
    have hv := readCtl_issued c h e he
    rw [← hsel] at hv
    exact congrArg (fun v => writeField (issuedFor s t .ctlr c) (ctxOf s t .ctlr c) c.d v false 0) hv
  all_goals
    intro hx ha
    obtain ⟨hcur, hhere⟩ := ctlwState_here c h
  case ctlw =>
    intro e he hsel
    have hr : t.status = .ready := executable_ready hx
    obtain ⟨hw, hst⟩ := writeCtl_writes hhere hr (issuedThread s t) rfl (t.scalar c.a) e he
    have hne : ((immInt .ctlw c).toNat == 0x21) = false := by
      rw [hsel]
      revert e
      simp [controlWrites]
    refine issueChain_done (body := ctlwBody) h hx ?_
    rw [hcur, ← hsel] at hw
    rw [hcur] at hst
    simp only [ctlwBody_issued h ha, hne, hw, hst, Bool.false_and, Bool.false_eq_true, if_false]
    rfl
  case dtab =>
    intro hsel
    have hsel' : ((immInt .ctlw c).toNat == 0x21) = true := by rw [hsel]; rfl
    have hw : writeCtl (ctlwState s t c) s.cur.1 s.cur.2 (issuedThread s t) (immInt .ctlw c).toNat (t.scalar c.a) =
        writeDtab (ctlwState s t c) s.cur.1 (t.scalar c.a) := by rw [hsel]; rfl
    refine ⟨fun hok u hu => ?_, fun hbad => ?_⟩
    · have hucur : u.cur = s.cur := by rw [hu]; exact (writeDtab_cur _ _ _).trans hcur
      have hb : ctlwBody (ctxOf s t .ctlw c) (issuedThread s t) (issuedFor s t .ctlw c) =
          if u.here.any fun τ => τ.status == .stopped then .over u else .done u := by
        simp only [ctlwBody_issued h ha, hsel', hok, hw, Bool.not_true, Bool.and_false, Bool.false_eq_true, if_false,
          State.here, hucur]
        rw [hu]
        rfl
      refine ⟨fun hst => issueChain_done (body := ctlwBody) h hx ?_,
        fun τ hτ hst => issueChain_over (body := ctlwBody) h hx ?_⟩
      · rw [hb, if_neg]
        simpa [Option.any_eq_true] using hst
      · rw [hb, hτ, Option.any_some, hst]
        rfl
    · refine issueChain_traps (body := ctlwBody) h hx ((ctlwBody_issued h ha).trans ?_)
      simp only [hsel', hbad, Bool.not_false, Bool.and_self, if_true]
      rfl

end Sys2Proof.Machine

end

section
/-! PROOFS. Queue ports as sources and as destinations (spec/01 R27; spec/06 R145; spec/07 R207). -/

namespace Sys2Proof.Machine

/-! ### The fields of the one-source instructions -/

/-- The one-source instructions read the scalar a, write the scalar d and have no third field. -/
theorem aluOne_row : ∀ o ∈ aluOne.map (·.1),
    (opRow o).fd = .gDst ∧ (opRow o).fa = .gSrc ∧ (opRow o).fb.isScalar = false := by decide

theorem aluOne_queueSources {e : Op × (Nat → Word → Word)} (he : e ∈ aluOne) (c : Chain) :
    queueSources e.1 c = if isQueue c.a then [c.a] else [] := by
  obtain ⟨hd, ha, hb⟩ := aluOne_row e.1 (List.mem_map_of_mem he)
  simp [queueSources, hd, ha, hb]

theorem aluOne_queueDest {e : Op × (Nat → Word → Word)} (he : e ∈ aluOne) (c : Chain) : queueDest e.1 c = isQueue c.d := by
  obtain ⟨hd, -, -⟩ := aluOne_row e.1 (List.mem_map_of_mem he)
  simp [queueDest, hd]

/-- A queue port that a chain writes and that has no room. -/
def portFull (s : State) (o : Op) (c : Chain) : Option Wait :=
  if queueDest o c && !portRoom s s.cur.1 s.cur.2 (portOf c.d) then some (.push (portOf c.d)) else none

theorem portWait_noSource {s : State} {o : Op} {c : Chain} (hq : queueSources o c = []) :
    portWait s s.cur.1 s.cur.2 o c = portFull s o c := by
  simp only [portWait, hq, portFull]

/-! ### Pops in the state in which a chain executes -/

/-- Whether another thread has taken the head of a receive queue does not depend on the thread that asks. -/
theorem recvTaken_tset (k : CoreSt) (slot task : Nat) (t : Thread) :
    recvTaken { k with threads := tset k.threads slot t } slot task = recvTaken k slot task := by
  unfold recvTaken
  dsimp only
  induction k.threads with
  | nil => simp [tset]
  | cons e l ih =>
    obtain ⟨i, u⟩ := e
    simp only [tset]
    split
    next hi => simp [beq_iff_eq.mp hi]
    next hi =>
      split
      · simp
      · simp only [List.any_cons, ih]

section
variable {s : State} {t : Thread} (o : Op) (c : Chain) (h : s.here = some t)
include h

theorem issued_threads : ((issuedFor s t o c).core s.cur.1).threads =
    tset (tset s.hereCore.threads s.cur.2 { t with lastIssue := some (issueCycle s s.cur.1 t) }) s.cur.2
      (issuedThread s t) := by
  rw [issuedFor, issued_eq o c h]
  simp only [State.core_setThread, State.core_tick, State.core_modCore]
  rfl

theorem issued_recvTaken (task : Nat) :
    recvTaken ((issuedFor s t o c).core s.cur.1) s.cur.2 task = recvTaken s.hereCore s.cur.2 task := by
  have hk : (issuedFor s t o c).core s.cur.1 = { s.hereCore with
      cyc := ((issuedFor s t o c).core s.cur.1).cyc, threads := ((issuedFor s t o c).core s.cur.1).threads } :=
    issued_core s t o c h
  rw [issued_threads o c h, tset_tset] at hk
  rw [hk]
  exact recvTaken_tset _ _ _ _

theorem issued_recvq : ((issuedFor s t o c).core s.cur.1).recvq = s.hereCore.recvq := by
  rw [issuedFor, issued_core s t o c h]

theorem popPort_issued_q0 {v : Word} {rest : List Word} (hq : t.q0 = v :: rest) :
    popPort (issuedFor s t o c) s.cur.1 s.cur.2 0 =
      some (v, (issuedFor s t o c).modHere fun u => { u with q0 := rest, out0 := t.out0 - 1 }) := by
  have hh : (issuedFor s t o c).thread? s.cur.1 s.cur.2 = some (issuedThread s t) := issued_here o c h
  have hq' : (issuedThread s t).q0 = v :: rest := hq
  simp only [popPort, hh, hq', modHere_issued _ _ _ h]
  rfl

theorem popPort_issued_q1 {v : Word} {rest : List Word} (hq : t.q1 = v :: rest) :
    popPort (issuedFor s t o c) s.cur.1 s.cur.2 1 =
      some (v, (issuedFor s t o c).modHere fun u => { u with q1 := rest, out1 := t.out1 - 1 }) := by
  have hh : (issuedFor s t o c).thread? s.cur.1 s.cur.2 = some (issuedThread s t) := issued_here o c h
  have hq' : (issuedThread s t).q1 = v :: rest := hq
  simp only [popPort, hh, hq', modHere_issued _ _ _ h]
  rfl

theorem popPort_issued_recv {v : Word} {q : RecvQueue} (hn : recvTaken s.hereCore s.cur.2 t.task = false)
    (hq : popRecv (tgetD s.hereCore.recvq t.task {}) = some (v, q)) :
    popPort (issuedFor s t o c) s.cur.1 s.cur.2 2 = some (v, replay ((issuedFor s t o c).modHereCore fun k =>
      { k with recvq := tset k.recvq t.task q }) t.task) := by
  have hh : (issuedFor s t o c).thread? s.cur.1 s.cur.2 = some (issuedThread s t) := issued_here o c h
  have ht : (issuedThread s t).task = t.task := rfl
  simp only [popPort, hh, ht, issued_recvTaken _ _ h, issued_recvq _ _ h, hn, hq, Bool.false_eq_true, if_false,
    modHereCore_issued _ _ _ h]

theorem popPort_issued_q3 {v : Word} {id : Nat} {q : List (Nat × Option Word)} (hq : t.q3 = (id, some v) :: q) :
    popPort (issuedFor s t o c) s.cur.1 s.cur.2 3 =
      some (v, (issuedFor s t o c).modHere fun u => { u with q3 := q }) := by
  have hh : (issuedFor s t o c).thread? s.cur.1 s.cur.2 = some (issuedThread s t) := issued_here o c h
  have hq' : (issuedThread s t).q3 = (id, some v) :: q := hq
  simp only [popPort, hh, hq', modHere_issued _ _ _ h]

end

/-! ### The parts of the obligation -/

/-- A one-source instruction whose source port gives a value. -/
theorem aluOne_pops {e : Op × (Nat → Word → Word)} (he : e ∈ aluOne) {c : Chain} {s u : State} {t : Thread} {v : Word}
    (h : s.here = some t) (hx : executable s t e.1 c = true) (hd : isQueue c.d = false) (ha : isQueue c.a = true)
    (hp : popPort (issuedFor s t e.1 c) s.cur.1 s.cur.2 (portOf c.a) = some (v, u)) :
    exec (Instr.ofOp e.1 c) s = .next (endsIn s t e.1 c (addPend u s.cur.1 s.cur.2 (gRes c.d)
      (some [.g c.d.toNat (e.2 (etCode e.1 c) v), .flags 0]))) := by
  rw [exec_aluOne e he]
  refine issueChain_done h hx ?_
  have hr : readField (issuedFor s t e.1 c) (ctxOf s t e.1 c) (issuedThread s t) c.a = .ok (v, u, true) := by
    simp only [readField, ha, if_true, ctxOf_core, ctxOf_slot, hp]
  simp only [alu1, ctxOf_c, hr, writeField_long _ _ _ hd, List.append_nil, ctxOf_core, ctxOf_slot, ctxOf_et]

theorem claim_queuePortReads : Claim.QueuePortReads := by
  intro e he c s t v rest h hx hd
  have key := fun (u : State) (ha : isQueue c.a = true) => aluOne_pops (u := u) (v := v) he h hx hd ha
  refine ⟨fun ha hq => ?_, fun ha hq => ?_, fun ha hn q hq => ?_, fun ha id q hq => ?_⟩
  · exact key _ (by rw [ha]; rfl) (by rw [ha]; exact popPort_issued_q0 _ _ h hq)
  · exact key _ (by rw [ha]; rfl) (by rw [ha]; exact popPort_issued_q1 _ _ h hq)
  · exact key _ (by rw [ha]; rfl) (by rw [ha]; exact popPort_issued_recv _ _ h hn hq)
  · exact key _ (by rw [ha]; rfl) (by rw [ha]; exact popPort_issued_q3 _ _ h hq)

/-- A one-source instruction whose destination port takes its result. -/
theorem aluOne_pushes {e : Op × (Nat → Word → Word)} (he : e ∈ aluOne) {c : Chain} {s u : State} {t : Thread}
    (h : s.here = some t) (hx : executable s t e.1 c = true) (ha : isQueue c.a = false) (hd : isQueue c.d = true)
    (hp : pushPort (issuedFor s t e.1 c) s.cur.1 s.cur.2 (portOf c.d) (e.2 (etCode e.1 c) (t.scalar c.a)) = some u) :
    exec (Instr.ofOp e.1 c) s = .next (endsIn s t e.1 c u) := by
  rw [exec_aluOne e he]
  refine issueChain_done h hx ?_
  simp only [alu1, ctxOf_c, readField_reg ha, issuedThread_scalar, writeField, hd, if_true, ctxOf_core, ctxOf_slot, ctxOf_et,
    hp]
  rfl

theorem claim_queuePortWrites : Claim.QueuePortWrites := by
  intro e he c s t h hx ha hd
  refine ⟨fun u hp => aluOne_pushes he h hx ha hd hp, fun hd14 => aluOne_pushes he h hx ha hd ?_⟩
  have hroom : t.stage.length < 16 := by
    have hw : portWait s s.cur.1 s.cur.2 e.1 c = none := by
      simp only [executable, Bool.and_eq_true, Option.isNone_iff_eq_none] at hx
      exact hx.1.2
    rw [portWait_noSource (by rw [aluOne_queueSources he, ha]; rfl), portFull, aluOne_queueDest he, hd14] at hw
    have hh : s.thread? s.cur.1 s.cur.2 = some t := h
    by_contra hfull
    simp [isQueue, portOf, portRoom, hh, hfull] at hw
  have hh : (issuedFor s t e.1 c).thread? s.cur.1 s.cur.2 = some (issuedThread s t) := issued_here _ c h
  have hst : (issuedThread s t).stage = t.stage := rfl
  rw [hd14]
  show pushPort _ _ _ 2 _ = _
  simp only [pushPort, hh, hst, Nat.not_le.mpr hroom, if_false, modHere_issued _ _ _ h]

/-- A chain that reaches its queue ports and finds one that blocks. -/
theorem blocks_at_port {e : Op × (Nat → Word → Word)} (he : e ∈ aluOne) {c : Chain} {s : State} {t : Thread} {w : Wait}
    (h : s.here = some t) (hr : reachesPorts s t e.1 c = true) (hw : portWait s s.cur.1 s.cur.2 e.1 c = some w) :
    exec (Instr.ofOp e.1 c) s = .next (blockAt s (ctxOf s t e.1 c) w) := by
  simp only [reachesPorts, Bool.and_eq_true, Bool.not_eq_true', Option.isNone_iff_eq_none] at hr
  obtain ⟨⟨⟨⟨⟨hready, hchain⟩, hthread⟩, hhazard⟩, hguard⟩, hparity⟩ := hr
  rw [exec_aluOne e he, issueChain_checks _ h hready]
  simp only [hchain, hthread, hhazard, afterHazard, hguard, hparity, hw, Option.isSome_none, Bool.not_true,
    Bool.false_eq_true, if_false]
  rfl

theorem claim_queuePortsBlock : Claim.QueuePortsBlock := by
  intro e he c s t h hr
  have hh : s.thread? s.cur.1 s.cur.2 = some t := h
  refine ⟨fun hempty => blocks_at_port he h hr ?_, fun ha hfull => blocks_at_port he h hr ?_⟩
  · have hpop : isQueue c.a = true → popPort s s.cur.1 s.cur.2 (portOf c.a) = none →
        portWait s s.cur.1 s.cur.2 e.1 c = some (.pop (c.a.toNat - 12)) := fun ha hp => by
      simp only [portWait, aluOne_queueSources he, ha, if_true, hp]
      rfl
    rcases hempty with ⟨ha, hq⟩ | ⟨ha, hq⟩ | ⟨ha, hq⟩ | ⟨ha, hq⟩
    all_goals
      refine hpop (by rw [ha]; rfl) ?_
      rw [ha]
    · show popPort _ _ _ 0 = none
      simp only [popPort, hh, hq]
    · show popPort _ _ _ 1 = none
      simp only [popPort, hh, hq]
    · show popPort _ _ _ 2 = none
      rcases hq with hq | hq
      · have hq' : popRecv (tgetD (s.core s.cur.1).recvq t.task {}) = none := by
          simp only [popRecv, show (tgetD (s.core s.cur.1).recvq t.task {}).msgs = [] from hq]
        simp only [popPort, hh, hq', ite_self]
      · simp only [popPort, hh, show recvTaken (s.core s.cur.1) s.cur.2 t.task = true from hq, if_true]
    · show popPort _ _ _ 3 = none
      rcases hq with hq | ⟨id, q, hq⟩ <;> simp only [popPort, hh, hq]
  · have hpush : isQueue c.d = true → portRoom s s.cur.1 s.cur.2 (portOf c.d) = false →
        portWait s s.cur.1 s.cur.2 e.1 c = some (.push (c.d.toNat - 12)) := fun hd hp => by
      rw [portWait_noSource (by rw [aluOne_queueSources he, ha]; rfl), portFull, aluOne_queueDest he, hd, hp]
      rfl
    rcases hfull with ⟨hd, hhalf, hroom⟩ | ⟨hd, hroom⟩ | ⟨hd, hroom⟩
    all_goals
      refine hpush (by rw [hd]; rfl) ?_
      rw [hd]
    · show portRoom _ _ _ 0 = false
      simp only [portRoom, hh, show matrixRoom (s.core s.cur.1) t = false from hroom, Bool.or_false]
      exact Option.isNone_eq_false_iff.mpr hhalf
    · show portRoom _ _ _ 1 = false
      simp only [portRoom, hh]
      exact hroom
    · show portRoom _ _ _ 2 = false
      simp only [portRoom, hh, Nat.not_lt.mpr hroom, decide_false]

/-- Settles O26: a pop or a push of a port in the state in which the chain executes; the ports that block come before it. -/
theorem queuePorts : Obligations.QueuePorts := ⟨claim_queuePortReads, claim_queuePortWrites, claim_queuePortsBlock⟩

end Sys2Proof.Machine

end

section
/-! PROOFS. Words of the spec, the step and the state after reset (spec/01 R11-R23, R38). -/

namespace Sys2Proof

namespace Machine

/-! ### The step (R11, R38) -/

/-- A running cube that is not in recovery carries out any action. -/
theorem mayRun_running {s : State} (hon : s.on = true) (hrec : s.recovery = false) (a : Action) : mayRun s a = true := by
  have h : (s.on && !s.recovery) = true := by rw [hon, hrec]; rfl
  cases a with
  | pass u n => exact hon
  | issue c i => exact h
  | ev i =>
    cases i
    case coldReset => rfl
    case powerLoss | ucieRead | ucieWrite | ucieLinkUp | ucieLinkDown => exact hon
    all_goals exact h

theorem step_action {s : State} {a : Action} {rest : List Action} (hon : s.on = true) (hrec : s.recovery = false)
    (ha : s.agenda = a :: rest) : step s = runAction a { s with agenda := rest } := by
  simp only [step, ha, mayRun_running hon hrec, if_true]

theorem issueStep_decodes {s : State} {c slot : Nat} {t : Thread} {i : Instr} (ht : s.thread? c slot = some t)
    (hp : fetchPoison s c slot = none) (hd : decodeBytes (fetchBytes s (s.core c) t.pc) = .ok i) :
    issueStep c slot s = exec i (atThread s c slot) := by
  simp only [issueStep, hp, fetch, ht, hd]

theorem issueStep_illegal {s : State} {c slot : Nat} {t : Thread} {e : DecodeErr} (ht : s.thread? c slot = some t)
    (hp : fetchPoison s c slot = none) (hd : decodeBytes (fetchBytes s (s.core c) t.pc) = .error e)
    (hr : t.isReady = true) : issueStep c slot s =
      .next (takeTrap ((s.fetched c).issueAt c slot) c slot { cause := cILLOP, xpc := t.pc }) := by
  simp only [issueStep, hp, fetch, ht, hd, illegalWords, hr, if_true]

/-- With no word of ISTW waiting, a fetch reads the instruction store. -/
theorem fetchByte_istore {k : CoreSt} (hk : k.istNew = []) (s : State) (a : Nat) : fetchByte s k a = k.istore.byte a := by
  simp [fetchByte, newWord, hk]

/-- Settles O59: an issue of the agenda, or of the selected thread, is the fetch of its words and `exec` of their chain. -/
theorem stepRunsDecoded : Obligations.StepRunsDecoded := by
  intro s i hon hrec
  refine ⟨?agenda, ?selected, ?event, ?bytes⟩
  case agenda =>
    intro c slot rest t ha ht hp
    rw [step_action hon hrec ha]
    exact ⟨fun hd => issueStep_decodes (s := { s with agenda := rest }) ht hp hd,
      fun e hd hr => issueStep_illegal (s := { s with agenda := rest }) ht hp hd hr⟩
  case selected =>
    intro slot k t ha hev hsel u hu ht hp hd
    simp only [step, ha, hon, hrec, freeStep, hev, hsel, Bool.not_true, Bool.false_eq_true, if_false]
    rw [← hu, issueStep_decodes ht hp hd]
    rfl
  case event =>
    intro rest ha
    rw [step_action hon hrec ha]
    rfl
  case bytes =>
    intro c pc hk
    simp only [fetchBytes, fetchByte_istore hk]

/-! ### Reset -/

/-- Settles O60: every core after reset is a fresh one, and the tables are empty. -/
theorem resetState : Obligations.ResetState := by
  intro c
  refine ⟨rfl, rfl, rfl, rfl, rfl, rfl, rfl, rfl, rfl, fun _ => rfl, rfl, rfl, fun _ => rfl, rfl, rfl, rfl, fun _ => rfl,
    ?credit, fun _ => rfl, ?keys, fun _ => rfl, rfl, rfl, rfl, rfl, rfl⟩
  case credit =>
    intro n cls hcls
    have hn : State.reset.port n = {} := rfl
    rw [hn]
    interval_cases cls <;> rfl
  case keys =>
    intro n hn
    obtain ⟨m, rfl⟩ := Nat.exists_eq_succ_of_ne_zero hn.ne'
    rfl

/-! ### Words of the spec -/

/-- Settles O56: each listing decodes by computation, whatever follows its words. -/
theorem decodeWords : Obligations.DecodeWords := by
  refine ⟨?a, ?b, ?c, ?value, ?negative, ?d, ?e, ?f, ?g, ?h⟩
  case value | negative => decide
  all_goals exact fun _ => rfl

end Machine

end Sys2Proof

end

section
/-! PROOFS. What the issue of a chain leaves of the state that its execution looks at: every core but for its cycle and its
threads, the translation of addresses, packets and the checks at issue (spec/07 R188; spec/15 R338). -/

namespace Sys2Proof.Machine

section
variable {s : State} {t : Thread} (o : Op) (c : Chain) (h : s.here = some t)
include h

/-- The issue changes of every core at most its cycle and its threads. -/
theorem issued_core_all (d : Nat) : (issuedFor s t o c).core d = { s.core d with
    cyc := ((issuedFor s t o c).core d).cyc, threads := ((issuedFor s t o c).core d).threads } := by
  by_cases hd : d = s.cur.1
  · rw [hd]; exact issued_core s t o c h
  · obtain ⟨_, hother, _⟩ := Framed.issued o c h
    rw [issuedFor, hother d hd]

theorem issued_cache (d : Nat) : ((issuedFor s t o c).core d).cache = (s.core d).cache := by
  rw [issued_core_all o c h]

theorem issued_owner (d : Nat) : ((issuedFor s t o c).core d).owner = (s.core d).owner := by
  rw [issued_core_all o c h]

theorem issued_threadConflict (d : Nat) (w : Bool) (sp : Span) :
    threadConflict ((issuedFor s t o c).core d) w sp = threadConflict (s.core d) w sp := by
  rw [issued_core_all o c h]
  rfl

theorem issuedFor_domEntry : (issuedFor s t o c).domEntry s.cur.1 (issuedThread s t) = s.domEntry s.cur.1 t :=
  issued_domEntry s t o c h

theorem issuedFor_ep (d : Nat) : (issuedFor s t o c).ep d = s.ep d := by
  rw [State.ep, issuedFor_logical o c h]
  rfl

theorem issuedFor_paths : (issuedFor s t o c).paths = s.paths := by rw [issuedFor_fields o c h]

theorem issuedFor_thread : (issuedFor s t o c).thread? s.cur.1 s.cur.2 = some (issuedThread s t) := issued_here o c h

/-- A packet of the executing chain is one of the thread at hand before its issue. -/
theorem addressed_issued (slot uid urg : Nat) (ordered : Bool) (addr : Word) (dom : Nat) (priv : Bool) (b : Body) :
    addressed (issuedFor s t o c) s.cur.1 slot uid urg ordered addr dom priv b =
      addressed s s.cur.1 slot uid urg ordered addr dom priv b := by
  simp only [addressed, issuedFor_ep o c h, issued_owner o c h, issuedFor_logical o c h]

theorem spaceAt_issued (unit dom : Nat) : (issuedFor s t o c).spaceAt unit dom = s.spaceAt unit dom := by
  rw [issuedFor_fields o c h]
  rfl

theorem ownerOk_issued (home dom : Nat) : ownerOk (issuedFor s t o c) home dom = ownerOk s home dom := by
  have hkey : ∀ n, (issuedFor s t o c).key? n = s.key? n := fun n => by rw [issuedFor_fields o c h]; rfl
  simp only [ownerOk, issued_owner o c h, spaceAt_issued o c h, hkey]

theorem feCheck_issued (home dom : Nat) (w : Bool) (off : Nat) (ea : Word) :
    feCheck (issuedFor s t o c) home dom w off ea = feCheck s home dom w off ea := by
  simp only [feCheck, ownerOk_issued o c h, issued_threadConflict o c h]

/-! ### The checks of an access at issue (R188) -/

theorem issueCheck_issued (x : Ctx) (hx : x.core = s.cur.1) (op : AccOp) (ea : Word) :
    issueCheck (issuedFor s t o c) x (issuedThread s t) op ea = issueCheck s x t op ea := by
  simp only [issueCheck, globalCheck, hx, issuedFor_domEntry o c h, issuedFor_logical o c h]

/-! ### The translation of an address (spec/15 R338) -/

theorem dramLine_issued (line key : Nat) : (issuedFor s t o c).dramLine line key = s.dramLine line key := by
  rw [issuedFor_fields o c h]
  rfl

theorem peekLine_issued (d line key : Nat) : peekLine (issuedFor s t o c) d line key = peekLine s d line key := by
  simp only [peekLine, CoreSt.cached, issued_cache o c h, dramLine_issued o c h]

theorem peekEntry_issued (pa : Nat) : peekEntry (issuedFor s t o c) pa = peekEntry s pa := by
  have hhome : spreadHome (issuedFor s t o c) 15 pa = spreadHome s 15 pa := by rw [issuedFor_fields o c h]; rfl
  simp only [peekEntry, hhome, peekLine_issued o c h]

theorem walkFrom_issued (off fuel level at' : Nat) :
    walkFrom (issuedFor s t o c) off fuel level at' = walkFrom s off fuel level at' := by
  induction fuel generalizing level at' with
  | zero => rfl
  | succ fuel ih => simp only [walkFrom, peekEntry_issued o c h, ih]

theorem leafFor_issued (slice dom off : Nat) : leafFor (issuedFor s t o c) slice dom off = leafFor s slice dom off := by
  have hheld : heldLeaf (issuedFor s t o c) slice dom off = heldLeaf s slice dom off := by
    rw [issuedFor_fields o c h]; rfl
  simp only [leafFor, spaceAt_issued o c h, hheld, walkFrom_issued o c h]

theorem translateNow_issued (a : Word) (dom : Nat) (priv r w : Bool) (src : Nat) :
    translateNow (issuedFor s t o c) a dom priv r w src = translateNow s a dom priv r w src := by
  have hcheck : ∀ slice off l, leafCheck (issuedFor s t o c) slice dom priv off l r w = leafCheck s slice dom priv off l r w :=
    fun _ _ _ => by rw [issuedFor_fields o c h]; rfl
  have hhome : ∀ l x, leafHome (issuedFor s t o c) l x src = leafHome s l x src :=
    fun _ _ => by rw [issuedFor_fields o c h]; rfl
  simp only [translateNow, leafFor_issued o c h, hcheck, hhome]

theorem boundFor_issued (p : Packet) : boundFor (issuedFor s t o c) p = boundFor s p := by
  simp only [boundFor, translateNow_issued o c h, issuedFor_logical o c h]

theorem ownPending_issued : ownPending (issuedFor s t o c) s.cur.1 (issuedThread s t) = ownPending s s.cur.1 t := by
  have hnet : (issuedFor s t o c).net = s.net := by rw [issuedFor_fields o c h]
  simp only [ownPending, hnet, issuedFor_ep o c h, boundFor_issued o c h]
  rfl

end

/-! ### What the use of a translation changes (spec/15 R338, R339) -/

/-- Every core is as before but for its cache. -/
def CacheOnly (s u : State) : Prop := ∀ d, u.core d = { s.core d with cache := (u.core d).cache }

theorem CacheOnly.of_cores {s u : State} (h : u.cores = s.cores) : CacheOnly s u := fun d => by
  simp only [State.core, h]

theorem CacheOnly.trans {s u v : State} (h : CacheOnly s u) (h' : CacheOnly u v) : CacheOnly s v := fun d => by
  rw [h' d, h d]

theorem CacheOnly.setCore (s : State) (d : Nat) (l : List CacheLine) :
    CacheOnly s (s.setCore d { s.core d with cache := l }) := fun e => by
  by_cases he : e = d
  · rw [he, State.core_setCore]
  · rw [State.core_setCore_other _ _ he]

theorem cores_commanderEvent (s : State) (n : Nat) (ws : List Word) : (commanderEvent s n ws).cores = s.cores := by
  unfold commanderEvent
  split <;> rfl

theorem cores_logError (s : State) (die src : Nat) (u : Bool) (core addr : Nat) :
    (logError s die src u core addr).cores = s.cores := by
  unfold logError
  dsimp only
  split
  · rfl
  · exact cores_commanderEvent _ _ _

theorem cores_setDramLine (s : State) (line key : Nat) (data : BitVec 256) (bad : BitVec 4) :
    (s.setDramLine line key data bad).cores = s.cores := by
  unfold State.setDramLine
  dsimp only
  split
  · exact cores_logError _ _ _ _ _ _
  · rfl

theorem cores_writeBack (s : State) (l : CacheLine) : (writeBack s l).cores = s.cores := by
  unfold writeBack
  split
  · exact cores_setDramLine _ _ _ _ _
  · rfl

theorem CacheOnly.cachePut (s : State) (d : Nat) (l : CacheLine) : CacheOnly s (cachePut s d l) := by
  unfold Machine.cachePut
  dsimp only
  split
  · exact CacheOnly.setCore s d _
  · split
    · exact CacheOnly.setCore s d _
    · rename_i v _
      have hcore : s.core d = (writeBack s v).core d := by simp only [State.core, cores_writeBack]
      rw [hcore]
      exact (CacheOnly.of_cores (cores_writeBack s v)).trans (CacheOnly.setCore _ d _)

theorem CacheOnly.homeWriteLine (s : State) (d line key : Nat) (nt : Bool) (off n x : Nat) :
    CacheOnly s (homeWriteLine s d line key nt off n x) := by
  unfold Machine.homeWriteLine
  split
  · exact CacheOnly.cachePut s d _
  · dsimp only
    split
    · exact CacheOnly.of_cores (cores_setDramLine _ _ _ _ _)
    · exact CacheOnly.cachePut s d _

theorem CacheOnly.pinLeaf (s : State) (l : Leaf) (core : Nat) : CacheOnly s (pinLeaf s l core).2 := by
  unfold Machine.pinLeaf
  dsimp only
  split
  · exact CacheOnly.homeWriteLine _ _ _ _ _ _ _ _
  · exact CacheOnly.of_cores rfl

theorem cores_useSpace (s : State) (unit dom : Nat) : (s.useSpace unit dom).cores = s.cores := by
  unfold State.useSpace
  split <;> rfl

theorem cores_keptLeaf (s : State) (x : LeafCopy) : (if s.leaves.contains x then s else keepLeaf s x).cores = s.cores := by
  split <;> rfl

theorem CacheOnly.resolveLeaf (s : State) (slice dom : Nat) (priv : Bool) (off : Nat) (l : Leaf) (r w : Bool) (src : Nat) :
    CacheOnly s (resolveLeaf s slice dom priv off l r w src).2 := by
  have hpin := CacheOnly.pinLeaf s l src
  unfold Machine.resolveLeaf
  dsimp only
  split
  · exact CacheOnly.of_cores (cores_keptLeaf s _)
  · split
    · exact CacheOnly.of_cores (cores_keptLeaf s _)
    · split
      · exact hpin
      · split
        · exact hpin.trans (CacheOnly.of_cores (cores_keptLeaf _ _))
        · exact hpin.trans (CacheOnly.of_cores (cores_keptLeaf _ _))

theorem CacheOnly.translateUse (s : State) (a : Word) (dom : Nat) (priv r w : Bool) (src : Nat) :
    CacheOnly s (translateUse s a dom priv r w src).2 := by
  have huse := CacheOnly.of_cores (cores_useSpace s (2000 + sliceOf a) dom)
  unfold Machine.translateUse
  dsimp only
  split
  · exact huse
  · exact huse.trans (CacheOnly.resolveLeaf _ _ _ _ _ _ _ _ _)

/-- A domain of a core is read from its tables, not from its cache. -/
theorem CacheOnly.domEntry {s u : State} (h : CacheOnly s u) (d : Nat) (t : Thread) : u.domEntry d t = s.domEntry d t := by
  unfold State.domEntry
  rw [h d]
  rfl

end Sys2Proof.Machine

end

section
/-! PROOFS. Loads, fetch atomics, messages and fences of the global space (spec/07 R188-R202). -/

namespace Sys2Proof.Machine

/-! ### The bodies of the loads (R189, R192, R193) -/

/-- The address of a memory operand whose index is no queue port. -/
theorem memAddr_noQueue {s s' : State} {t : Thread} {o : Op} {c : Chain} (hb : isQueue c.b = false) :
    memAddr s' (ctxOf s t o c) (issuedThread s t) = .ok (addressOf o c t, s', false) := by
  simp only [memAddr, ctxOf_c, addressOf, issuedThread_scalar, readField_reg hb, ctxOf_imm]
  cases hi : c.hasImm
  · cases hr : c.hasReg <;> simp
  · simp

/-- A load or fetch atomic executes as its access at the global address that its checks give. -/
theorem globalLoads_body : ∀ e ∈ globalLoads, ∀ (c : Chain) (s : State) (t : Thread) (g : Word), s.here = some t →
    isQueue c.b = false → Reaches s t e.1 c e.2.1 g →
    ∃ body, exec (Instr.ofOp e.1 c) s = issueChain e.1 c body s ∧
      body (ctxOf s t e.1 c) (issuedThread s t) (issuedFor s t e.1 c) =
        loadFrom (issuedFor s t e.1 c) (issuedFor s t e.1 c) (ctxOf s t e.1 c) (issuedThread s t)
          (accessOf e.1 c t e.2.1 e.2.2) g := by
  have plain : ∀ (o : Op) (op : AccOp) (fetch : Bool), o ≠ .cas → op ≠ .feclr → ∀ (c : Chain) (s : State) (t : Thread)
      (g : Word), s.here = some t → isQueue c.b = false → Reaches s t o c op g →
      loadBody op fetch (ctxOf s t o c) (issuedThread s t) (issuedFor s t o c) =
        loadFrom (issuedFor s t o c) (issuedFor s t o c) (ctxOf s t o c) (issuedThread s t) (accessOf o c t op fetch) g := by
    intro o op fetch ho hop c s t g h hb hg
    rw [Reaches, globalAddress, if_neg ho] at hg
    simp only [loadBody, memAddr_noQueue hb, issueCheck_issued o c h (ctxOf s t o c) rfl, hg, accessOf, if_neg ho, if_neg hop]
    rfl
  simp only [globalLoads, List.forall_mem_cons]
  refine ⟨?ld, ?faadd, ?faand, ?faor, ?faxor, ?famin, ?famax, ?faminn, ?famaxn, ?fafadd, ?swp, ?cas, ?ldfe, ?ldff,
    List.forall_mem_nil _⟩
  case cas =>
    intro c s t g h hb hg
    refine ⟨casBody, rfl, ?_⟩
    rw [Reaches, globalAddress, if_pos rfl] at hg
    simp only [casBody, ctxOf_c, readField_reg hb, issuedThread_scalar, ctxOf_imm,
      issueCheck_issued .cas c h (ctxOf s t .cas c) rfl, hg]
    rfl
  all_goals exact fun c s t g h hb hg => ⟨_, rfl, plain _ _ _ (by decide) (by decide) c s t g h hb hg⟩

/-! ### Where a load is performed (R189, R194) -/

section
variable {s : State} {t : Thread} (o : Op) (c : Chain) (h : s.here = some t) (a : Access) {g : Word}
include h

/-- A packet of the executing chain to the home of an address. -/
theorem packetFor_issued (b : Body) : addressed (issuedFor s t o c) s.cur.1 s.cur.2 t.uid (ctxOf s t o c).urgency true g
    t.dom (s.domEntry s.cur.1 t).priv b = packetFor s t c g b := addressed_issued o c h _ _ _ _ _ _ _ _

omit h in
/-- A free thread departs. -/
theorem departOr_free (hm : t.moored = false) (kind : Nat) (remote write : Bool) :
    departOr (issuedFor s t o c) (ctxOf s t o c) (issuedThread s t) kind remote write g =
      hold (issuedFor s t o c) (ctxOf s t o c) (.departing kind g (if c.urg then 1 else 0) write) := by
  have hm' : (issuedThread s t).moored = false := hm
  simp only [departOr, hm', Bool.false_eq_true, if_false]
  rfl

omit h in
theorem departOr_moored (hm : t.moored = true) (kind : Nat) (remote write : Bool) (e : State) :
    departOr e (ctxOf s t o c) (issuedThread s t) kind remote write g =
      .trap { cause := cMOORED, remote := remote, xaddr := g, xpc := t.pc } := by
  have hm' : (issuedThread s t).moored = true := hm
  simp only [departOr, hm', if_true]
  rfl

/-- A moored thread asks the home (R194). -/
theorem sendRequest_issued : sendRequest (issuedFor s t o c) (ctxOf s t o c) (issuedThread s t) a g =
    hold ((if a.fetch then (issuedFor s t o c).modHere fun u => { u with aseq := u.aseq + 1 } else issuedFor s t o c).post
      { packetFor s t c g (.request a) with seq := t.aseq }) (ctxOf s t o c) (.awaiting s.nextId (resumeOf o c t c.d)) := by
  have hp := packetFor_issued o c h (g := g) (.request a)
  simp only [sendRequest, ctxOf_core, ctxOf_slot, issuedFor_domEntry o c h, issuedFor_nextId o c h, State.modHere,
    issuedFor_cur o c h, show (issuedThread s t).uid = t.uid from rfl, show (issuedThread s t).dom = t.dom from rfl, hp]
  rfl

omit h in
/-- An access that is performed on the thread's own core, in a state that the use of a translation may have made. -/
theorem loadHere_performs {e u : State} {old : Nat} {xl : Option Xl} (hp : ownPending e s.cur.1 (issuedThread s t) = false)
    (hd : e.domEntry s.cur.1 (issuedThread s t) = s.domEntry s.cur.1 t) (hw : homeWrite a g xl = none)
    (hfe : (∀ r off, regionOf (eaOff g) ≠ .lstore r off) ∨ (a.op ≠ .ldfe ∧ a.op ≠ .ldff))
    (hu : performHere e s.cur.1 t.dom (s.domEntry s.cur.1 t).priv a g xl = .ok (old, u)) :
    loadHere (issuedFor s t o c) e (ctxOf s t o c) (issuedThread s t) a g xl = .done (addPend
      (if a.fetch then u.modThread s.cur.1 s.cur.2 fun u => { u with aseq := u.aseq + 1 } else u) s.cur.1 s.cur.2
      (gRes c.d) (some [.g c.d.toNat (fetchValue a old)])) := by
  unfold loadHere
  simp only [ctxOf_core, hp, Bool.false_eq_true, if_false]
  split
  case h_1 r off hop hr =>
    rcases hfe with hfe | ⟨hfe, -⟩
    · exact absurd hr (hfe _ _)
    · exact absurd hop hfe
  case h_2 r off hop hr =>
    rcases hfe with hfe | ⟨-, hfe⟩
    · exact absurd hr (hfe _ _)
    · exact absurd hop hfe
  case h_3 =>
    have hu' : performHere e s.cur.1 (issuedThread s t).dom (s.domEntry s.cur.1 t).priv a g xl = .ok (old, u) := hu
    simp only [hw, hd, hu', ctxOf_slot, ctxOf_c]

/-- An access whose home is the thread's own core. -/
theorem loadFrom_own (hown : AtOwnCore s g) :
    loadFrom (issuedFor s t o c) (issuedFor s t o c) (ctxOf s t o c) (issuedThread s t) a g =
      loadHere (issuedFor s t o c) (issuedFor s t o c) (ctxOf s t o c) (issuedThread s t) a g none := by
  obtain ⟨k, hk, hep⟩ := hown
  have hdirect : loadDirect (issuedFor s t o c) (issuedFor s t o c) (ctxOf s t o c) (issuedThread s t) a g k =
      loadHere (issuedFor s t o c) (issuedFor s t o c) (ctxOf s t o c) (issuedThread s t) a g none := by
    unfold loadDirect
    rw [if_pos]
    simp only [ctxOf_core, issuedFor_ep o c h, hep, beq_self_eq_true, Bool.or_true]
  unfold homeCore at hk
  unfold loadFrom
  split at hk <;> simp_all

/-- An access whose home is another core. -/
theorem loadFrom_away (hat : t.atHome = none) (hk : (homeCore g).isSome = true) (hown : ¬ AtOwnCore s g) :
    loadFrom (issuedFor s t o c) (issuedFor s t o c) (ctxOf s t o c) (issuedThread s t) a g =
      departOr (issuedFor s t o c) (ctxOf s t o c) (issuedThread s t) 0 true a.needsW g := by
  have hdirect : ∀ k, homeCore g = some k →
      loadDirect (issuedFor s t o c) (issuedFor s t o c) (ctxOf s t o c) (issuedThread s t) a g k =
        departOr (issuedFor s t o c) (ctxOf s t o c) (issuedThread s t) 0 true a.needsW g := fun k hk => by
    have hne : eaCube g * 2048 + k ≠ s.ep s.cur.1 := fun heq => hown ⟨k, hk, heq⟩
    have hat' : (issuedThread s t).atHome = none := hat
    unfold loadDirect
    simp only [hat', ctxOf_core, issuedFor_ep o c h, beq_eq_false_iff_ne.mpr hne, Option.map_none,
      beq_eq_false_iff_ne.mpr (by simp : (none : Option Word) ≠ some g), Bool.or_self, Bool.false_eq_true, if_false]
  unfold homeCore at hk hdirect
  unfold loadFrom
  split at hk <;> simp_all

/-- A load of DRAM that is performed elsewhere: another cube, or a translation that does not name the core at hand. -/
theorem loadFrom_dram_away (hat : t.atHome = none) (hr : regionOf (eaOff g) = .dram)
    (haway : eaCube g ≠ s.logical ∨ ∀ xl, (dramUse s t o c a g).1 ≠ .ok (xl, s.cur.1)) :
    loadFrom (issuedFor s t o c) (issuedFor s t o c) (ctxOf s t o c) (issuedThread s t) a g =
      if t.moored then sendRequest (issuedFor s t o c) (ctxOf s t o c) (issuedThread s t) a g
      else departOr (issuedFor s t o c) (ctxOf s t o c) (issuedThread s t) 0 true a.needsW g := by
  have hat' : (issuedThread s t).atHome = none := hat
  have huse : translateUse (issuedFor s t o c) g (issuedThread s t).dom (s.domEntry s.cur.1 t).priv a.needsR a.needsW
      s.cur.1 = dramUse s t o c a g := rfl
  simp only [loadFrom, hr, loadDram, hat', Option.bind_none, issuedFor_logical o c h, ctxOf_core, issuedFor_domEntry o c h,
    huse]
  by_cases hcube : eaCube g = s.logical
  · simp only [hcube, bne_self_eq_false, Bool.false_eq_true, if_false]
    split
    next xl home hy =>
      have hne : home ≠ s.cur.1 := fun heq => haway.elim (fun hc => hc hcube) fun hall => hall xl (by rw [hy, heq])
      rw [if_neg (by simpa using hne)]
      rfl
    next => rfl
  · rw [if_pos (by simpa using hcube)]
    rfl

/-- A load of DRAM whose translation names the core at hand. -/
theorem loadFrom_dram_here {xl : Xl} (hat : t.atHome = none) (hr : regionOf (eaOff g) = .dram) (hcube : eaCube g = s.logical)
    (hy : (dramUse s t o c a g).1 = .ok (xl, s.cur.1)) :
    loadFrom (issuedFor s t o c) (issuedFor s t o c) (ctxOf s t o c) (issuedThread s t) a g =
      loadHere (issuedFor s t o c) (dramUse s t o c a g).2 (ctxOf s t o c) (issuedThread s t) a g (some xl) := by
  have hat' : (issuedThread s t).atHome = none := hat
  have huse : translateUse (issuedFor s t o c) g (issuedThread s t).dom (s.domEntry s.cur.1 t).priv a.needsR a.needsW
      s.cur.1 = dramUse s t o c a g := rfl
  simp only [loadFrom, hr, loadDram, hat', Option.bind_none, issuedFor_logical o c h, ctxOf_core, issuedFor_domEntry o c h,
    huse, hcube, bne_self_eq_false, Bool.false_eq_true, if_false, hy, beq_self_eq_true, if_true]

omit h in
/-- A load of DRAM of a thread that a ferry has brought to its home. -/
theorem loadFrom_dram_arrived {xl : Xl} (hat : t.atHome = some (g, xl)) (hr : regionOf (eaOff g) = .dram) :
    loadFrom (issuedFor s t o c) (issuedFor s t o c) (ctxOf s t o c) (issuedThread s t) a g =
      loadHere (issuedFor s t o c) (issuedFor s t o c) (ctxOf s t o c) (issuedThread s t) a g (some xl) := by
  have hat' : (issuedThread s t).atHome = some (g, xl) := hat
  simp only [loadFrom, hr, loadDram, hat', Option.bind_some, beq_self_eq_true, if_true]

/-- LDFE and LDFF sleep at their word (R201). -/
theorem loadHere_sleeps {r off : Nat} (hp : ownPending s s.cur.1 t = false) (hr : regionOf (eaOff g) = .lstore r off)
    (hop : a.op = .ldfe ∨ a.op = .ldff) (hfe : feCheck s s.cur.1 t.dom (a.op == .ldfe) off g = none) :
    loadHere (issuedFor s t o c) (issuedFor s t o c) (ctxOf s t o c) (issuedThread s t) a g none =
      .over (feThread ((issuedFor s t o c).modHere fun u => { u with pw := t.pw }) s.cur.1 s.cur.2
        (if a.op = .ldfe then 0 else 1) off (resumeOf o c t c.d) 0 g) := by
  have hdom : (issuedThread s t).dom = t.dom := rfl
  have hfe' : ∀ w, (a.op == .ldfe) = w → feCheck (issuedFor s t o c) s.cur.1 t.dom w off g = none := fun w hw => by
    rw [feCheck_issued o c h, ← hw, hfe]
  rcases hop with hop | hop
  · simp only [loadHere, ctxOf_core, ownPending_issued o c h, hp, hop, hr, hdom, hfe' true (by rw [hop]; rfl), asleep,
      State.modHere, issuedFor_cur o c h, Bool.false_eq_true, if_false]
    rfl
  · simp only [loadHere, ctxOf_core, ownPending_issued o c h, hp, hop, hr, hdom, hfe' false (by rw [hop]; rfl), asleep,
      State.modHere, issuedFor_cur o c h, Bool.false_eq_true, if_false]
    rfl

theorem loadHere_waits (xl : Option Xl) (hp : ownPending s s.cur.1 t = true) :
    loadHere (issuedFor s t o c) (issuedFor s t o c) (ctxOf s t o c) (issuedThread s t) a g xl = .wait .ownMessages := by
  simp only [loadHere, ctxOf_core, ownPending_issued o c h, hp, if_true]

end

theorem claim_globalLoadsAway : Claim.GlobalLoadsAway := by
  intro e he c s t g h hx hb hg hat a ha
  subst ha
  obtain ⟨body, hexec, hbody⟩ := globalLoads_body e he c s t g h hb hg
  rw [hexec]
  refine ⟨fun hr haway => ?dram, fun hk hown hm => ?free, fun hk hown hm => ?moored⟩
  case dram =>
    rw [loadFrom_dram_away e.1 c h _ hat hr haway] at hbody
    refine ⟨fun hm => issueChain_holds h hx ?_, fun hm => issueChain_holds h hx ?_⟩
    · rw [hbody, if_pos hm, sendRequest_issued e.1 c h]
    · rw [hbody, if_neg (by simp [hm]), departOr_free e.1 c hm]
  case free =>
    exact issueChain_holds h hx (by rw [hbody, loadFrom_away e.1 c h _ hat hk hown, departOr_free e.1 c hm])
  case moored =>
    refine issueChain_traps h hx (hbody.trans ?_)
    rw [loadFrom_away e.1 c h _ hat hk hown, departOr_moored e.1 c hm]

theorem claim_globalLoadsAtHome : Claim.GlobalLoadsAtHome := by
  intro e he c s t g h hx hb hg a ha priv hpriv
  obtain ⟨body, hexec, hbody⟩ := globalLoads_body e he c s t g h hb hg
  rw [← ha] at hbody
  have hop : a.op = e.2.1 := by rw [ha]; rfl
  have hdom := issuedFor_domEntry e.1 c h
  rw [hexec]
  subst hpriv
  refine ⟨fun hown hat hp hne hne' old u hu => ?own, fun xl hat hr hcube hy hp hw old u hu => ?here,
    fun xl hat hr hp hw old u hu => ?arrived, fun hown hat hp r off hr hop' hfe => ?sleeps, fun hown hp => ?waits⟩
  case own =>
    refine issueChain_done h hx ?_
    rw [hbody, loadFrom_own e.1 c h a hown]
    exact loadHere_performs e.1 c a ((ownPending_issued e.1 c h).trans hp) hdom rfl
      (.inr ⟨hop ▸ hne, hop ▸ hne'⟩) hu
  case here =>
    refine issueChain_done h hx ?_
    rw [hbody, loadFrom_dram_here e.1 c h a hat hr hcube hy]
    exact loadHere_performs e.1 c a hp ((CacheOnly.domEntry (CacheOnly.translateUse _ _ _ _ _ _ _) _ _).trans hdom) hw
      (.inl fun _ _ hl => by rw [hr] at hl; cases hl) hu
  case arrived =>
    refine issueChain_done h hx ?_
    rw [hbody, loadFrom_dram_arrived e.1 c a hat hr]
    exact loadHere_performs e.1 c a ((ownPending_issued e.1 c h).trans hp) hdom hw
      (.inl fun _ _ hl => by rw [hr] at hl; cases hl) hu
  case sleeps =>
    refine issueChain_over h hx ?_
    rw [hbody, loadFrom_own e.1 c h a hown, ← hop]
    rw [← hop] at hop' hfe
    exact loadHere_sleeps e.1 c h a hp hr hop' hfe
  case waits =>
    exact issueChain_waits h hx (by rw [hbody, loadFrom_own e.1 c h a hown, loadHere_waits e.1 c h a none hp])

/-! ### Messages (R191, R192, R195, R198, R200) -/

/-- A packet joins the mesh, and the thread at hand stays the same. -/
theorem post_cur (s : State) (p : Packet) : (s.post p).cur = s.cur := by
  have hsend : ∀ (u : State) (q : Packet), (u.send q).cur = u.cur := fun u q => (SameThreads.send u q).1
  unfold State.post
  split
  · exact hsend _ _
  · dsimp only
    split
    · exact hsend _ _
    · exact hsend _ _

/-- A message executes, after the fence of STREL, as its access at the global address that its checks give. -/
theorem globalMessages_body : ∀ e ∈ globalMessages, ∀ (c : Chain) (s : State) (t : Thread) (g : Word), s.here = some t →
    isQueue c.b = false → e.1 = .feclr ∨ isQueue c.d = false → Reaches s t e.1 c e.2 g →
    (e.1 = .strel → fenceClear t c.scope.code = true ∧ recordCovered t c.scope.code = false) →
    ∃ body, exec (Instr.ofOp e.1 c) s = issueChain e.1 c body s ∧
      body (ctxOf s t e.1 c) (issuedThread s t) (issuedFor s t e.1 c) =
        messageTo (issuedFor s t e.1 c) (issuedFor s t e.1 c) (ctxOf s t e.1 c) (issuedThread s t)
          (accessOf e.1 c t e.2 false) g := by
  have plain : ∀ (o : Op) (op : AccOp) (release : Bool), o ≠ .cas → (o = .feclr ↔ op = .feclr) →
      (release = true → o = .strel) → ∀ (c : Chain) (s : State) (t : Thread) (g : Word), s.here = some t →
      isQueue c.b = false → o = .feclr ∨ isQueue c.d = false → Reaches s t o c op g →
      (o = .strel → fenceClear t c.scope.code = true ∧ recordCovered t c.scope.code = false) →
      messageBody op release (ctxOf s t o c) (issuedThread s t) (issuedFor s t o c) =
        messageTo (issuedFor s t o c) (issuedFor s t o c) (ctxOf s t o c) (issuedThread s t) (accessOf o c t op false) g := by
    intro o op release ho hclr hrel c s t g h hb hd hg hf
    rw [Reaches, globalAddress, if_neg ho] at hg
    have hvalue : (if op == .feclr then .ok (0, issuedFor s t o c, false)
        else readField (issuedFor s t o c) (ctxOf s t o c) (issuedThread s t) c.d) =
        (.ok (if op = .feclr then 0 else t.scalar c.d, issuedFor s t o c, false) :
          Except Wait (Word × State × Bool)) := by
      by_cases hop : op = .feclr
      · simp [hop]
      · have hd' : isQueue c.d = false := hd.resolve_left fun heq => hop (hclr.mp heq)
        simp [hop, readField_reg hd']
    simp only [messageBody, memAddr_noQueue hb, ctxOf_c, hvalue, issueCheck_issued o c h (ctxOf s t o c) rfl, hg]
    have hacc : (ctxOf s t o c).access op false (if op = .feclr then 0 else t.scalar c.d) 0 = accessOf o c t op false := by
      simp only [accessOf, if_neg ho]
      rfl
    rw [hacc]
    cases release with
    | false => rfl
    | true =>
      obtain ⟨hclear, hrec⟩ := hf (hrel rfl)
      have hclear' : fenceClear (issuedThread s t) c.scope.code = true := hclear
      have hrec' : recordCovered (issuedThread s t) c.scope.code = false := hrec
      simp only [if_true, fenceThen, hclear', hrec', Bool.not_true, Bool.false_eq_true, if_false]
  simp only [globalMessages, List.forall_mem_cons]
  refine ⟨?st, ?strel, ?aadd, ?aand, ?aor, ?axor, ?amin, ?amax, ?aminn, ?amaxn, ?afadd, ?stfe, ?stff, ?feclr,
    List.forall_mem_nil _⟩
  case strel => exact fun c s t g h hb hd hg hf =>
    ⟨_, rfl, plain _ _ _ (by decide) (by decide) (by decide) c s t g h hb hd hg fun _ => hf trivial⟩
  case feclr => exact fun c s t g h hb _ hg hf =>
    ⟨_, rfl, plain _ _ _ (by decide) (by decide) (by decide) c s t g h hb (.inl rfl) hg hf⟩
  all_goals exact fun c s t g h hb hd hg hf =>
    ⟨_, rfl, plain _ _ _ (by decide) (by decide) (by decide) c s t g h hb hd hg hf⟩

section
variable {s : State} {t : Thread} (o : Op) (c : Chain) (h : s.here = some t) (a : Access) {g : Word}
include h

/-- A message of the executing chain, posted and counted. -/
theorem sendMessage_issued : sendMessage (issuedFor s t o c) (ctxOf s t o c) (issuedThread s t) a g =
    posted (issuedFor s t o c) { packetFor s t c g (.access a) with seq := t.aseq } a.scope true := by
  have hp := packetFor_issued o c h (g := g) (.access a)
  simp only [sendMessage, posted, ctxOf_core, ctxOf_slot, issuedFor_domEntry o c h, State.modHere, post_cur,
    issuedFor_cur o c h, show (issuedThread s t).uid = t.uid from rfl, show (issuedThread s t).dom = t.dom from rfl, hp]
  rfl

omit a in
theorem pathCarries_issued (cube k : Nat) : pathCarries (issuedFor s t o c) cube k = pathCarries s cube k := by
  simp only [pathCarries, issuedFor_logical o c h, issuedFor_paths o c h]

/-- A message whose class the path carries is sent, but an STFE to the store of the core at hand is performed there. -/
theorem messageTo_carried (hk : ∀ k, atomicClass a.op = some k → pathCarries s (eaCube g) k = true) :
    messageTo (issuedFor s t o c) (issuedFor s t o c) (ctxOf s t o c) (issuedThread s t) a g =
      match a.op, regionOf (eaOff g) with
      | .stfe, .lstore k off =>
        if eaCube g == s.logical && k == s.cur.1 then
          stfeHere (issuedFor s t o c) (issuedFor s t o c) (ctxOf s t o c) (issuedThread s t) a g off
        else .done (sendMessage (issuedFor s t o c) (ctxOf s t o c) (issuedThread s t) a g)
      | _, _ => .done (sendMessage (issuedFor s t o c) (ctxOf s t o c) (issuedThread s t) a g) := by
  unfold messageTo
  cases hop : atomicClass a.op with
  | none => simp only [Bool.false_eq_true, if_false, issuedFor_logical o c h, ctxOf_core] <;> rfl
  | some k =>
    simp only [pathCarries_issued o c h, hk k hop, Bool.not_true, Bool.false_eq_true, if_false, issuedFor_logical o c h,
      ctxOf_core] <;> rfl

/-- A message that is no STFE to the store of the core at hand is sent. -/
theorem messageTo_sends (hk : ∀ k, atomicClass a.op = some k → pathCarries s (eaCube g) k = true)
    (hfe : a.op = .stfe → ∀ off, ¬ InOwnStore s g off) :
    messageTo (issuedFor s t o c) (issuedFor s t o c) (ctxOf s t o c) (issuedThread s t) a g =
      .done (posted (issuedFor s t o c) { packetFor s t c g (.access a) with seq := t.aseq } a.scope true) := by
  rw [messageTo_carried o c h a hk, ← sendMessage_issued o c h]
  split
  next k off hop hr =>
    rw [if_neg]
    intro hown
    rw [Bool.and_eq_true, beq_iff_eq, beq_iff_eq] at hown
    exact hfe hop off ⟨hown.2 ▸ hr, hown.1⟩
  next => rfl

/-- An STFE to a word of the store of the core at hand sleeps there (R200). -/
theorem messageTo_sleeps {off : Nat} (hop : a.op = .stfe) (hown : InOwnStore s g off) (hp : ownPending s s.cur.1 t = false)
    (hfe : feCheck s s.cur.1 t.dom true off g = none) :
    messageTo (issuedFor s t o c) (issuedFor s t o c) (ctxOf s t o c) (issuedThread s t) a g =
      .over (feThread ((issuedFor s t o c).modHere fun u => { u with pw := t.pw }) s.cur.1 s.cur.2 2 off
        (resumeOf o c t 10) a.val g) := by
  obtain ⟨hr, hcube⟩ := hown
  have hdom : (issuedThread s t).dom = t.dom := rfl
  rw [messageTo_carried o c h a fun k hk => by rw [hop] at hk; cases hk]
  simp only [hop, hr, hcube, beq_self_eq_true, Bool.and_self, if_true, stfeHere, ctxOf_core, ownPending_issued o c h, hp,
    hdom, feCheck_issued o c h, hfe, asleep, State.modHere, issuedFor_cur o c h, Bool.false_eq_true, if_false]
  rfl

/-- A message whose class the path lacks departs, or takes MOORED (R195). -/
theorem messageTo_lacking {k : Nat} (hop : atomicClass a.op = some k) (hk : pathCarries s (eaCube g) k = false) :
    messageTo (issuedFor s t o c) (issuedFor s t o c) (ctxOf s t o c) (issuedThread s t) a g =
      departOr (issuedFor s t o c) (ctxOf s t o c) (issuedThread s t) 1 false true g := by
  simp only [messageTo, hop, pathCarries_issued o c h, hk, Bool.not_false, if_true]

end

/-- Settles O28: a message is sent, or departs for want of a path, or is an STFE that sleeps at its own core. -/
theorem globalMessages : Obligations.GlobalMessages := by
  intro e he c s t g h hx hb hd hg hf
  obtain ⟨body, hexec, hbody⟩ := globalMessages_body e he c s t g h hb hd hg hf
  rw [hexec]
  refine ⟨fun hk hfe => ?sends, fun k hop hk => ⟨fun hm => ?departs, fun hm => ?moored⟩, fun off hop hown hp hfe => ?sleeps⟩
  case sends => exact issueChain_done h hx (hbody.trans (messageTo_sends e.1 c h _ hk hfe))
  case departs =>
    refine issueChain_holds h hx ?_
    rw [hbody, messageTo_lacking e.1 c h _ hop hk, departOr_free e.1 c hm]
  case moored =>
    refine issueChain_traps h hx (hbody.trans ?_)
    rw [messageTo_lacking e.1 c h _ hop hk, departOr_moored e.1 c hm]
  case sleeps =>
    refine issueChain_over h hx ?_
    rw [hbody, messageTo_sleeps e.1 c h _ hop hown hp hfe]
    have hval : (accessOf e.1 c t e.2 false).val = t.scalar c.d := by simp [accessOf, hop]
    rw [hval]

/-- Settles O27: the home of the address decides between a request, a ferry, MOORED and an access on the spot. -/
theorem globalLoads : Obligations.GlobalLoads := ⟨claim_globalLoadsAway, claim_globalLoadsAtHome⟩

/-! ### FENCE (R198, R199) -/

theorem fenceClear_iff (t : Thread) (scope : Nat) : fenceClear t scope = true ↔ ∀ e ∈ t.sends, scope < e.2 := by
  simp [fenceClear]

/-- Settles O29: a fence is clear or not, and a record that it covers is a trap. -/
theorem fences : Obligations.Fences := by
  intro c s t h hx
  have hexec : exec (.fence c) s = issueChain .fence c fenceBody s := rfl
  have hbody : ∀ e, fenceBody (ctxOf s t .fence c) (issuedThread s t) e =
      if !fenceClear t c.scope.code then .wait (.fence c.scope.code)
      else if recordCovered t c.scope.code then .trap (recordTrap t t.pc) else .done e := fun _ => rfl
  rw [hexec]
  refine ⟨fun hclear hrec => issueChain_done h hx ?_, fun hpend => issueChain_waits h hx ?_,
    fun hclear hrec hscope => issueChain_traps h hx ?_⟩
  · have hrec' : recordCovered t c.scope.code = false := by
      rcases hrec with hrec | hrec <;> simp [recordCovered, hrec]
    simp [hbody, (fenceClear_iff t _).mpr hclear, hrec']
  · have hclear : fenceClear t c.scope.code = false := by
      obtain ⟨e, he, hle⟩ := hpend
      exact Bool.eq_false_iff.mpr fun hall => absurd ((fenceClear_iff t _).mp hall e he) (by omega)
    simp [hbody, hclear]
  · simp [hbody, (fenceClear_iff t _).mpr hclear, recordCovered, hrec, hscope, recordTrap]

end Sys2Proof.Machine

end

section
/-! PROOFS. What a home does with an access, and the values of the atomics (spec/07 R189, R192, R193). -/

namespace Sys2Proof.Machine

/-! ### A word of the local store of the core at hand -/

theorem useSpace_cur (s : State) (unit dom : Nat) : (s.useSpace unit dom).cur = s.cur := by
  unfold State.useSpace
  split <;> rfl

theorem useSpace_core (s : State) (unit dom core : Nat) : (s.useSpace unit dom).core core = s.core core := by
  simp only [State.core, cores_useSpace]

theorem useSpace_hereCore (s : State) (unit dom : Nat) : (s.useSpace unit dom).hereCore = s.hereCore := by
  rw [State.hereCore, useSpace_cur, useSpace_core]
  rfl

/-- An access to a local store that passes its checks is performed on the bytes of the store. -/
theorem performHere_lstore {s : State} {home dom : Nat} {priv : Bool} {a : Access} {g : Word} {h off : Nat}
    (hr : regionOf (eaOff g) = .lstore h off) (hown : ownerOk (s.useSpace home dom) home dom = true)
    (hlock : threadConflict (s.core home) a.op.isWrite ⟨0, off, a.n⟩ = false) {r : Nat × State}
    (hu : performLocal (s.useSpace home dom) home off a = .ok r) :
    performHere s home dom priv a g none = .ok r := by
  have hcheck : homeCheck (s.useSpace home dom) home dom priv a g = none := by
    simp only [homeCheck, hr, hown, if_true]
  have hlocked : homeLocked (s.useSpace home dom) home a g none = false := by
    simp only [homeLocked, accessSpan, hr, useSpace_core, hlock]
  simp only [performHere, hcheck, hlocked, Bool.false_eq_true, if_false, homePerform, hr, hu]

theorem performLocal_ld {s : State} {home off : Nat} {a : Access} (hp : (s.core home).poison.contains (0, off / 8) = false)
    (hop : a.op = .ld) : performLocal s home off a = .ok ((s.core home).lstore.read off a.n, s) := by
  simp only [performLocal, hp, hop, Bool.and_false, Bool.false_eq_true, if_false, beq_self_eq_true, if_true]

theorem performLocal_stores {s : State} {home off : Nat} {a : Access}
    (hp : (s.core home).poison.contains (0, off / 8) = false) (hop : a.op ≠ .ld) :
    performLocal s home off a = .ok ((s.core home).lstore.read off a.n, s.setCore home
      { cleanPoison (s.core home) 0 off a.n with
        lstore := (s.core home).lstore.write off a.n
          (atomValue a.op a.et a.n ((s.core home).lstore.read off a.n) a.val.toNat a.cmp.toNat) }) := by
  simp only [performLocal, hp, Bool.and_false, Bool.false_eq_true, if_false, beq_iff_eq, hop]

theorem claim_homeLocalStore : Claim.HomeLocalStore := by
  intro s dom priv a g h off hr hown hlock hp
  have hcore : (s.useSpace s.cur.1 dom).core s.cur.1 = s.hereCore := useSpace_core s _ _ _
  have hp' : ((s.useSpace s.cur.1 dom).core s.cur.1).poison.contains (0, off / 8) = false := hcore ▸ hp
  by_cases hop : a.op = .ld
  · have hu := performLocal_ld hp' hop
    rw [hcore] at hu
    exact ⟨_, performHere_lstore hr hown hlock hu, fun _ => rfl, fun hne => absurd hop hne⟩
  · have hu := performLocal_stores hp' hop
    rw [hcore] at hu
    refine ⟨_, performHere_lstore hr hown hlock hu, fun heq => absurd heq hop, fun _ => ?_⟩
    rw [State.withStore, useSpace_hereCore, useSpace_cur]
    rfl

/-! ### The values of the atomics -/

/-- A signed comparison of two words is the comparison of their values as `atomValue` takes them. -/
theorem slt_ofNat {w x y : Nat} (hw : 0 < w) (hx : x < 2 ^ w) (hy : y < 2 ^ w) :
    ((BitVec.ofNat w x).slt (BitVec.ofNat w y) = true) ↔
      (if 2 ^ (w - 1) ≤ x then (x : Int) - (2 ^ w : Nat) else x) < (if 2 ^ (w - 1) ≤ y then (y : Int) - (2 ^ w : Nat) else y) := by
  have hpow : 2 ^ w = 2 * 2 ^ (w - 1) := by rw [← Nat.pow_succ', Nat.succ_eq_add_one, Nat.sub_add_cancel hw]
  have hsigned : ∀ z, z < 2 ^ w → (BitVec.ofNat w z).toInt = if 2 ^ (w - 1) ≤ z then (z : Int) - (2 ^ w : Nat) else z := by
    intro z hz
    rw [BitVec.toInt_eq_toNat_cond, BitVec.toNat_ofNat, Nat.mod_eq_of_lt hz]
    have hhalf : 2 * z < 2 ^ w ↔ ¬ 2 ^ (w - 1) ≤ z := by omega
    simp only [hhalf, ite_not, Nat.cast_pow]
  rw [BitVec.slt_iff_toInt_lt, hsigned x hx, hsigned y hy]

theorem claim_atomicValues : Claim.AtomicValues := by
  intro n mem v cmp et hn hmem hv hcmp
  have hw : 0 < 8 * n := by omega
  have hv' : v % 2 ^ (8 * n) = v := Nat.mod_eq_of_lt hv
  refine ⟨?sum, ?and, ?or, ?xor, ?swap, ?minn, ?maxn, ?min, ?max, ?cas⟩
  case sum => simp [atomValue, BitVec.toNat_add, hv']
  case min => simp only [atomValue, hv', slt_ofNat hw hv hmem]
  case max => simp only [atomValue, hv', slt_ofNat hw hmem hv]
  case cas => simp only [atomValue, hv', Nat.mod_eq_of_lt hcmp, beq_iff_eq]
  all_goals simp only [atomValue, hv']

/-- Settles O30: a home performs an access on the bytes of its store; the values are those of words of n bytes. -/
theorem homeAccesses : Obligations.HomeAccesses := ⟨claim_homeLocalStore, claim_atomicValues⟩

end Sys2Proof.Machine

end

section
/-! PROOFS. Barriers, messages and tasks (spec/07 R203-R210). -/

namespace Sys2Proof.Machine

/-! ### What the execution of a chain does in a state that it has already changed -/

/-- A result written at once to a register of the thread at hand. -/
theorem writeField_withReg {d : BitVec 4} (hd : isQueue d = false) (s e : State) (t : Thread) (o : Op) (c : Chain) (v : Word) :
    writeField e (ctxOf s t o c) d v false 0 = .done (withReg s e d v) := by
  simp only [writeField, hd, Bool.false_eq_true, if_false, pwOrFlags_none]
  rfl

theorem send_cur (s : State) (p : Packet) : (s.send p).cur = s.cur := (SameThreads.send s p).1

/-! ### The barrier that a chain names (R203) -/

section
variable {s : State} {t : Thread} (o : Op) (c : Chain) (h : s.here = some t)
include h

theorem namedBarrier_issued : barName (issuedFor s t o c) (issuedThread s t) c (immInt o c).toNat = namedBarrier s t o c := by
  rw [issuedFor_fields o c h]
  rfl

theorem toBarrier_issued (b : BarName) (body : Body) :
    toUnit (issuedFor s t o c) s.cur.1 s.cur.2 t.uid b body = toBarrier s t b body := by
  rw [issuedFor_fields o c h]
  rfl

theorem inBarScope_issued (b : BarName) : inBarScope (issuedFor s t o c) s.cur.1 b = inBarScope s s.cur.1 b := by
  rw [issuedFor_fields o c h]
  rfl

/-! ### Arrivals (R204) -/

/-- The body of an arrival: BAW beside a lost arrival, an arrival beside an unreleased one, or the message to the unit. -/
theorem arriveBody_issued (drop waits : Bool) :
    arriveBody drop waits (ctxOf s t o c) (issuedThread s t) (issuedFor s t o c) =
      if waits && (t.arrival.map (·.lost)).getD false then (ctxOf s t o c).trap cBOVER 4 (barAddr (namedBarrier s t o c))
      else if (t.arrival.map (fun a => !a.released)).getD false then
        (ctxOf s t o c).trap cBOVER 1 (barAddr (namedBarrier s t o c))
      else hold (((issuedFor s t o c).send (toBarrier s t (namedBarrier s t o c)
          (.barArrive (namedBarrier s t o c) (pwFlags t.pw) drop))).modHere fun u => { u with rs := waits }) (ctxOf s t o c)
        (.awaiting s.nextId ⟨nextPc o c t, c.marker, c.d, none, true⟩) := by
  simp only [arriveBody, ctxOf_core, ctxOf_slot, ctxOf_c, ctxOf_immNat, ctxOf_pw, namedBarrier_issued o c h,
    show (issuedThread s t).uid = t.uid from rfl, toBarrier_issued o c h, issuedFor_nextId o c h, State.modHere, send_cur,
    issuedFor_cur o c h]
  rfl

theorem binitBody_issued (ha : isQueue c.a = false) :
    binitBody (ctxOf s t o c) (issuedThread s t) (issuedFor s t o c) =
      if (t.scalar c.a).toNat == 0 || 2 ^ 26 < (t.scalar c.a).toNat then (ctxOf s t o c).trap cILLOP
      else hold ((issuedFor s t o c).send (toBarrier s t (namedBarrier s t o c)
          (.barInit (namedBarrier s t o c) (t.scalar c.a).toNat))) (ctxOf s t o c)
        (.awaiting s.nextId { resumeOf o c t 10 with fixed := true }) := by
  simp only [binitBody, ctxOf_core, ctxOf_slot, ctxOf_c, ctxOf_immNat, readField_reg ha, namedBarrier_issued o c h,
    issuedThread_scalar, show (issuedThread s t).uid = t.uid from rfl, toBarrier_issued o c h, issuedFor_nextId o c h]
  rfl

end

/-- An arrival of `arrivals` executes as `arriveBody`; BAW does so where it has not yet arrived. -/
theorem exec_arrivals : ∀ e ∈ arrivals, ∀ (c : Chain) (s : State) (t : Thread), t.rs = false →
    ∃ body, exec (Instr.ofOp e.1 c) s = issueChain e.1 c body s ∧
      ∀ u, body (ctxOf s t e.1 c) (issuedThread s t) u = arriveBody e.2.1 e.2.2 (ctxOf s t e.1 c) (issuedThread s t) u := by
  simp only [arrivals, List.forall_mem_cons]
  refine ⟨?barr, ?bdrop, ?baw, List.forall_mem_nil _⟩
  case barr | bdrop => exact fun c s t _ => ⟨_, rfl, fun _ => rfl⟩
  case baw =>
    refine fun c s t hrs => ⟨bawBody, rfl, fun u => ?_⟩
    have hrs' : (issuedThread s t).rs = false := hrs
    simp only [bawBody, hrs', Bool.false_eq_true, if_false]

theorem arrivals_waits : ∀ e ∈ arrivals, e.2.2 = true ↔ e.1 = .baw := by decide

theorem claim_barrierArrivals : Claim.BarrierArrivals := by
  intro c s t h
  refine ⟨fun hx ha hpos hmax => ?init, fun hx ha hbad => ?illegal, fun e he hx hrs hno => ?arrives,
    fun e he hx hrs a harr => ⟨fun hrel hlost => ?unreleased, fun hbaw hlost => ?lost⟩⟩
  case init =>
    refine issueChain_holds (body := binitBody) h hx ((binitBody_issued .binit c h ha).trans (if_neg ?_))
    simp only [Bool.or_eq_true, beq_iff_eq, decide_eq_true_eq]
    omega
  case illegal =>
    refine issueChain_traps (body := binitBody) h hx ((binitBody_issued .binit c h ha).trans (if_pos ?_))
    rw [Bool.or_eq_true, beq_iff_eq, decide_eq_true_eq]
    exact hbad.imp_left fun hz => by rw [hz]; rfl
  all_goals
    obtain ⟨body, hexec, hbody⟩ := exec_arrivals e he c s t hrs
    have hb := (hbody (issuedFor s t e.1 c)).trans (arriveBody_issued e.1 c h e.2.1 e.2.2)
    rw [hexec]
  case arrives =>
    refine issueChain_holds h hx (hb.trans ?_)
    cases harr : t.arrival with
    | none => simp only [Option.map_none, Option.getD_none, Bool.and_false, Bool.false_eq_true, if_false]
    | some a =>
      obtain ⟨hrel, hlost⟩ := hno a harr
      simp only [Option.map_some, Option.getD_some, hrel, hlost, Bool.and_false, Bool.not_true, Bool.false_eq_true, if_false]
  case unreleased =>
    have hwait : (e.2.2 && a.lost) = false := by
      rcases hlost with hlost | hlost
      · rw [hlost, Bool.and_false]
      · rw [Bool.eq_false_iff.mpr fun hw => hlost ((arrivals_waits e he).mp hw), Bool.false_and]
    refine issueChain_traps h hx (hb.trans ?_)
    simp only [harr, Option.map_some, Option.getD_some, hrel, hwait, Bool.not_false, Bool.false_eq_true, if_false, if_true]
    rfl
  case lost =>
    have hwait : e.2.2 = true := (arrivals_waits e he).mpr hbaw
    refine issueChain_traps h hx (hb.trans ?_)
    simp only [harr, Option.map_some, Option.getD_some, hlost, hwait, Bool.and_self, if_true]
    rfl

/-! ### Waits (R205, R253) -/

/-- BWAIT, and BAW once it has arrived, execute as `bwaitBody`. -/
theorem exec_bwait {o : Op} (ho : o = .bwait ∨ o = .baw) (c : Chain) (s : State) (t : Thread) (hrs : o = .baw → t.rs = true) :
    ∃ body, exec (Instr.ofOp o c) s = issueChain o c body s ∧
      ∀ u, body (ctxOf s t o c) (issuedThread s t) u = bwaitBody (ctxOf s t o c) (issuedThread s t) u := by
  rcases ho with rfl | rfl
  · exact ⟨bwaitBody, rfl, fun _ => rfl⟩
  · refine ⟨bawBody, rfl, fun u => ?_⟩
    have hrs' : (issuedThread s t).rs = true := hrs rfl
    simp only [bawBody, hrs', if_true]

section
variable {s : State} {t : Thread} (o : Op) (c : Chain) (h : s.here = some t)
include h

theorem bwaitBody_none (hno : ∀ a, t.arrival = some a → a.bar ≠ namedBarrier s t o c) :
    bwaitBody (ctxOf s t o c) (issuedThread s t) (issuedFor s t o c) = (ctxOf s t o c).trap cILLOP := by
  unfold bwaitBody
  have harr : (issuedThread s t).arrival = t.arrival := rfl
  cases ha : t.arrival with
  | none => simp only [harr, ha]
  | some a =>
    have hne : (a.bar != namedBarrier s t o c) = true := bne_iff_ne.mpr (hno a ha)
    simp only [harr, ha, ctxOf_c, ctxOf_immNat, namedBarrier_issued o c h, hne, if_true]

theorem bwaitBody_some (hd : isQueue c.d = false) {a : Arrival} (ha : t.arrival = some a)
    (hb : a.bar = namedBarrier s t o c) :
    bwaitBody (ctxOf s t o c) (issuedThread s t) (issuedFor s t o c) =
      if a.lost then (ctxOf s t o c).trap cBOVER 4 (barAddr (namedBarrier s t o c))
      else if a.released then
        .done (withReg s ((issuedFor s t o c).modHere fun u => { u with rs := false }) c.d
          (word (a.phase.toNat * 2 ^ 32 + a.fa.toNat)))
      else hold (if inBarScope s s.cur.1 (namedBarrier s t o c) then issuedFor s t o c
          else (issuedFor s t o c).send (toBarrier s t (namedBarrier s t o c)
            (.barQuery (namedBarrier s t o c) a.phase a.short))) (ctxOf s t o c)
        (.blocked (.barrierRelease ⟨nextPc o c t, c.marker, c.d, none, false⟩) (issueCycle s s.cur.1 t)) := by
  have harr : (issuedThread s t).arrival = some a := ha
  have hask : askUnit (issuedFor s t o c) s.cur.1 s.cur.2 t.uid a =
      if inBarScope s s.cur.1 (namedBarrier s t o c) then issuedFor s t o c
      else (issuedFor s t o c).send (toBarrier s t (namedBarrier s t o c)
        (.barQuery (namedBarrier s t o c) a.phase a.short)) := by
    simp only [askUnit, hb, inBarScope_issued o c h, toBarrier_issued o c h]
  have hcyc : (issuedFor s t o c).cyc s.cur.1 = issueCycle s s.cur.1 t := issued_cyc o c h
  simp only [bwaitBody, harr, ctxOf_c, ctxOf_immNat, ctxOf_core, ctxOf_slot, namedBarrier_issued o c h, hb, bne_self_eq_false,
    Bool.false_eq_true, if_false, writeField_withReg hd, hcyc, show (issuedThread s t).uid = t.uid from rfl, hask,
    State.modHere, issuedFor_cur o c h]
  rfl

end

theorem claim_barrierWaits : Claim.BarrierWaits := by
  intro o ho c s t h hx hrs hd
  obtain ⟨body, hexec, hbody⟩ := exec_bwait ho c s t hrs
  rw [hexec]
  refine ⟨fun a ha hbar hlost hrel => ?done, fun a ha hbar hlost hrel => ?waits, fun hno => ?illegal,
    fun a ha hbar hlost => ?lost⟩
  case done =>
    refine issueChain_done h hx (((hbody _).trans (bwaitBody_some o c h hd ha hbar)).trans ?_)
    simp only [hlost, hrel, Bool.false_eq_true, if_false, if_true]
  case waits =>
    refine issueChain_holds h hx (((hbody _).trans (bwaitBody_some o c h hd ha hbar)).trans ?_)
    simp only [hlost, hrel, Bool.false_eq_true, if_false]
  case illegal => exact issueChain_traps h hx ((hbody _).trans (bwaitBody_none o c h hno))
  case lost =>
    refine issueChain_traps h hx (((hbody _).trans (bwaitBody_some o c h hd ha hbar)).trans ?_)
    rw [if_pos hlost]
    rfl

/-- Settles O31: an arrival is refused or asks its unit; a wait finds its record released, lost, open or missing. -/
theorem barriers : Obligations.Barriers := ⟨claim_barrierArrivals, claim_barrierWaits⟩

/-! ### SEND and RECV (R207, R208) -/

section
variable {s : State} {t : Thread} (o : Op) (c : Chain) (h : s.here = some t)
include h

/-- A packet of the executing chain straight to an endpoint. -/
theorem directFor_issued (dst urg : Nat) (b : Body) :
    { directPacket (issuedFor s t o c) ((issuedFor s t o c).ep s.cur.1) dst urg t.uid s.cur.2 b with
      dom := t.dom, priv := (s.domEntry s.cur.1 t).priv, key := ((issuedFor s t o c).core s.cur.1).owner } =
      directFor s t dst urg b := by
  simp only [directPacket, issuedFor_ep o c h, issued_owner o c h, issuedFor_logical o c h]
  rfl

theorem beyondScope_issued (core : Nat) (sc : Scope) (ep : Nat) :
    beyondScope (issuedFor s t o c) core sc ep = beyondScope s core sc ep := by
  rw [issuedFor_fields o c h]
  rfl

/-- The words of SEND are posted to the endpoint of gd and counted. -/
theorem sendWords_issued (gd : Word) (ws : List Word) :
    sendWords (issuedFor s t o c) (ctxOf s t o c) (issuedThread s t) gd ws =
      posted (issuedFor s t o c) (directFor s t (bits gd 31 0) (classOf c)
        (.message (bits gd 63 32) ws (some t.group) c.urg none)) c.scope.code false := by
  have hp := directFor_issued o c h (bits gd 31 0) (classOf c) (.message (bits gd 63 32) ws (some t.group) c.urg none)
  rw [posted, State.modHere, post_cur, issuedFor_cur o c h, ← hp]
  simp only [sendWords, ctxOf_core, ctxOf_slot, ctxOf_c, issuedFor_domEntry o c h]
  rfl

/-- A load of the executing chain from a range of the local window that may be read. -/
theorem windowLoad_issuedFor {ea : Word} {n align off : Nat} (hl : Loadable s t ea n align off) :
    windowLoad ((issuedFor s t o c).core s.cur.1) ((issuedFor s t o c).domEntry s.cur.1 (issuedThread s t)) ea n align =
      .ok (s.hereCore.lstore.read off n) := windowLoad_issued o c h hl

/-- SEND reads gd, and from the send stage or the local store its words. -/
theorem sendBody_issued (ha : isQueue c.a = false) (hd : isQueue c.d = false)
    (hcore : epIsCore (bits (t.scalar c.d) 31 0) = true)
    (hscope : beyondScope s s.cur.1 c.scope (bits (t.scalar c.d) 31 0) = false) (n : Nat) (hn : n = (immInt o c).toNat) :
    sendBody (ctxOf s t o c) (issuedThread s t) (issuedFor s t o c) =
      if c.a == 10 then
        if t.stage.length < n then (ctxOf s t o c).trap cILLOP
        else .done ((sendWords (issuedFor s t o c) (ctxOf s t o c) (issuedThread s t) (t.scalar c.d)
          (t.stage.take n)).modThread s.cur.1 s.cur.2 fun u => { u with stage := u.stage.drop n })
      else match windowCheck (s.domEntry s.cur.1 t) (t.scalar c.a) (8 * n) 8 with
        | .error e => (ctxOf s t o c).raise e
        | .ok _ => match windowLoad ((issuedFor s t o c).core s.cur.1)
            ((issuedFor s t o c).domEntry s.cur.1 (issuedThread s t)) (t.scalar c.a) (8 * n) 8 with
          | .error e => (ctxOf s t o c).raise e
          | .ok v => .done (sendWords (issuedFor s t o c) (ctxOf s t o c) (issuedThread s t) (t.scalar c.d)
            (dwordsOf n v)) := by
  subst hn
  have hstage : (issuedThread s t).stage = t.stage := rfl
  simp only [sendBody, ctxOf_c, ctxOf_core, ctxOf_slot, ctxOf_immNat, readField_reg hd, readField_reg ha, issuedThread_scalar,
    hcore, Bool.not_true, Bool.false_eq_true, if_false, hstage, beyondScope_issued o c h, hscope,
    issuedFor_domEntry o c h] <;> rfl

end

theorem send_cases {s : State} {t : Thread} {c : Chain} (h : s.here = some t) (ha : isQueue c.a = false)
    (hd : isQueue c.d = false) (hx : executable s t .send c = true) (hcore : epIsCore (bits (t.scalar c.d) 31 0) = true)
    (hscope : beyondScope s s.cur.1 c.scope (bits (t.scalar c.d) 31 0) = false) :
    (c.a = 10 → (immInt .send c).toNat ≤ t.stage.length →
      exec (.send c) s = .next (endsIn s t .send c ((posted (issuedFor s t .send c)
        (directFor s t (bits (t.scalar c.d) 31 0) (classOf c) (.message (bits (t.scalar c.d) 63 32)
          (t.stage.take (immInt .send c).toNat) (some t.group) c.urg none)) c.scope.code false).modHere fun u =>
            { u with stage := u.stage.drop (immInt .send c).toNat }))) ∧
    (c.a ≠ 10 → ∀ off, Loadable s t (t.scalar c.a) (8 * (immInt .send c).toNat) 8 off →
      exec (.send c) s = .next (endsIn s t .send c (posted (issuedFor s t .send c)
        (directFor s t (bits (t.scalar c.d) 31 0) (classOf c) (.message (bits (t.scalar c.d) 63 32)
          (storeDwords s off (immInt .send c).toNat) (some t.group) c.urg none)) c.scope.code false))) := by
  have hb := sendBody_issued .send c h ha hd hcore hscope _ rfl
  refine ⟨fun hz hlen => issueChain_done (body := sendBody) h hx (hb.trans ?_),
    fun hz off hl => issueChain_done (body := sendBody) h hx (hb.trans ?_)⟩
  · rw [if_pos (beq_iff_eq.mpr hz), if_neg (by omega), sendWords_issued .send c h, State.modHere]
    have hcur : ∀ p n b, (posted (issuedFor s t .send c) p n b).cur = s.cur := fun p n b =>
      ((OthersKept.modThread _ _ _ _).1.trans (post_cur _ _)).trans (issuedFor_cur .send c h)
    rw [hcur]
  · have hwin := windowLoad_issuedFor .send c h hl
    obtain ⟨hcheck, -, -⟩ := hl
    rw [if_neg (by simpa using hz), hcheck]
    simp only [hwin, sendWords_issued .send c h]
    rfl

/-- RECV with a message queued: its words go to the local store. -/
theorem receiveAt_issued {s : State} {t : Thread} (o : Op) (c : Chain) (h : s.here = some t) {m : TaskMsg}
    {rest : List TaskMsg} {off task : Nat} (hq : (tgetD s.hereCore.recvq task {}).msgs = m :: rest) (hp : m.popped = 0)
    (hl : threadConflict s.hereCore true ⟨0, off, 8 * m.words.length⟩ = false) :
    receiveAt (issuedFor s t o c) s.cur.1 task off = some (.ok (m.hdr, replay
      ((issuedFor s t o c).modHereCore fun k => takeMessage k task off m rest) task)) := by
  have hl' : threadConflict ((issuedFor s t o c).core s.cur.1) true ⟨0, off, 8 * m.words.length⟩ = false :=
    (issued_conflict o c h _ _).trans hl
  simp only [receiveAt, issued_recvq o c h, hq, hp, hl', bne_self_eq_false, Bool.false_eq_true, if_false, State.modHereCore,
    issuedFor_cur o c h]
  rfl

/-- Settles O32: SEND posts the words of its stage or its store; RECV takes the head of its queue or waits. -/
theorem sendAndReceive : Obligations.SendAndReceive := by
  intro c s t h ha hd
  refine ⟨fun hx hcore hscope => (send_cases h ha hd hx hcore hscope).1,
    fun hx hcore hscope => (send_cases h ha hd hx hcore hscope).2, fun hx m rest off hq hp hcheck hs => ?receives,
    fun hx off hq hcheck => ?waits⟩
  case receives =>
    obtain ⟨-, hlock⟩ := hs
    have hr := receiveAt_issued .recv c h hq hp hlock
    refine issueChain_done (body := recvBody) h hx ?_
    simp only [recvBody, ctxOf_c, readField_reg ha, ctxOf_core, issued_recvq .recv c h, issuedThread_scalar,
      show (issuedThread s t).task = t.task from rfl, hq, hp, bne_self_eq_false, Bool.false_eq_true, if_false,
      issuedFor_domEntry .recv c h, hcheck, hr, writeField_withReg hd]
  case waits =>
    have hr : receiveAt (issuedFor s t .recv c) s.cur.1 t.task off = none := by
      simp only [receiveAt, issued_recvq .recv c h, hq]
    refine issueChain_waits (body := recvBody) h hx ?_
    simp only [recvBody, ctxOf_c, readField_reg ha, ctxOf_core, issued_recvq .recv c h, issuedThread_scalar,
      show (issuedThread s t).task = t.task from rfl, hq, Bool.false_eq_true, if_false, issuedFor_domEntry .recv c h, hcheck,
      hr]
    rfl

/-! ### SPAWN, TPOST and TBIND (R209, R210) -/

section
variable {s : State} {t : Thread} (o : Op) (c : Chain) (h : s.here = some t)
include h

theorem readPacket_issued {ea : Word} {off : Nat} (hl : Loadable s t ea 64 64 off) :
    readPacket (issuedFor s t o c) (ctxOf s t o c) (issuedThread s t) ea = .ok (storeDwords s off 8) := by
  simp only [readPacket, ctxOf_core, windowLoad_issuedFor o c h hl]
  rfl

omit h in
theorem readTwo_issued (ha : isQueue c.a = false) (hd : isQueue c.d = false) (e : State) :
    readTwo e (ctxOf s t o c) (issuedThread s t) = .ok (t.scalar c.d, t.scalar c.a, e) := by
  simp only [readTwo, ctxOf_c, readField_reg hd, readField_reg ha, issuedThread_scalar]

/-- A binding asks the entry, with the packet that the chain names or none. -/
theorem tbind_asks (n : Nat) (packet : Option (List Word)) (ga : Word) :
    ({ directPacket (issuedFor s t o c) ((issuedFor s t o c).ep s.cur.1) ((issuedFor s t o c).ep (triggerCore n)) 0 t.uid
        s.cur.2 (.tbind n packet) with
      dom := t.dom, priv := (s.domEntry s.cur.1 t).priv, key := ((issuedFor s t o c).core s.cur.1).owner, addr := ga }
      : Packet) = { directFor s t (s.ep (1024 + n / 64)) 0 (.tbind n packet) with addr := ga } := by
  rw [← directFor_issued o c h, issuedFor_ep o c h (triggerCore n)]
  rfl

end

/-- Settles O33: the packets of SPAWN, TPOST and TBIND are those of the thread at hand. -/
theorem spawnAndTriggers : Obligations.SpawnAndTriggers := by
  intro c s t h ha hd
  refine ⟨fun hx off hl hscope => ?spawn, fun hx hbits hscope => ?tpost, fun hx hz => ?unbind, fun hx hz off hl => ?bind⟩
  case spawn =>
    have hwin := hl.1
    have hs : (c.scope == .cube && eaCube (t.scalar c.d) != s.logical) = false := by
      rw [Bool.and_eq_false_imp, beq_iff_eq]
      exact fun hc => by rw [hscope hc, bne_self_eq_false]
    refine issueChain_done (body := spawnBody) h hx ?_
    simp only [spawnBody, readTwo_issued .spawn c ha hd, ctxOf_core, ctxOf_slot, ctxOf_c, issuedFor_domEntry .spawn c h, hwin,
      issuedFor_logical .spawn c h, hs, Bool.false_eq_true, if_false, readPacket_issued .spawn c h hl,
      show (issuedThread s t).uid = t.uid from rfl, show (issuedThread s t).dom = t.dom from rfl,
      packetFor_issued .spawn c h]
  case tpost =>
    have hs : (c.scope == .cube && bits (t.scalar c.d) 21 8 != s.logical) = false := by
      rw [Bool.and_eq_false_imp, beq_iff_eq]
      exact fun hc => by rw [hscope hc, bne_self_eq_false]
    refine issueChain_done (body := tpostBody) h hx ?_
    simp only [tpostBody, readTwo_issued .tpost c ha hd, ctxOf_core, ctxOf_slot, ctxOf_c, issuedFor_domEntry .tpost c h, hbits,
      issuedFor_logical .tpost c h, hs, bne_self_eq_false, Bool.false_eq_true, if_false,
      show (issuedThread s t).uid = t.uid from rfl, show (issuedThread s t).dom = t.dom from rfl,
      directFor_issued .tpost c h, triggerCore, ← Nat.add_assoc]
    rfl
  case unbind =>
    refine issueChain_holds (body := tbindBody) h hx ?_
    simp only [tbindBody, readTwo_issued .tbind c ha hd, ctxOf_core, ctxOf_slot, issuedFor_domEntry .tbind c h, hz,
      beq_self_eq_true, if_true, show (issuedThread s t).uid = t.uid from rfl, show (issuedThread s t).dom = t.dom from rfl,
      tbind_asks .tbind c h, issuedFor_nextId .tbind c h]
    rfl
  case bind =>
    refine issueChain_holds (body := tbindBody) h hx ?_
    simp only [tbindBody, readTwo_issued .tbind c ha hd, ctxOf_core, ctxOf_slot, issuedFor_domEntry .tbind c h,
      beq_iff_eq, hz, if_false, readPacket_issued .tbind c h hl, show (issuedThread s t).uid = t.uid from rfl,
      show (issuedThread s t).dom = t.dom from rfl, tbind_asks .tbind c h, issuedFor_nextId .tbind c h]
    rfl

end Sys2Proof.Machine

end

section
/-! PROOFS. Matrix chains, folios and stream registers (spec/06 R156-R171). -/

namespace Sys2Proof.Machine

/-! ### Bits of small words -/

theorem bits_high {n hi lo : Nat} {x : BitVec n} (h : x.toNat < 2 ^ lo) : bits x hi lo = 0 := by
  rw [bits, Nat.shiftRight_eq_div_pow, Nat.div_eq_of_lt h, Nat.zero_mod]

theorem bits_low {n hi : Nat} {x : BitVec n} (h : x.toNat < 2 ^ (hi + 1)) : bits x hi 0 = x.toNat := by
  rw [bits, Nat.shiftRight_zero, Nat.sub_zero, Nat.mod_eq_of_lt h]

/-! ### The slice of the core at hand after the issue -/

section
variable {s : State} {t : Thread} (o : Op) (c : Chain) (h : s.here = some t)
include h

theorem issued_matrixRoom : matrixRoom ((issuedFor s t o c).core s.cur.1) (issuedThread s t) = matrixRoom s.hereCore t := by
  rw [issued_core_all o c h]
  rfl

omit h in
/-- The address of a memory operand of the executing chain. -/
theorem memAddr_issuedFor (hp : portless c = true) :
    memAddr (issuedFor s t o c) (ctxOf s t o c) (issuedThread s t) = .ok (addressOf o c t, issuedFor s t o c, false) :=
  memAddr_issued hp

theorem issued_slice : ((issuedFor s t o c).core s.cur.1).slice = s.hereCore.slice := by
  rw [issued_core_all o c h]
  rfl

theorem issued_folios : (issuedFor s t o c).folios = s.folios := by rw [issuedFor_fields o c h]

/-! ### Matrix chains (R156, R157, R161, R162) -/

theorem mcfgBody_issued (ha : isQueue c.a = false) (hlt : (t.scalar c.a).toNat < 3) :
    mcfgBody (ctxOf s t o c) (issuedThread s t) (issuedFor s t o c) =
      if matrixRoom s.hereCore t then
        .done (enterMatrix (issuedFor s t o c) s.cur.1 s.cur.2 (issuedThread s t) (.mcfg (t.scalar c.a).toNat) 0 0 false)
      else .wait (.push 4) := by
  have hhi : bits (t.scalar c.a) 63 2 = 0 := bits_high (by omega)
  have hlo : bits (t.scalar c.a) 1 0 = (t.scalar c.a).toNat := bits_low (by omega)
  have hne : ((t.scalar c.a).toNat == 3) = false := beq_eq_false_iff_ne.mpr (by omega)
  simp only [mcfgBody, ctxOf_c, readField_reg ha, issuedThread_scalar, hhi, hlo, hne, bne_self_eq_false, Bool.or_self,
    Bool.false_eq_true, if_false, ctxOf_core, ctxOf_slot, issued_matrixRoom o c h]

theorem mgangBody_issued (ha : isQueue c.a = false) (hlt : (t.scalar c.a).toNat < 2 ^ 16) :
    mgangBody (ctxOf s t o c) (issuedThread s t) (issuedFor s t o c) =
      if 1024 ≤ s.cur.1 then .done (issuedFor s t o c)
      else .done ((issuedFor s t o c).modHereCore fun k =>
        { k with slice := { k.slice with gang := some (t.scalar c.a).toNat } }) := by
  have hhi : bits (t.scalar c.a) 63 16 = 0 := bits_high hlt
  have hlo : bits (t.scalar c.a) 15 0 = (t.scalar c.a).toNat := bits_low hlt
  simp only [mgangBody, ctxOf_c, readField_reg ha, issuedThread_scalar, hhi, hlo, bne_self_eq_false, Bool.false_eq_true,
    if_false, ctxOf_core, modHereCore_issued o c _ h]

/-- The bookmark address is set: a steward core has no slice to hold one (log 113). -/
def bookmarked (s : State) (e : State) (b : Option Nat) : State :=
  if 1024 ≤ s.cur.1 then e else e.modCore s.cur.1 fun k => { k with slice := { k.slice with bka := b } }

theorem mbookBody_issued (hp : portless c = true) :
    mbookBody (ctxOf s t o c) (issuedThread s t) (issuedFor s t o c) =
      if addressOf o c t == 0 then .done (bookmarked s (issuedFor s t o c) none)
      else match windowCheck (s.domEntry s.cur.1 t) (addressOf o c t) 64 64 with
        | .error r => (ctxOf s t o c).raise r
        | .ok off => if threadConflict s.hereCore false ⟨0, off, 64⟩ then
            (ctxOf s t o c).raise { cause := cRLOCK, xaddr := addressOf o c t }
          else .done (bookmarked s (issuedFor s t o c) (some off)) := by
  have hconf : ∀ sp, threadConflict ((issuedFor s t o c).core s.cur.1) false sp = threadConflict s.hereCore false sp :=
    issued_conflict o c h false
  by_cases hcore : 1024 ≤ s.cur.1 <;>
    simp only [mbookBody, memAddr_issuedFor o c hp, ctxOf_core, issuedFor_domEntry o c h, hconf, hcore, bookmarked, if_true,
      if_false] <;> rfl

end

/-- Settles O34: each matrix chain enters the order, or sets its register of the slice, where its core has one. -/
theorem matrixChains : Obligations.MatrixChains := by
  intro c s t h
  have hzero : ∀ {w : Word}, w = 0 → (w == 0) = true := fun h => beq_iff_eq.mpr h
  refine ⟨fun hx ha hlt => ⟨fun hroom => ?mcfg, fun hroom => ?full⟩, fun hx ha hlt hcore => ?mgang,
    fun hx hp hroom off hl => ?mresume, fun hx hp hz hcore => ?clears,
    fun hx hp hz hcore off hcheck => ⟨fun hconf => ?sets, fun hconf => ?locked⟩, fun hcore =>
      ⟨fun hx ha hlt => ?stewardGang, fun hx hp hz => ?stewardBook⟩⟩
  case mcfg =>
    exact issueChain_done (body := mcfgBody) h hx ((mcfgBody_issued .mcfg c h ha hlt).trans (if_pos hroom))
  case full =>
    exact issueChain_waits (body := mcfgBody) h hx
      ((mcfgBody_issued .mcfg c h ha hlt).trans (if_neg (Bool.eq_false_iff.mp hroom)))
  case mgang =>
    exact issueChain_done (body := mgangBody) h hx ((mgangBody_issued .mgang c h ha hlt).trans (if_neg (by omega)))
  case mresume =>
    refine issueChain_done (body := mresumeBody) h hx ?_
    simp only [mresumeBody, memAddr_issuedFor .mresume c hp, ctxOf_core, ctxOf_slot, windowLoad_issuedFor .mresume c h hl,
      issued_matrixRoom .mresume c h, hroom, if_true]
    rfl
  case clears =>
    refine issueChain_done (body := mbookBody) h hx ((mbookBody_issued .mbook c h hp).trans ?_)
    rw [if_pos (hzero hz), bookmarked, if_neg (by omega), modHereCore_issued .mbook c _ h]
  case sets =>
    refine issueChain_done (body := mbookBody) h hx ((mbookBody_issued .mbook c h hp).trans ?_)
    rw [if_neg (by simpa using hz), hcheck]
    simp only [hconf, Bool.false_eq_true, if_false, bookmarked, if_neg (by omega : ¬ 1024 ≤ s.cur.1),
      modHereCore_issued .mbook c _ h]
  case locked =>
    refine issueChain_traps (body := mbookBody) h hx ((mbookBody_issued .mbook c h hp).trans ?_)
    rw [if_neg (by simpa using hz), hcheck]
    simp only [hconf, if_true]
    rfl
  case stewardGang =>
    exact issueChain_done (body := mgangBody) h hx ((mgangBody_issued .mgang c h ha hlt).trans (if_pos hcore))
  case stewardBook =>
    refine issueChain_done (body := mbookBody) h hx ((mbookBody_issued .mbook c h hp).trans ?_)
    rw [if_pos (hzero hz), bookmarked, if_pos hcore]

/-! ### Folios (R163-R167) -/

section
variable {s : State} {t : Thread} (o : Op) (c : Chain) (h : s.here = some t)
include h

/-- A lock of the core at hand is registered where its table has room and nothing conflicts (R146, R147). -/
theorem registerLock_issued {l : RangeLock} (hspans : l.spans ≠ []) (hlen : s.hereCore.locks.length < 32)
    (hseal : s.hereCore.sealed = false) (hconf : engineConflict s.hereCore l.owner l.write l.spans = false) :
    registerLock ((issuedFor s t o c).core s.cur.1) l = some
      { (issuedFor s t o c).core s.cur.1 with locks := ((issuedFor s t o c).core s.cur.1).locks ++ [l] } := by
  have hlocks : ((issuedFor s t o c).core s.cur.1).locks = s.hereCore.locks := by rw [issued_core_all o c h]; rfl
  have hsealed : ((issuedFor s t o c).core s.cur.1).sealed = false := by rw [issued_core_all o c h]; exact hseal
  have hconf' : engineConflict ((issuedFor s t o c).core s.cur.1) l.owner l.write l.spans = false := by
    rw [issued_core_all o c h]; exact hconf
  have hroom : decide (32 ≤ s.hereCore.locks.length) = false := decide_eq_false (by omega)
  simp only [registerLock, List.isEmpty_eq_false_iff.mpr hspans, hsealed, hlocks, hconf', hroom, Bool.false_and, Bool.or_self,
    Bool.false_eq_true, if_false]

theorem joinReply_issued (a b : Word) : joinReply (issuedFor s t o c) s.cur.1 a b = joinReply s s.cur.1 a b := by
  simp only [joinReply, issued_folios o c h, issued_slice o c h]
  rfl

end

/-- The reply of FJOIN to a core of the die, of the handle's folio, with no subscription yet and a window that fits. -/
theorem joinReply_subscribes {s : State} {a b : Word} {key : Nat} {f : Folio} (hcore : s.cur.1 < 1024)
    (hdie : bits a 9 8 = s.cur.1 / 256) (hkey : folioKey a = some key) (hf : tget s.folios key = some f)
    (hopen : f.closed = false) (hsub : s.hereCore.slice.sub = none) (hpos : 0 < b.toNat) (hmax : b.toNat ≤ 8)
    (hfit : b.toNat * f.blen ≤ 131072) :
    joinReply s s.cur.1 a b = (0, some ⟨key / 8, key % 8, b.toNat, 0, []⟩) := by
  have hsub' : (s.core s.cur.1).slice.sub = none := hsub
  have hzero : (b.toNat == 0) = false := beq_eq_false_iff_ne.mpr (by omega)
  simp only [joinReply, if_pos hcore, hdie, bne_self_eq_false, hkey, hf, hopen, hsub', Option.isSome_none, hzero,
    Bool.false_or, Bool.false_eq_true, if_false, decide_eq_true_eq, if_neg (by omega : ¬ 1024 ≤ s.cur.1),
    Bool.or_eq_true, if_neg (by omega : ¬ (8 < b.toNat ∨ 131072 < b.toNat * f.blen))]

theorem fjoinBody_issued {s : State} {t : Thread} (c : Chain) (h : s.here = some t) (ha : isQueue c.a = false)
    (hb : isQueue c.b = false) (hd : isQueue c.d = false) :
    fjoinBody (ctxOf s t .fjoin c) (issuedThread s t) (issuedFor s t .fjoin c) =
      .done (withReg s (match (joinReply s s.cur.1 (t.scalar c.a) (t.scalar c.b)).2 with
        | none => issuedFor s t .fjoin c
        | some sub => (issuedFor s t .fjoin c).modHereCore fun k => { k with slice := { k.slice with sub := some sub } })
        c.d (word (joinReply s s.cur.1 (t.scalar c.a) (t.scalar c.b)).1)) := by
  simp only [fjoinBody, ctxOf_c, readField_reg ha, readField_reg hb, issuedThread_scalar, ctxOf_core,
    joinReply_issued .fjoin c h, Bool.or_self, writeField_withReg hd, modHereCore_issued .fjoin c _ h] <;> rfl

/-- The block length and the base of a folio are in order (R164). -/
theorem folioFields_ok {blen base pad : Nat} (hpos : 0 < blen) (hmax : blen ≤ 2 ^ 17) (hzero : pad = 0)
    (halign : base % 64 = 0) : (blen == 0 || 2048 * 64 < blen || pad != 0 || base % 64 != 0) = false := by
  simp only [hzero, halign, bne_self_eq_false, Bool.or_false, Bool.or_eq_false_iff, beq_eq_false_iff_ne,
    decide_eq_false_iff_not]
  omega

/-- The buffer of a folio lies in the window of its domain and in the local store (R164). -/
theorem folioRange_ok {e : DomCopy} {base len : Nat} (hguard : e.guard base len = true) (hend : base + len ≤ 2 ^ 22) :
    (!(e.guard base len && decide (base + len ≤ 4194304))) = false := by
  simpa [hguard] using hend

/-- A word whose bit 15 is 0 has nothing there to clear. -/
theorem clear_bit15 {w : Word} (hw : bit w 15 = false) : w &&& ~~~ (0x8000 : Word) = w := by
  refine BitVec.eq_of_getLsbD_eq fun i hi => ?_
  have hmask : (0x8000 : Word) = BitVec.twoPow 64 15 := by decide
  rw [BitVec.getLsbD_and, BitVec.getLsbD_not, hmask, BitVec.getLsbD_twoPow]
  by_cases h15 : 15 = i
  · have hbit : w.getLsbD 15 = false := hw
    rw [← h15, hbit, Bool.false_and]
  · simp [hi, h15]

/-- Settles O35: a folio is opened under its lock, joined by its reply, closed by its producer or left by its slice. -/
theorem folios : Obligations.Folios := by
  intro c s t h ha hb hd
  refine ⟨fun hx i hcore hpos hmax hzero halign hguard hend hi hfree hlow hlen hseal hconf => ?opens,
    fun hx key f hcore hdie hkey hf hopen hsub hpos hmax hfit => ?joins, fun hx code hcode => ?refused,
    fun hx key f hbit hkey hf hprod => ?closes, fun hx sub hbit hsub hkey => ?leaves⟩
  case opens =>
    have hfind : ((List.range 8).find? fun j => (tget s.folios (quireOf s.cur.1 * 8 + j)).isNone) = some i := by
      rw [List.find?_range_eq_some]
      refine ⟨Option.isNone_iff_eq_none.mpr hfree, List.mem_range.mpr hi, fun j hj => ?_⟩
      have hsome : (tget s.folios (quireOf s.cur.1 * 8 + j)).isSome = true := hlow j hj
      rw [← Option.not_isSome, hsome]
      rfl
    have hreg := registerLock_issued .fopen c h (l := folioLock s i (t.scalar c.a)) (by simp [folioLock]) hlen hseal hconf
    have hbad := folioFields_ok (blen := bits (t.scalar c.a) 63 48 * 64) (base := bits (t.scalar c.a) 21 0) hpos hmax hzero
      halign
    have hrange := folioRange_ok (base := bits (t.scalar c.a) 21 0)
      (len := (bits (t.scalar c.a) 47 38 + 1) * (bits (t.scalar c.a) 63 48 * 64)) hguard hend
    have hquire : ¬ 64 ≤ quireOf s.cur.1 := by
      unfold quireOf
      omega
    refine issueChain_done (body := fopenBody) h hx ?_
    simp only [fopenBody, ctxOf_c, readField_reg ha, issuedThread_scalar, ctxOf_core, issuedFor_domEntry .fopen c h, hbad,
      hrange, issued_folios .fopen c h, hfind, hquire, Bool.false_eq_true, if_false, writeField_withReg hd,
      modHereCore_issued .fopen c _ h]
    simp only [folioLock, folioBase, folioCount, folioBlock] at hreg
    simp only [quireOf, hreg]
    rfl
  case joins =>
    refine issueChain_done (body := fjoinBody) h hx ((fjoinBody_issued c h ha hb hd).trans ?_)
    rw [joinReply_subscribes hcore hdie hkey hf hopen hsub hpos hmax hfit]
    rfl
  case refused =>
    refine issueChain_done (body := fjoinBody) h hx ((fjoinBody_issued c h ha hb hd).trans ?_)
    rw [hcode]
  case closes =>
    have hclear : folioKey (t.scalar c.a &&& ~~~ (0x8000 : Word)) = some key := by rw [clear_bit15 hbit, hkey]
    refine issueChain_done (body := fcloseBody) h hx ?_
    simp only [fcloseBody, ctxOf_c, readField_reg ha, issuedThread_scalar, hclear, hbit, Bool.false_eq_true, if_false,
      issued_folios .fclose c h, hf, ctxOf_core, hprod, beq_self_eq_true, if_true]
  case leaves =>
    refine issueChain_done (body := fcloseBody) h hx ?_
    simp only [fcloseBody, ctxOf_c, readField_reg ha, issuedThread_scalar, hkey, hbit, ctxOf_core, issued_slice .fclose c h,
      hsub, beq_self_eq_true, if_true, modHereCore_issued .fclose c _ h]

end Sys2Proof.Machine

end

section
/-! PROOFS. Stream registers, copies and bank-dot (spec/06 R168-R183). -/

namespace Sys2Proof.Machine

/-! ### Updates of the thread at hand -/

/-- Two updates that agree on the thread at hand. -/
theorem modThread_congr {e : State} {core slot : Nat} {u : Thread} {f g : Thread → Thread}
    (hu : e.thread? core slot = some u) (hf : f u = g u) : e.modThread core slot f = e.modThread core slot g := by
  rw [State.modThread_eq f hu, State.modThread_eq g hu, hf]

section
variable {s : State} {t : Thread} (o : Op) (c : Chain) (h : s.here = some t)
include h

/-- A load of the executing chain under the domain of the thread at hand. -/
theorem windowLoad_here {ea : Word} {n align off : Nat} (hl : Loadable s t ea n align off) :
    windowLoad ((issuedFor s t o c).core s.cur.1) (s.domEntry s.cur.1 t) ea n align = .ok (s.hereCore.lstore.read off n) := by
  rw [← issuedFor_domEntry o c h]
  exact windowLoad_issuedFor o c h hl

/-- The thread at hand of a state that the chain has made without touching it. -/
theorem SameThreads.issued_thread {e : State} (he : SameThreads (issuedFor s t o c) e) :
    e.cur = s.cur ∧ e.thread? s.cur.1 s.cur.2 = some (issuedThread s t) :=
  ⟨he.1.trans (issuedFor_cur o c h), (he.2 _ _).trans (issuedFor_thread o c h)⟩

end

/-! ### SMODE and SSTOP (R168, R171) -/

theorem SameThreads.endStream (s : State) (st : Stream) : SameThreads s (endStream s st) := by
  unfold Machine.endStream
  split
  · exact SameThreads.foldl (fun s p => SameThreads.pieceDropped s _ p) _ s
  · exact SameThreads.releaseEverywhere s _

/-- The vector register n is zero and its stream is begun or ended: what SMODE and SSTOP do to a thread. -/
theorem setStream_eq {u : Thread} (t : Thread) (n : Nat) (st : Option Stream) (hl : u.lease = t.lease) :
    ({ u.setVreg n 0 with lease := (u.setVreg n 0).lease.map fun l => { l with streams := match st with
        | some x => tset l.streams n x
        | none => tdel l.streams n } } : Thread) =
      { u with parity := u.parity.filter (· != .v n), lease := leaseStream t n st } := by
  simp only [Thread.setVreg, leaseStream, hl]
  cases t.lease with
  | none => rfl
  | some l => cases st <;> rfl

theorem streamBase_issued {s : State} {t : Thread} (o : Op) (c : Chain) (h : s.here = some t) (core : Nat) (e : DomCopy)
    (p : Pattern) : streamBase (issuedFor s t o c) core e p = streamBase s core e p := by
  simp only [streamBase, issuedFor_logical o c h]

/-- SMODE of a good descriptor, whose stream `st` begins. -/
theorem smodeBody_issued {s : State} {t : Thread} (c : Chain) (h : s.here = some t) (hp : portless c = true)
    (hst : t.stream? c.vd = none) {off base : Nat} (hl : Loadable s t (addressOf .smode c t) 32 8 off)
    (hbad : patternBad (streamPattern (storeDwords s off 4)) ((storeDwords s off 4).getD 3 0) = false)
    (hbase : streamBase s s.cur.1 (s.domEntry s.cur.1 t) (streamPattern (storeDwords s off 4)) = .ok base) {st : Stream}
    (hs : st = { pat := { streamPattern (storeDwords s off 4) with base := base }, op := s.nextId, dom := t.dom
                 priv := (s.domEntry s.cur.1 t).priv, key := s.hereCore.owner }) :
    smodeBody (ctxOf s t .smode c) (issuedThread s t) (issuedFor s t .smode c) =
      .done ((issuedFor s t .smode c).bump.modThread s.cur.1 s.cur.2 fun u =>
        { u.setVreg c.vd 0 with
          lease := (u.setVreg c.vd 0).lease.map fun l => { l with streams := tset l.streams c.vd st } }) := by
  have hst' : (issuedThread s t).stream? c.vd = none := hst
  have hpat : patternOf (word (s.hereCore.lstore.read off 32 / 2 ^ (64 * 0))) (word (s.hereCore.lstore.read off 32 / 2 ^ (64 * 1)))
      (word (s.hereCore.lstore.read off 32 / 2 ^ (64 * 2))) (word (s.hereCore.lstore.read off 32 / 2 ^ (64 * 3))) =
      streamPattern (storeDwords s off 4) := rfl
  have hbad' : patternBad (streamPattern (storeDwords s off 4)) (word (s.hereCore.lstore.read off 32 / 2 ^ (64 * 3))) = false :=
    hbad
  simp only [smodeBody, ctxOf_c, hst', Option.isSome_none, Bool.false_eq_true, if_false, memAddr_issuedFor .smode c hp,
    ctxOf_core, windowLoad_here .smode c h hl, hpat, hbad', issuedFor_domEntry .smode c h, streamBase_issued .smode c h,
    hbase, issuedFor_nextId .smode c h, issued_owner .smode c h, ctxOf_slot, hs]
  rfl

/-- Settles O36: both change the stream of a register of the lease, and SSTOP first ends what is under way. -/
theorem streamModes : Obligations.StreamModes := by
  intro c s t h
  refine ⟨fun hx hp hst off base hl hbad hbase => ?smode, fun hx e hidle hlive => ?sstop⟩
  case smode =>
    refine issueChain_done (body := smodeBody) h hx ((smodeBody_issued c h hp hst hl hbad hbase rfl).trans ?_)
    rw [State.modHere, show (issuedFor s t .smode c).bump.cur = s.cur from issuedFor_cur .smode c h]
    have hu : (issuedFor s t .smode c).bump.thread? s.cur.1 s.cur.2 = some (issuedThread s t) := issuedFor_thread .smode c h
    exact congrArg Out.done (modThread_congr hu (setStream_eq t c.vd (some _) rfl))
  case sstop =>
    have he : SameThreads (issuedFor s t .sstop c) e ∧ (match t.stream? c.vd with
        | some st => if st.pat.sink || st.coming.isEmpty then issuedFor s t .sstop c else endStream (issuedFor s t .sstop c) st
        | none => issuedFor s t .sstop c) = e := by
      cases hst : t.stream? c.vd with
      | none => exact hidle (.inl hst) ▸ ⟨SameThreads.refl _, rfl⟩
      | some st =>
        by_cases hi : st.pat.sink = true ∨ st.coming = []
        · have heq : e = issuedFor s t .sstop c := hidle (.inr ⟨st, hst, hi⟩)
          rw [heq]
          refine ⟨SameThreads.refl _, if_pos ?_⟩
          rcases hi with hi | hi <;> simp [hi]
        · obtain ⟨hsink, hcoming⟩ := not_or.mp hi
          rw [hlive st hst (Bool.eq_false_iff.mpr hsink) hcoming]
          refine ⟨SameThreads.endStream _ st, if_neg ?_⟩
          simp [hsink, hcoming]
    obtain ⟨hsame, heq⟩ := he
    obtain ⟨hcur, hthread⟩ := hsame.issued_thread .sstop c h
    have hbody : sstopBody (ctxOf s t .sstop c) (issuedThread s t) (issuedFor s t .sstop c) =
        .done (e.modThread s.cur.1 s.cur.2 fun u => { u.setVreg c.vd 0 with
          lease := (u.setVreg c.vd 0).lease.map fun l => { l with streams := tdel l.streams c.vd } }) := by
      rw [← heq]
      rfl
    refine issueChain_done (body := sstopBody) h hx (hbody.trans ?_)
    rw [State.modHere, hcur]
    exact congrArg Out.done (modThread_congr hthread (setStream_eq t c.vd none rfl))

/-! ### Copies, row commands and MWAIT (R172-R178, R183) -/

section
variable {s : State} {t : Thread} (o : Op) (c : Chain) (h : s.here = some t)
include h

theorem issued_copyRoom : copyRoom ((issuedFor s t o c).core s.cur.1) (issuedThread s t) = copyRoom s.hereCore t := by
  rw [issued_core_all o c h]
  rfl

theorem copyBody_issued (kind : Nat) (ha : isQueue c.a = false) (hb : isQueue c.b = false) (hd : isQueue c.d = false)
    {op : CopyOp} (hop : makeCopy (issuedFor s t o c) s.cur.1 s.cur.2 (issuedThread s t) kind (t.scalar c.d) (t.scalar c.a)
      (t.scalar c.b) (immInt o c).toNat c.scope.code c.urg c.nt = .ok op) :
    copyBody kind (ctxOf s t o c) (issuedThread s t) (issuedFor s t o c) =
      if copyRoom s.hereCore t then .done (enterCopy (issuedFor s t o c) s.cur.1 s.cur.2 op) else .wait (.push 1) := by
  simp only [copyBody, readThree, ctxOf_c, readField_reg ha, readField_reg hb, readField_reg hd, issuedThread_scalar,
    ctxOf_core, ctxOf_slot, ctxOf_immNat, hop, issued_copyRoom o c h]

/-- A row command of aligned global addresses enters the copy engine where it has room. -/
theorem rowIssue_enters (kind : Nat) {gd ga : Word} (hwd : isWindow gd = false) (hwa : isWindow ga = false)
    (hgd : gd.toNat % 2048 = 0) (hga : ga.toNat % 2048 = 0) (hroom : copyRoom s.hereCore t = true) :
    rowIssue kind (ctxOf s t o c) (issuedThread s t) gd ga (issuedFor s t o c) =
      .done (enterCopy (issuedFor s t o c) s.cur.1 s.cur.2
        (rowOp (issuedFor s t o c) (ctxOf s t o c) (issuedThread s t) kind gd ga)) := by
  simp only [rowIssue, hwd, hwa, hgd, hga, bne_self_eq_false, Bool.or_self, Bool.false_eq_true, if_false, ctxOf_core, ctxOf_slot,
    issued_copyRoom o c h, hroom, if_true]

theorem mwaitBody_issued (ha : isQueue c.a = false) :
    mwaitBody (ctxOf s t o c) (issuedThread s t) (issuedFor s t o c) =
      if mailReached (issuedFor s t o c).hereCore t.group (immInt o c).toNat (bits (t.scalar c.a) 31 0) then
        .done (takeMail (issuedFor s t o c) s.cur.1 t.group (immInt o c).toNat (bits (t.scalar c.a) 31 0))
      else .wait (.mailbox t.group (immInt o c).toNat (bits (t.scalar c.a) 31 0) (resumeOf o c t 10)) := by
  have hcore : (issuedFor s t o c).hereCore = (issuedFor s t o c).core s.cur.1 := by rw [State.hereCore, issuedFor_cur o c h]
  simp only [mwaitBody, ctxOf_c, readField_reg ha, issuedThread_scalar, ctxOf_core, ctxOf_immNat, hcore]
  rfl

end

theorem exec_copies : ∀ e ∈ copies, ∀ c s, exec (Instr.ofOp e.1 c) s = issueChain e.1 c (copyBody e.2) s := by
  simp only [copies, List.forall_mem_cons]
  exact ⟨fun _ _ => rfl, fun _ _ => rfl, fun _ _ => rfl, List.forall_mem_nil _⟩

/-- A count of zero is reached at once (R178). -/
theorem mailReached_zero (k : CoreSt) (g : GroupId) (mb : Nat) : mailReached k g mb 0 = true := rfl

/-- Settles O37: a copy or row command enters the engine where it has room; MWAIT goes on where its mailbox has come. -/
theorem copyChains : Obligations.CopyChains := by
  intro c s t h ha hb hd
  refine ⟨fun e he hx op hop => ?copy, fun hx hwd hwa hgd hga hroom => ?rowcopy, fun hx hwd hgd hroom => ?rowzero,
    fun hx => ?mwait⟩
  case copy =>
    rw [exec_copies e he]
    have hbody := copyBody_issued e.1 c h e.2 ha hb hd hop
    exact ⟨fun hroom => issueChain_done h hx (hbody.trans (if_pos hroom)),
      fun hroom => issueChain_waits h hx (hbody.trans (if_neg (Bool.eq_false_iff.mp hroom)))⟩
  case rowcopy =>
    refine issueChain_done (body := rowcopyBody) h hx ?_
    simp only [rowcopyBody, ctxOf_c, readField_reg hd, readField_reg ha, issuedThread_scalar,
      rowIssue_enters .rowcopy c h 4 hwd hwa hgd hga hroom]
  case rowzero =>
    refine issueChain_done (body := rowzeroBody) h hx ?_
    simp only [rowzeroBody, ctxOf_c, readField_reg hd, issuedThread_scalar,
      rowIssue_enters .rowzero c h 5 hwd hwd hgd hgd hroom]
  case mwait =>
    have hbody := mwaitBody_issued .mwait c h ha
    refine ⟨fun hz => issueChain_done (body := mwaitBody) h hx (hbody.trans ?_),
      fun hz hreach => issueChain_done (body := mwaitBody) h hx (hbody.trans ?_),
      fun hreach => issueChain_waits (body := mwaitBody) h hx (hbody.trans (if_neg (Bool.eq_false_iff.mp hreach)))⟩
    · rw [hz, mailReached_zero, if_pos rfl]
      rfl
    · rw [if_pos hreach, takeMail, if_neg (by simpa using hz), modHereCore_issued .mwait c _ h]

/-! ### Bank-dot (R179-R181) -/

section
variable {s : State} {t : Thread} (o : Op) (c : Chain) (h : s.here = some t)
include h

/-- A bank-dot chain whose vector may be read sends it to the home of the run. -/
theorem bdotBody_issued (queued : Bool) (hcfg : bdcfgOk t.bdcfg = true) {off : Nat}
    (hcheck : windowCheck (s.domEntry s.cur.1 t) (word (bits t.bdcfg 21 0 + 0x00F0000000000000)) (bdVecBytes t.bdcfg) 1 = .ok off)
    (hlock : threadConflict s.hereCore false ⟨0, bits t.bdcfg 21 0, bdVecBytes t.bdcfg⟩ = false)
    (hroom : (queued && decide (32 ≤ t.q3.length)) = false) :
    bdotBody queued (ctxOf s t o c) (issuedThread s t) (issuedFor s t o c) =
      .done (bdotSend (issuedFor s t o c) (ctxOf s t o c) (issuedThread s t) (t.scalar c.a) (bankVector s t) (bankPoison s t)
        queued) := by
  have hconf : threadConflict ((issuedFor s t o c).core s.cur.1) false ⟨0, bits t.bdcfg 21 0, bdVecBytes t.bdcfg⟩ = false :=
    (issued_conflict o c h _ _).trans hlock
  have hvec : (List.range (bdVecBytes t.bdcfg)).map (fun i => ((issuedFor s t o c).core s.cur.1).lstore.byte
      (bits t.bdcfg 21 0 + i)) = bankVector s t := by
    rw [issued_core_all o c h]
    rfl
  have hpoison : (poisonIn ((issuedFor s t o c).core s.cur.1) 0 (bits t.bdcfg 21 0) (bdVecBytes t.bdcfg)).isSome =
      bankPoison s t := by
    rw [issued_core_all o c h]
    rfl
  simp only [bdotBody, show (issuedThread s t).bdcfg = t.bdcfg from rfl, show (issuedThread s t).q3 = t.q3 from rfl, hcfg,
    Bool.not_true, Bool.false_eq_true, if_false, ctxOf_core, issuedFor_domEntry o c h, hcheck, hconf, hroom, hvec, hpoison,
    issuedThread_scalar, ctxOf_c]

/-- The request of a bank-dot chain to the home of its run. -/
theorem bdotSend_issued {a : Word} (hw : isWindow a = false) (hhi : bits a 63 56 = 0) (hr : regionOf (eaOff a) = .dram)
    (vec : List Byte) (bad queued : Bool) :
    bdotSend (issuedFor s t o c) (ctxOf s t o c) (issuedThread s t) a vec bad queued =
      (if queued then ((issuedFor s t o c).modHere fun u => { u with q3 := t.q3 ++ [(s.nextId, none)] }).bump
        else addPend (issuedFor s t o c) s.cur.1 s.cur.2 (gRes c.d) none).send
        { packetFor s t c a (.bdot t.bdcfg vec s.nextId queued bad) with urg := 0 } := by
  have haddr : addressed (issuedFor s t o c) s.cur.1 s.cur.2 t.uid 0 true a t.dom (s.domEntry s.cur.1 t).priv
      (.bdot t.bdcfg vec s.nextId queued bad) = { packetFor s t c a (.bdot t.bdcfg vec s.nextId queued bad) with urg := 0 } :=
    addressed_issued o c h _ _ _ _ _ _ _ _
  have hq3 : (issuedFor s t o c).modThread s.cur.1 s.cur.2 (fun u => { u with q3 := u.q3 ++ [(s.nextId, none)] }) =
      (issuedFor s t o c).modHere fun u => { u with q3 := t.q3 ++ [(s.nextId, none)] } := by
    rw [State.modHere, issuedFor_cur o c h]
    exact modThread_congr (issuedFor_thread o c h) rfl
  simp only [bdotSend, hw, hhi, hr, bne_self_eq_false, Bool.false_eq_true, if_false, ctxOf_core, ctxOf_slot, ctxOf_c,
    issuedFor_nextId o c h, issuedFor_domEntry o c h, show (issuedThread s t).uid = t.uid from rfl,
    show (issuedThread s t).dom = t.dom from rfl, show (issuedThread s t).bdcfg = t.bdcfg from rfl, haddr, hq3,
    Option.map_none]

end

/-- Settles O38: a good configuration word is set; BDOT and BDOTQ send the vector of the local store to the run's home. -/
theorem bankDotChains : Obligations.BankDotChains := by
  intro c s t h
  have hcfgBody : isQueue c.a = false → bdcfgBody (ctxOf s t .bdcfg c) (issuedThread s t) (issuedFor s t .bdcfg c) =
      if bdcfgOk (t.scalar c.a) then .done ((issuedFor s t .bdcfg c).modHere fun u => { u with bdcfg := t.scalar c.a })
      else (ctxOf s t .bdcfg c).trap cILLOP := fun ha => by
    simp only [bdcfgBody, ctxOf_c, readField_reg ha, issuedThread_scalar, ctxOf_core, ctxOf_slot, State.modHere,
      issuedFor_cur .bdcfg c h]
  refine ⟨fun hx ha hok => ?sets, fun hx ha hbad => ?illegal, fun hx hcfg off hcheck hlock hw hhi hr => ?bdot,
    fun hx hcfg hroom off hcheck hlock hw hhi hr => ?bdotq⟩
  case sets => exact issueChain_done (body := bdcfgBody) h hx ((hcfgBody ha).trans (if_pos hok))
  case illegal =>
    exact issueChain_traps (body := bdcfgBody) h hx ((hcfgBody ha).trans (if_neg (Bool.eq_false_iff.mp hbad)))
  case bdot =>
    refine issueChain_done (body := bdotBody false) h hx ((bdotBody_issued .bdot c h false hcfg hcheck hlock rfl).trans ?_)
    rw [bdotSend_issued .bdot c h hw hhi hr, if_neg Bool.false_ne_true]
  case bdotq =>
    have hfull : (true && decide (32 ≤ t.q3.length)) = false := by simpa using hroom
    refine issueChain_done (body := bdotBody true) h hx ((bdotBody_issued .bdotq c h true hcfg hcheck hlock hfull).trans ?_)
    rw [bdotSend_issued .bdotq c h hw hhi hr, if_pos rfl]

end Sys2Proof.Machine

end

section
/-! PROOFS. Privileged instructions, buoys and the halt tree (spec/07 R222-R226; spec/16 R353, R365). -/

namespace Sys2Proof.Machine

section
variable {s : State} {t : Thread} (o : Op) (c : Chain) (h : s.here = some t)
include h

/-! ### SLINV (R222) -/

theorem walking_issued : walking (issuedFor s t o c) = walking s := by
  rw [issuedFor_fields o c h]
  rfl

/-- A packet of the executing chain straight to an endpoint, under no owner tag. -/
theorem directPacket_issued (dst urg : Nat) (b : Body) :
    directPacket (issuedFor s t o c) ((issuedFor s t o c).ep s.cur.1) dst urg t.uid s.cur.2 b =
      directPacket s (s.ep s.cur.1) dst urg t.uid s.cur.2 b := by
  simp only [directPacket, issuedFor_ep o c h, issuedFor_logical o c h]

theorem slinvBody_issued (ha : isQueue c.a = false) (hbad : slinvBad (t.scalar c.a) = false) :
    slinvBody (ctxOf s t o c) (issuedThread s t) (issuedFor s t o c) =
      if c.scope == .cube || eaCube (t.scalar c.a) == s.logical then
        if walking s then .wait .slices
        else .done (invalidate (issuedFor s t o c) (bits (t.scalar c.a) 15 12) (t.scalar c.a))
      else hold ((issuedFor s t o c).send (directPacket s (s.ep s.cur.1) (eaCube (t.scalar c.a) * 2048 + slicePort) 2 t.uid
        s.cur.2 (.slinv (bits (t.scalar c.a) 15 12) (t.scalar c.a)))) (ctxOf s t o c)
          (.awaiting s.nextId (resumeOf o c t 10)) := by
  simp only [slinvBody, ctxOf_c, readField_reg ha, issuedThread_scalar, hbad, Bool.false_eq_true, if_false,
    issuedFor_logical o c h, walking_issued o c h, ctxOf_core, ctxOf_slot, show (issuedThread s t).uid = t.uid from rfl,
    directPacket_issued o c h, issuedFor_nextId o c h]
  rfl

/-! ### SETKEY (R223) -/

/-- SETKEY of a good record by a thread that may write its slot. -/
theorem setkeyBody_issued (ha : isQueue c.a = false) (hd : isQueue c.d = false) {off : Nat}
    (hl : Loadable s t (t.scalar c.a) 64 64 off) (hbad : keyRecordBad (storeDwords s off 8) = false)
    (hsys : bits (t.scalar c.d) 6 0 = 0 → (s.domEntry s.cur.1 t).system = true) :
    setkeyBody (ctxOf s t o c) (issuedThread s t) (issuedFor s t o c) =
      .done (installKey (issuedFor s t o c) (bits (t.scalar c.d) 6 0) (storeDwords s off 8)) := by
  have hbarred : (bits (t.scalar c.d) 6 0 == 0 && !(s.domEntry s.cur.1 t).system) = false := by
    rw [Bool.and_eq_false_imp, beq_iff_eq]
    exact fun hz => by rw [hsys hz]; rfl
  simp only [setkeyBody, readTwo_issued o c ha hd, ctxOf_core, issuedFor_domEntry o c h, hbarred, readPacket_issued o c h hl, hbad,
    Bool.false_eq_true, if_false]

/-! ### SETOWN (R224) -/

omit h in
theorem setownBody_issued (ha : isQueue c.a = false) (hbits : bits (t.scalar c.a) 63 7 = 0)
    (hbar : setownBarred (issuedFor s t o c) s.cur.1 s.cur.2 (bits (t.scalar c.a) 6 0) = false) :
    setownBody (ctxOf s t o c) (issuedThread s t) (issuedFor s t o c) =
      .done (setOwner (issuedFor s t o c) s.cur.1 (bits (t.scalar c.a) 6 0)) := by
  simp only [setownBody, ctxOf_c, readField_reg ha, issuedThread_scalar, hbits, bne_self_eq_false, ctxOf_core, ctxOf_slot, hbar,
    Bool.or_self, Bool.false_eq_true, if_false]

theorem setOwner_same {key : Nat} (hk : key = s.hereCore.owner) : setOwner (issuedFor s t o c) s.cur.1 key =
    replayAll ((issuedFor s t o c).modHereCore fun k => { k with sealed := false }) := by
  have howner : ((issuedFor s t o c).core s.cur.1).owner = key := (issued_owner o c h _).trans hk.symm
  rw [setOwner, if_pos (beq_iff_eq.mpr howner), modHereCore_issued o c _ h]
  rfl

theorem setOwner_changes {key : Nat} (hk : key ≠ s.hereCore.owner) : setOwner (issuedFor s t o c) s.cur.1 key =
    replayAll (((dropStreams (issuedFor s t o c) s.cur.1).modCore s.cur.1 fun k =>
      { k with owner := key, sealed := false, lstore := [], bstore := [], empty := [], mail := []
               slice := { order := k.slice.order }, poison := k.poison.filter fun p => p.1 == 2 }).pass s.cur.1 24576) := by
  have howner : ((issuedFor s t o c).core s.cur.1).owner ≠ key := by
    rw [issued_owner o c h]
    exact hk.symm
  rw [setOwner, if_neg (by simpa using howner)]
  rfl

/-! ### ISTW and START (R225) -/

theorem sendSystem_issued (ep : Nat) (b : Body) :
    sendSystem (issuedFor s t o c) (ctxOf s t o c) (issuedThread s t) ep b = sentSystem s t o c ep b := by
  have hp : ({ directPacket (issuedFor s t o c) ((issuedFor s t o c).ep s.cur.1) ep 0 t.uid s.cur.2 b with
      dom := t.dom, priv := true, key := ((issuedFor s t o c).core s.cur.1).owner } : Packet) =
      { directFor s t ep 0 b with priv := true } := by
    rw [← directFor_issued o c h]
  simp only [sendSystem, ctxOf_core, ctxOf_slot, show (issuedThread s t).uid = t.uid from rfl,
    show (issuedThread s t).dom = t.dom from rfl, hp, sentSystem, State.modHere, send_cur, issuedFor_cur o c h,
    issuedFor_nextId o c h]

end

/-- Each mode of SLINV drops what `invalidations` says of it. -/
theorem invalidate_eq : ∀ e ∈ invalidations, ∀ (a : Word) (u : State), invalidate u e.1 a = e.2 a u := by
  simp only [invalidations, List.forall_mem_cons]
  exact ⟨fun _ _ => rfl, fun _ _ => rfl, fun _ _ => rfl, List.forall_mem_nil _⟩

/-- Settles O39: each privileged chain that its checks admit changes its unit at once or sends its message. -/
theorem privilegedChains : Obligations.PrivilegedChains := by
  intro c s t h ha hd
  refine ⟨fun e he hx hmode hbad => ⟨fun hcube hwalk => ?drops, fun hscope hcube => ?asks⟩,
    fun hx off hl hbad hsys => ?setkey, fun hx hbits hbar => ⟨fun hk => ?keeps, fun hk => ?changes⟩,
    fun hx hhi hmid hcore => ?istw, fun hx hhi hcore => ⟨fun hz => ?start, fun hz off hl => ?startPacket⟩⟩
  case drops =>
    refine issueChain_done (body := slinvBody) h hx ((slinvBody_issued .slinv c h ha hbad).trans ?_)
    have hhere : (c.scope == .cube || eaCube (t.scalar c.a) == s.logical) = true := by simpa using hcube
    rw [if_pos hhere, if_neg (Bool.eq_false_iff.mp hwalk), hmode, invalidate_eq e he]
  case asks =>
    refine issueChain_holds (body := slinvBody) h hx ((slinvBody_issued .slinv c h ha hbad).trans ?_)
    have haway : ¬ (c.scope == .cube || eaCube (t.scalar c.a) == s.logical) = true := by simp [hscope, hcube]
    rw [if_neg haway, hmode]
  case setkey => exact issueChain_done (body := setkeyBody) h hx (setkeyBody_issued .setkey c h ha hd hl hbad hsys)
  case keeps =>
    refine issueChain_done (body := setownBody) h hx ((setownBody_issued .setown c ha hbits hbar).trans ?_)
    rw [setOwner_same .setown c h hk]
  case changes =>
    refine issueChain_done (body := setownBody) h hx ((setownBody_issued .setown c ha hbits hbar).trans ?_)
    rw [setOwner_changes .setown c h hk]
  case istw =>
    refine issueChain_done (body := istwBody) h hx ?_
    simp only [istwBody, readTwo_issued .istw c ha hd, hhi, hmid, hcore, bne_self_eq_false, Bool.not_true, Bool.or_self,
      Bool.false_eq_true, if_false, sendSystem_issued .istw c h]
  case start =>
    refine issueChain_done (body := startBody) h hx ?_
    simp only [startBody, readTwo_issued .start c ha hd, hhi, hcore, bne_self_eq_false, Bool.not_true, Bool.or_self,
      Bool.false_eq_true, if_false, hz, beq_self_eq_true, if_true, sendSystem_issued .start c h]
  case startPacket =>
    refine issueChain_done (body := startBody) h hx ?_
    simp only [startBody, readTwo_issued .start c ha hd, hhi, hcore, bne_self_eq_false, Bool.not_true, Bool.or_self,
      Bool.false_eq_true, if_false, beq_iff_eq, hz, readPacket_issued .start c h hl, sendSystem_issued .start c h]

/-! ### Buoys and the halt tree (spec/16 R353, R365) -/

theorem countSent_logical (s : State) (p : Packet) : (s.countSent p).logical = s.logical := by
  unfold State.countSent
  split
  · rfl
  · split <;> rfl

theorem send_logical (s : State) (p : Packet) : (s.send p).logical = s.logical := countSent_logical s p

/-- A packet that no core counts changes no core when it is sent. -/
theorem send_uncounted_core {s : State} {p : Packet} (hp : p.counted = none) (d : Nat) : (s.send p).core d = s.core d := by
  simp only [State.send, State.countSent, hp]
  rfl

section
variable {s : State} {t : Thread} (o : Op) (c : Chain) (h : s.here = some t)
include h

/-- An empty core is not the core at hand, so the issue leaves it. -/
theorem issued_emptyCore {v : Nat} (hv : (s.core v).threads = []) : (issuedFor s t o c).core v = s.core v := by
  have hne : v ≠ s.cur.1 := fun heq => by
    have hnone : s.here = none := by rw [State.here, State.thread?, ← heq, hv]; rfl
    rw [hnone] at h
    cases h
  obtain ⟨_, hother, _⟩ := Framed.issued o c h
  exact hother v hne

theorem buoysBody_issued (ha : isQueue c.a = false) (hd : isQueue c.d = false) {v : Nat} (hbits : bits (t.scalar c.a) 63 43 = 0)
    (hv : v = bits (t.scalar c.a) 42 32) (hlt : v < 1028) (hempty : (s.core v).threads = []) :
    buoysBody (ctxOf s t o c) (issuedThread s t) (issuedFor s t o c) =
      .done (withReg s (replayAll ((issuedFor s t o c).setCore v (setBuoy (s.core v) v (bits (t.scalar c.a) 31 0)).2)) c.d
        (setBuoy (s.core v) v (bits (t.scalar c.a) 31 0)).1) := by
  have hle : decide (1028 ≤ v) = false := decide_eq_false (by omega)
  simp only [buoysBody, ctxOf_c, readField_reg ha, issuedThread_scalar, ← hv, issued_emptyCore o c h hempty, hbits, hle, hempty,
    bne_self_eq_false, List.isEmpty_nil, Bool.not_true, Bool.or_self, Bool.false_eq_true, if_false, writeField_withReg hd]

theorem haltrqBody_issued (ha : isQueue c.a = false) {p : Nat} (hp : p = bits (t.scalar c.a) 15 0) (hne : p ≠ 0)
    (hhi : bits (t.scalar c.a) 63 18 = 0) (hop : bits (t.scalar c.a) 17 16 < 2) {u : State}
    (hu : u = ((issuedFor s t o c).send (directPacket s (s.ep s.cur.1) (s.logical * 2048 + barrierPort) 2 t.uid s.cur.2
        (.haltReq p (bits (t.scalar c.a) 17 16 == 0)))).send
      (directPacket s (s.ep s.cur.1) (treeUp * 2048 + barrierPort) 2 t.uid s.cur.2
        (.haltReq p (bits (t.scalar c.a) 17 16 == 0)))) :
    haltrqBody (ctxOf s t o c) (issuedThread s t) (issuedFor s t o c) =
      .done (if bits (t.scalar c.a) 17 16 == 0 && s.hereCore.part == p then
        u.modThread s.cur.1 s.cur.2 fun w => { w with stops := 4 :: w.stops.filter (· != 4) } else u) := by
  have hle : decide (2 ≤ bits (t.scalar c.a) 17 16) = false := decide_eq_false (by omega)
  have hp0 : (p == 0) = false := beq_eq_false_iff_ne.mpr hne
  have hpart : (u.core s.cur.1).part = s.hereCore.part := by
    rw [hu, send_uncounted_core rfl, send_uncounted_core rfl, issued_core_all o c h]
    rfl
  have hsecond : ∀ (q : Packet) (b : Body), directPacket ((issuedFor s t o c).send q) (((issuedFor s t o c).send q).ep s.cur.1) (treeUp * 2048 + barrierPort) 2 t.uid
        s.cur.2 b = directPacket s (s.ep s.cur.1) (treeUp * 2048 + barrierPort) 2 t.uid s.cur.2 b := fun q b => by
    simp only [directPacket, State.ep, send_logical, issuedFor_logical o c h]
  rw [← hpart, hu]
  simp only [haltrqBody, ctxOf_c, readField_reg ha, issuedThread_scalar, ← hp, hp0, hle, hhi, bne_self_eq_false, Bool.or_self,
    Bool.false_eq_true, if_false, ctxOf_core, ctxOf_slot, show (issuedThread s t).uid = t.uid from rfl,
    directPacket_issued o c h, issuedFor_logical o c h, hsecond]

end

/-- A buoy is set in the lowest free place of a core. -/
theorem setBuoy_free {k : CoreSt} {i : Nat} (v target : Nat) (hi : i < 16) (hfree : tget k.buoys i = none)
    (hlow : ∀ j, j < i → (tget k.buoys j).isSome = true) : setBuoy k v target =
      (word (v * 16 + i), { k with buoys := tset k.buoys i ⟨k.owner, target, k.cyc, []⟩, sealed := false }) := by
  have hfind : ((List.range 16).find? fun j => (tget k.buoys j).isNone) = some i := by
    rw [List.find?_range_eq_some]
    refine ⟨Option.isNone_iff_eq_none.mpr hfree, List.mem_range.mpr hi, fun j hj => ?_⟩
    rw [← Option.not_isSome, hlow j hj]
    rfl
  simp only [setBuoy, hfind]

theorem setBuoy_full {k : CoreSt} (v target : Nat) (hfull : ∀ j, j < 16 → (tget k.buoys j).isSome = true) :
    setBuoy k v target = (word (2 ^ 63), k) := by
  have hfind : ((List.range 16).find? fun j => (tget k.buoys j).isNone) = none := by
    refine List.find?_eq_none.mpr fun j hj => ?_
    rw [← Option.not_isSome, hfull j (List.mem_range.mp hj)]
    simp
  simp only [setBuoy, hfind]

/-- Settles O40: a buoy takes the lowest free place of an empty core; a halt request goes both ways of its tree. -/
theorem buoysAndHalt : Obligations.BuoysAndHalt := by
  intro c s t h ha hd
  refine ⟨fun hx v i hbits hv hlt hempty hi hfree hlow => ?sets, fun hx v hbits hv hlt hempty hfull => ?full,
    fun hx v hbits hv hsome => ?clears, fun hx p hp hne hhi hop u hu => ?halts⟩
  case sets =>
    refine issueChain_done (body := buoysBody) h hx ((buoysBody_issued .buoys c h ha hd hbits hv hlt hempty).trans ?_)
    rw [setBuoy_free _ _ hi hfree hlow, State.modCore, issued_emptyCore .buoys c h hempty]
  case full =>
    refine issueChain_done (body := buoysBody) h hx ((buoysBody_issued .buoys c h ha hd hbits hv hlt hempty).trans ?_)
    rw [setBuoy_full _ _ hfull, State.modCore, issued_emptyCore .buoys c h hempty]
  case clears =>
    have hsome' : (tget ((issuedFor s t .buoyc c).core v).buoys (bits (t.scalar c.a) 3 0)).isNone = false := by
      rw [issued_core_all .buoyc c h, ← Option.not_isSome, hsome]
      rfl
    refine issueChain_done (body := buoycBody) h hx ?_
    simp only [buoycBody, ctxOf_c, readField_reg ha, issuedThread_scalar, ← hv, hbits, hsome', bne_self_eq_false, Bool.or_self,
      Bool.false_eq_true, if_false]
  case halts =>
    refine issueChain_done (body := haltrqBody) h hx ((haltrqBody_issued .haltrq c h ha hp hne hhi hop hu).trans ?_)
    have hcur : u.cur = s.cur := by
      rw [hu, send_cur, send_cur, issuedFor_cur .haltrq c h]
    rw [State.modHere, hcur]
    simp only [Bool.and_eq_true, beq_iff_eq]

end Sys2Proof.Machine

end

section
/-! PROOFS. CSAVE and CLOAD (spec/07 R227; spec/16 R355-R357). -/

namespace Sys2Proof.Machine

/-- An executable chain concludes with what its execution makes. -/
theorem issueChain_concludes {body : Ctx → Thread → State → Out} {o : Op} {c : Chain} {s : State} {t : Thread} {out : Out}
    (h : s.here = some t) (hx : executable s t o c = true)
    (hb : body (ctxOf s t o c) (issuedThread s t) (issuedFor s t o c) = out) :
    issueChain o c body s = .next (conclude s (ctxOf s t o c) out) := by
  rw [issueChain_executes _ h hx]
  exact congrArg (fun out => Host.Outcome.next (conclude s (ctxOf s t o c) out)) hb

/-! ### Selectors and areas that are refused (R227) -/

section
variable {s : State} {t : Thread} (c : Chain) (ha : isQueue c.a = false) (hd : isQueue c.d = false)
include ha hd

/-- The status that CSAVE and CLOAD write for a malformed selector. -/
theorem context_badSelector (hsel : selector s.cur.1 s.cur.2 (t.scalar c.d) = none) (e : State) :
    csaveBody (ctxOf s t .csave c) (issuedThread s t) e = .done (withReg s e c.d 3) ∧
    cloadBody (ctxOf s t .cload c) (issuedThread s t) e = .done (withReg s e c.d 3) := by
  constructor
  · simp only [csaveBody, ctxOf_c, readField_reg ha, issuedThread_scalar, ctxOf_core, ctxOf_slot, hsel, writeField_withReg hd]
    rfl
  · simp only [cloadBody, ctxOf_c, readField_reg ha, issuedThread_scalar, ctxOf_core, ctxOf_slot, hsel, writeField_withReg hd]
    rfl

/-- The status that CSAVE and CLOAD write for an area that is not placed. -/
theorem context_badArea {kind tgt : Nat} (hsel : selector s.cur.1 s.cur.2 (t.scalar c.d) = some (kind, tgt))
    (hplace : areaPlace (t.scalar c.a) (areaSize kind) = false) (e : State) :
    csaveBody (ctxOf s t .csave c) (issuedThread s t) e = .done (withReg s e c.d 2) ∧
    cloadBody (ctxOf s t .cload c) (issuedThread s t) e = .done (withReg s e c.d 2) := by
  constructor
  · simp only [csaveBody, ctxOf_c, readField_reg ha, issuedThread_scalar, ctxOf_core, ctxOf_slot, hsel, hplace, Bool.not_false,
      if_true, writeField_withReg hd]
    rfl
  · simp only [cloadBody, ctxOf_c, readField_reg ha, issuedThread_scalar, ctxOf_core, ctxOf_slot, hsel, hplace, Bool.not_false,
      if_true, writeField_withReg hd]
    rfl

end

/-! ### CSAVE (R356) -/

section
variable {s : State} {t : Thread} {c : Chain} (ha : isQueue c.a = false) (hd : isQueue c.d = false)
  {kind tgt : Nat} (hsel : selector s.cur.1 s.cur.2 (t.scalar c.d) = some (kind, tgt))
  (hplace : areaPlace (t.scalar c.a) (areaSize kind) = true)
include ha hd hsel hplace

theorem csaveBody_unsavable (e : State) (hsave : canSave e s.cur.1 kind tgt = false) :
    csaveBody (ctxOf s t .csave c) (issuedThread s t) e = .done (withReg s e c.d 1) := by
  simp only [csaveBody, ctxOf_c, readField_reg ha, issuedThread_scalar, ctxOf_core, ctxOf_slot, hsel, hplace, hsave, Bool.not_true,
    Bool.not_false, Bool.false_eq_true, if_false, if_true, writeField_withReg hd]
  rfl

omit hd in
theorem csaveBody_unsettled (e : State) (hsave : canSave e s.cur.1 kind tgt = true)
    (hready : contextReady e s.cur.1 s.cur.2 false (t.scalar c.d) = false) :
    csaveBody (ctxOf s t .csave c) (issuedThread s t) e = .wait (.context false (t.scalar c.d)) := by
  simp only [csaveBody, ctxOf_c, readField_reg ha, issuedThread_scalar, ctxOf_core, ctxOf_slot, hsel, hplace, hsave, hready,
    Bool.not_true, Bool.not_false, Bool.false_eq_true, if_false, if_true]

omit hd in
theorem csaveBody_away (e : State) (hsave : canSave e s.cur.1 kind tgt = true)
    (hready : contextReady e s.cur.1 s.cur.2 false (t.scalar c.d) = true) (hcube : eaCube (t.scalar c.a) ≠ e.logical) :
    csaveBody (ctxOf s t .csave c) (issuedThread s t) e =
      startArea e (ctxOf s t .csave c) (issuedThread s t) true kind tgt (t.scalar c.a) := by
  simp only [csaveBody, ctxOf_c, readField_reg ha, issuedThread_scalar, ctxOf_core, ctxOf_slot, hsel, hplace, hsave, hready,
    bne_iff_ne.mpr hcube, Bool.not_true, Bool.false_eq_true, if_false, if_true]

theorem csaveBody_thread (e : State) (hsave : canSave e s.cur.1 kind tgt = true)
    (hready : contextReady e s.cur.1 s.cur.2 false (t.scalar c.d) = true) (hcube : eaCube (t.scalar c.a) = e.logical)
    {homes : List (Xl × Nat)} {e' : State} {u : Thread}
    (hh : areaHomes e s.cur.1 (issuedThread s t) true (t.scalar c.a) (areaSize kind) = (some homes, e')) (hk : kind = 0)
    (hu : e'.thread? s.cur.1 tgt = some u) :
    csaveBody (ctxOf s t .csave c) (issuedThread s t) e = .done (withReg s
      (writeArea (removeThread e' s.cur.1 tgt u) (targetImage e' s.cur.1 0 tgt).1 [] homes) c.d 0) := by
  subst hk
  simp only [csaveBody, ctxOf_c, readField_reg ha, issuedThread_scalar, ctxOf_core, ctxOf_slot, hsel, hplace, hsave, hready, hcube,
    bne_self_eq_false, beq_self_eq_true, hh, hu, Bool.not_true, Bool.false_eq_true, if_false, if_true, writeField_withReg hd]
  rfl

theorem csaveBody_cores (e : State) (hsave : canSave e s.cur.1 kind tgt = true)
    (hready : contextReady e s.cur.1 s.cur.2 false (t.scalar c.d) = true) (hcube : eaCube (t.scalar c.a) = e.logical)
    {homes : List (Xl × Nat)} {e' : State}
    (hh : areaHomes e s.cur.1 (issuedThread s t) true (t.scalar c.a) (areaSize kind) = (some homes, e')) (hk : kind ≠ 0) :
    csaveBody (ctxOf s t .csave c) (issuedThread s t) e =
      .done (withReg s (saveCores e' (targetCores kind tgt) homes) c.d 0) := by
  have hk' : (kind == 0) = false := beq_eq_false_iff_ne.mpr hk
  simp only [csaveBody, ctxOf_c, readField_reg ha, issuedThread_scalar, ctxOf_core, ctxOf_slot, hsel, hplace, hsave, hready, hcube,
    bne_self_eq_false, hh, hk', Bool.not_true, Bool.false_eq_true, if_false, writeField_withReg hd]
  rfl

/-! ### CLOAD (R357) -/

theorem cloadBody_reads (e : State) (hcube : eaCube (t.scalar c.a) = e.logical) {homes : List (Xl × Nat)} {e' : State}
    (hh : areaHomes e s.cur.1 (issuedThread s t) false (t.scalar c.a) (areaSize kind) = (some homes, e')) {m : Memory}
    {bad : List Nat} {u v : State} (hread : readArea e' homes = ((m, bad), u))
    (hload : loadImage u s.cur.1 kind tgt m bad = (0, v)) :
    cloadBody (ctxOf s t .cload c) (issuedThread s t) e = .done (withReg s v c.d 0) := by
  simp only [cloadBody, ctxOf_c, readField_reg ha, issuedThread_scalar, ctxOf_core, ctxOf_slot, hsel, hplace, hcube,
    bne_self_eq_false, hh, hread, hload, Bool.not_true, Bool.false_eq_true, if_false, writeField_withReg hd]
  rfl

end

/-- The image of a thread is loaded into a free slot where its lease has room (R357). -/
theorem loadImage_thread {u : State} {core tgt : Nat} {m : Memory} (hfree : (tget (u.core core).threads tgt).isNone = true)
    (hok : areaLoads u m 0 = true) (hlease : bits (get m 8) 18 16 = 0 ∨
      (leaseRoom (u.core core) (bits (get m 8) 18 16) = true ∧ (u.core core).leaseq = [])) :
    loadImage u core 0 tgt m [] = (0, loadThread u core tgt m 0 true) := by
  have hnone : tget (u.core core).threads tgt = none := Option.isNone_iff_eq_none.mp hfree
  have hroom : (bits (get m 8) 18 16 != 0 && !(leaseRoom (u.core core) (bits (get m 8) 18 16) &&
      (u.core core).leaseq.isEmpty)) = false := by
    rcases hlease with hz | ⟨hr, hq⟩
    · simp [hz]
    · simp [hr, hq]
  simp only [loadImage, beq_self_eq_true, if_true, hnone, Option.isSome_none, hok, Bool.not_true, List.isEmpty_nil, Bool.or_self,
    Bool.false_eq_true, if_false, hroom]

/-- The images of free cores are loaded where each area is in order (R357). -/
theorem loadImage_cores {u : State} {core kind tgt : Nat} {m : Memory} {bad : List Nat} (hk : kind ≠ 0)
    (hok : ∀ a ∈ coreAreas (targetCores kind tgt) m bad, coreFree u a.1 (bits (get a.2.1 8) 6 0) = true ∧
      coreAreaOk u a.2.1 = true ∧ ∀ w ∈ a.2.2, 0x20000 ≤ w) :
    loadImage u core kind tgt m bad = (0, replayAll (loadCores u (coreAreas (targetCores kind tgt) m bad))) := by
  have hk' : (kind == 0) = false := beq_eq_false_iff_ne.mpr hk
  have hfree : ((coreAreas (targetCores kind tgt) m bad).any fun a => !coreFree u a.1 (bits (get a.2.1 8) 6 0)) = false := by
    rw [List.any_eq_false]
    exact fun a hm => by simp [(hok a hm).1]
  have harea : ((coreAreas (targetCores kind tgt) m bad).any fun a =>
      !coreAreaOk u a.2.1 || a.2.2.any (fun w => w < 0x20000)) = false := by
    rw [List.any_eq_false]
    intro a hm
    obtain ⟨-, harea, hpoison⟩ := hok a hm
    simpa [harea] using hpoison
  simp only [loadImage, hk', Bool.false_eq_true, if_false, hfree, harea]

/-- Settles O41: the status is that of the first check that fails; past them all the area is written or read at its
homes. -/
theorem contextChains : Obligations.ContextChains := by
  intro c s t h ha hd
  refine ⟨fun o ho hx => ⟨fun hsel => ?selector, fun kind tgt hsel hplace => ?area⟩,
    fun hx kind tgt hsel hplace e he => ?csave, fun hx kind tgt homes e hsel hplace hcube hh m bad u hread => ?cload⟩
  case selector =>
    obtain ⟨hs, hl⟩ := context_badSelector (s := s) (t := t) c ha hd hsel (issuedFor s t o c)
    rcases ho with rfl | rfl
    · exact issueChain_done (body := csaveBody) h hx hs
    · exact issueChain_done (body := cloadBody) h hx hl
  case area =>
    obtain ⟨hs, hl⟩ := context_badArea (s := s) (t := t) c ha hd hsel hplace (issuedFor s t o c)
    rcases ho with rfl | rfl
    · exact issueChain_done (body := csaveBody) h hx hs
    · exact issueChain_done (body := cloadBody) h hx hl
  case csave =>
    have hlog : e.logical = s.logical := by rw [he, issuedFor_logical .csave c h]
    subst he
    refine ⟨fun hsave => ?unsavable, fun hsave => ⟨fun hready => ?unsettled, fun hready => ⟨fun hcube => ?away,
      fun hcube homes e' hh => ⟨fun u hk hu => ?thread, fun hk => ?cores⟩⟩⟩⟩
    case unsavable =>
      exact issueChain_done (body := csaveBody) h hx (csaveBody_unsavable ha hd hsel hplace _ hsave)
    case unsettled =>
      exact issueChain_waits (body := csaveBody) h hx (csaveBody_unsettled ha hsel hplace _ hsave hready)
    case away =>
      exact issueChain_concludes (body := csaveBody) h hx
        (csaveBody_away ha hsel hplace _ hsave hready (hlog.symm ▸ hcube))
    case thread =>
      exact issueChain_done (body := csaveBody) h hx
        (csaveBody_thread ha hd hsel hplace _ hsave hready (hcube.trans hlog.symm) hh hk hu)
    case cores =>
      exact issueChain_done (body := csaveBody) h hx
        (csaveBody_cores ha hd hsel hplace _ hsave hready (hcube.trans hlog.symm) hh hk)
  case cload =>
    have hcube' : eaCube (t.scalar c.a) = (issuedFor s t .cload c).logical :=
      hcube.trans (issuedFor_logical .cload c h).symm
    refine ⟨fun hk hfree hok hbad hlease => ?thread, fun hk hok => ?cores⟩
    case thread =>
      subst hk hbad
      exact issueChain_done (body := cloadBody) h hx
        (cloadBody_reads ha hd hsel hplace _ hcube' hh hread (loadImage_thread hfree hok hlease))
    case cores =>
      exact issueChain_done (body := cloadBody) h hx
        (cloadBody_reads ha hd hsel hplace _ hcube' hh hread (loadImage_cores hk hok))

end Sys2Proof.Machine

end

section
/-! PROOFS. Every coded instruction completes: what each result says of the thread at hand, and the instructions that compute. -/

namespace Sys2Proof.Machine

/-! ### A result leaves the thread at hand at a pc, ready or parked -/

theorem GoesOn.status {c : Chain} {τ : Thread} {pc : Nat} {pend : List Pend} {span : List Res} (h : GoesOn c τ pc pend span) :
    τ.status = .ready ∨ τ.status = .parked false := by
  obtain ⟨-, -, h⟩ := h
  by_cases hm : c.marker = true
  · rw [if_pos hm] at h
    by_cases hp : pend = []
    · rw [if_pos hp] at h
      exact .inl h.1
    · rw [if_neg hp] at h
      exact .inr h.1
  · rw [if_neg hm] at h
    exact .inl h.1

theorem Kept.inHandler {t τ : Thread} (h : Kept t τ) : τ.inHandler = t.inHandler := by
  unfold Kept at h
  rw [h]

section
variable {o : Op} {c : Chain} {s u : State} {t τ : Thread} (hexec : exec (Instr.ofOp o c) s = .next u) (hu : u.here = some τ)
include hexec hu

theorem RunsTo.of {pc : Nat} {pend : List Pend} {span : List Res} (hk : τ.inHandler = t.inHandler)
    (hg : GoesOn c τ pc pend span) : RunsTo o c s t pc := ⟨u, τ, hexec, hu, hg.1, hk, hg.status⟩

theorem ShortResult.runs {v : Word} {fl : Flags} (h : ShortResult o c s u t τ v fl) : RunsTo o c s t (nextPc o c t) := by
  obtain ⟨-, hk, hg, -⟩ := h
  exact RunsTo.of hexec hu hk.inHandler hg

theorem PredResult.runs {b : Bool} {fl : Flags} (h : PredResult o c s u t τ b fl) : RunsTo o c s t (nextPc o c t) := by
  obtain ⟨-, hk, hg, -⟩ := h
  exact RunsTo.of hexec hu hk.inHandler hg

theorem PwResult.runs {pw : Word} (h : PwResult o c s u t τ pw) : RunsTo o c s t (nextPc o c t) := by
  obtain ⟨-, hk, hg, -⟩ := h
  exact RunsTo.of hexec hu hk.inHandler hg

theorem LeaseResult.runs {l : Option Lease} (h : LeaseResult o c s u t τ l) : RunsTo o c s t (nextPc o c t) := by
  obtain ⟨-, hk, hg, -⟩ := h
  exact RunsTo.of hexec hu hk.inHandler hg

theorem FlowResult.runs {pc : Nat} {except : List Nat} (h : FlowResult c s u t τ pc except) : RunsTo o c s t pc := by
  obtain ⟨-, hk, hg, -⟩ := h
  exact RunsTo.of hexec hu hk.inHandler hg

theorem StoreResult.runs {m : Memory} {p : List (Nat × Nat)} {stored : Nat → Prop} (h : StoreResult o c s u t τ m p stored) :
    RunsTo o c s t (nextPc o c t) := by
  obtain ⟨-, hk, hg, -⟩ := h
  exact RunsTo.of hexec hu hk.inHandler hg

theorem LongResult.runs {res : List Res} {ws : List RegWrite} (h : LongResult o c s u t τ res ws) :
    RunsTo o c s t (nextPc o c t) := by
  obtain ⟨-, hk, -, hg⟩ := h
  by_cases hr : res = []
  · rw [if_pos hr] at hg
    exact RunsTo.of hexec hu hk.inHandler hg.1
  · rw [if_neg hr] at hg
    obtain ⟨⟨id, hg⟩, -⟩ := hg
    exact RunsTo.of hexec hu hk.inHandler hg

end

/-- The entry of an instruction in a list of instructions with what they compute. -/
theorem mem_of_fst {α : Type} {l : List (Op × α)} {o : Op} (h : o ∈ l.map (·.1)) : ∃ e ∈ l, e.1 = o := List.mem_map.mp h

/-- No scalar field of the chain names a queue port. -/
structure NamesNoPort (c : Chain) : Prop where
  a : isQueue c.a = false
  b : isQueue c.b = false
  d : isQueue c.d = false

theorem NamesNoPort.portless {c : Chain} (h : NamesNoPort c) : portless c = true := by simp [Machine.portless, h.a, h.b]

/-! ### Scalar instructions -/

section
variable {c : Chain} {s : State} {t : Thread} (h : s.here = some t) (hq : NamesNoPort c)
include h hq

theorem aluTwo_runs : ∀ o ∈ aluTwo.map (·.1), executable s t o c = true → RunsTo o c s t (nextPc o c t) := by
  rintro o ho hx
  obtain ⟨e, he, rfl⟩ := mem_of_fst ho
  obtain ⟨u, τ, hexec, hu, hr⟩ := claim_aluTwoResult e he c s t h hx hq.portless hq.d
  exact hr.runs hexec hu

theorem aluOne_runs : ∀ o ∈ aluOne.map (·.1), executable s t o c = true → RunsTo o c s t (nextPc o c t) := by
  rintro o ho hx
  obtain ⟨e, he, rfl⟩ := mem_of_fst ho
  obtain ⟨u, τ, hexec, hu, hr⟩ := claim_aluOneResult e he c s t h hx hq.a hq.d
  exact hr.runs hexec hu

theorem aluLong_runs : ∀ o ∈ aluLong.map (·.1), executable s t o c = true → RunsTo o c s t (nextPc o c t) := by
  rintro o ho hx
  obtain ⟨e, he, rfl⟩ := mem_of_fst ho
  obtain ⟨u, τ, hexec, hu, hr⟩ := longDivision.1 e he c s t h hx hq.portless hq.d
  exact hr.runs hexec hu

theorem compares_run : ∀ o ∈ compares.map (·.1), executable s t o c = true → RunsTo o c s t (nextPc o c t) := by
  rintro o ho hx
  obtain ⟨e, he, rfl⟩ := mem_of_fst ho
  obtain ⟨u, τ, hexec, hu, hr⟩ := comparesAndPredicates.1 e he c s t h hx hq.portless
  exact hr.runs hexec hu

omit hq in
theorem predTwo_runs : ∀ o ∈ predTwo.map (·.1), executable s t o c = true → RunsTo o c s t (nextPc o c t) := by
  rintro o ho hx
  obtain ⟨e, he, rfl⟩ := mem_of_fst ho
  obtain ⟨u, τ, hexec, hu, hr⟩ := (comparesAndPredicates.2 c s t h).1 e he hx
  exact hr.runs hexec hu

theorem moves_run : ∀ o ∈ moves.map (·.1), executable s t o c = true → RunsTo o c s t (nextPc o c t) := by
  rintro o ho hx
  obtain ⟨e, he, rfl⟩ := mem_of_fst ho
  obtain ⟨u, τ, hexec, hu, hr⟩ := claim_moveResult e he c s t h hx hq.a hq.b hq.d
  exact hr.runs hexec hu

theorem conversions_run : ∀ o ∈ [Op.itof, .ntof], executable s t o c = true → RunsTo o c s t (nextPc o c t) := by
  rintro o ho hx
  obtain ⟨e, he, rfl⟩ := mem_of_fst (l := [(Op.itof, 3), (Op.ntof, 7)]) ho
  obtain ⟨u, τ, hexec, hu, hr⟩ := (floatOneResult c s t h hq.a hq.d).2 e he hx
  exact hr.runs hexec hu

/-- The chains that `scalarChains` lists beside those of the lists above. -/
theorem otherScalar_runs : ∀ o ∈ [Op.nop, .pnot, .rdcyc, .fclrf, .fmt], executable s t o c = true →
    RunsTo o c s t (nextPc o c t) := by
  simp only [List.forall_mem_cons]
  refine ⟨fun hx => ?nop, fun hx => ?pnot, fun hx => ?rdcyc, fun hx => ?fclrf, fun hx => ?fmt, List.forall_mem_nil _⟩
  case nop =>
    obtain ⟨hnop, -⟩ := claim_relativeBranches c s t h
    obtain ⟨u, τ, hexec, hu, hr⟩ := hnop hx
    exact hr.runs (o := .nop) hexec hu
  case pnot =>
    obtain ⟨u, τ, hexec, hu, hr⟩ := (comparesAndPredicates.2 c s t h).2 hx
    exact hr.runs hexec hu
  case rdcyc =>
    obtain ⟨u, τ, hexec, hu, hr, -⟩ := claim_cycleCounterRead c s t h hx hq.d
    exact hr.runs hexec hu
  case fclrf =>
    obtain ⟨-, hclrf, -⟩ := claim_predicateWordWrites c s t h
    obtain ⟨u, τ, hexec, hu, hr⟩ := hclrf hx
    exact hr.runs hexec hu
  case fmt =>
    obtain ⟨-, -, hfmt⟩ := claim_predicateWordWrites c s t h
    obtain ⟨u, τ, hexec, hu, hr⟩ := hfmt hx
    exact hr.runs hexec hu

theorem scalarChains_run : ∀ o ∈ scalarChains, executable s t o c = true → RunsTo o c s t (nextPc o c t) := by
  have hcover : ∀ o ∈ scalarChains, o ∈ aluTwo.map (·.1) ∨ o ∈ aluOne.map (·.1) ∨ o ∈ aluLong.map (·.1) ∨
      o ∈ compares.map (·.1) ∨ o ∈ predTwo.map (·.1) ∨ o ∈ moves.map (·.1) ∨ o ∈ [Op.itof, .ntof] ∨
      o ∈ [Op.nop, .pnot, .rdcyc, .fclrf, .fmt] := by decide
  intro o ho
  rcases hcover o ho with ho | ho | ho | ho | ho | ho | ho | ho
  · exact aluTwo_runs h hq o ho
  · exact aluOne_runs h hq o ho
  · exact aluLong_runs h hq o ho
  · exact compares_run h hq o ho
  · exact predTwo_runs h o ho
  · exact moves_run h hq o ho
  · exact conversions_run h hq o ho
  · exact otherScalar_runs h hq o ho

omit hq in
theorem conditionalBranches_run : ∀ e ∈ [(Op.bt, true), (.bf, false)], executable s t e.1 c = true →
    RunsTo e.1 c s t (if pwPred t.pw c.d.toNat = e.2 then relativeTarget e.1 c t else nextPc e.1 c t) := by
  obtain ⟨-, hbt, hbf, -⟩ := claim_relativeBranches c s t h
  simp only [List.forall_mem_cons]
  refine ⟨fun hx => ?bt, fun hx => ?bf, List.forall_mem_nil _⟩
  case bt =>
    obtain ⟨u, τ, hexec, hu, hr⟩ := hbt hx
    exact hr.runs (o := .bt) hexec hu
  case bf =>
    obtain ⟨u, τ, hexec, hu, hr⟩ := hbf hx
    have hpc := hr.runs (o := .bf) hexec hu
    cases hp : pwPred t.pw c.d.toNat <;> simpa [hp] using hpc

theorem registerBranches_run : ∀ o ∈ [Op.jr, .callr], executable s t o c = true → bit (t.scalar c.a) 0 = false →
    RunsTo o c s t ((t.scalar c.a).toNat % 2 ^ 18) := by
  obtain ⟨hjr, hcallr, -⟩ := claim_registerBranches c s t h
  simp only [List.forall_mem_cons]
  refine ⟨fun hx hbit => ?jr, fun hx hbit => ?callr, List.forall_mem_nil _⟩
  case jr =>
    obtain ⟨u, τ, hexec, hu, hr⟩ := hjr hx hbit
    exact hr.runs (o := .jr) hexec hu
  case callr =>
    obtain ⟨u, τ, hexec, hu, hr, -⟩ := hcallr hx hbit hq.d
    exact hr.runs (o := .callr) hexec hu

/-! ### Scalar floating point -/

theorem floatTwo_run : ∀ o ∈ [Op.fadd, .fsub, .fmul, .fdiv, .fmin, .fmax], executable s t o c = true → fpFormatsOk o c t = true →
    RunsTo o c s t (nextPc o c t) := by
  have hcover : ∀ o ∈ [Op.fadd, .fsub, .fmul, .fdiv, .fmin, .fmax], o ∈ fpTwo.map (·.1) ∨ o = .fdiv := by decide
  intro o ho hx hf
  rcases hcover o ho with ho | rfl
  · obtain ⟨e, he, rfl⟩ := mem_of_fst ho
    obtain ⟨u, τ, hexec, hu, hr⟩ := floatArithmetic.1 e he c s t h hx hq.portless hq.d hf
    exact hr.runs hexec hu
  · obtain ⟨hdiv, -⟩ := floatArithmetic.2.2 c s t h hq.d
    obtain ⟨u, τ, hexec, hu, hr⟩ := hdiv hx hq.portless hf
    exact hr.runs hexec hu

theorem floatPairs_run : ∀ o ∈ [Op.fma, .fms, .fcmpeq, .fcmplt, .fcmple, .fcmpun], executable s t o c = true →
    fselFmtOk (fpFmtA o c t) = true → fselFmtOk (fpFmtB o c t) = true → RunsTo o c s t (nextPc o c t) := by
  have hcover : ∀ o ∈ [Op.fma, .fms, .fcmpeq, .fcmplt, .fcmple, .fcmpun],
      o ∈ [(Op.fma, false), (Op.fms, true)].map (·.1) ∨ o ∈ fpCompares.map (·.1) := by decide
  intro o ho hx hfa hfb
  rcases hcover o ho with ho | ho
  · obtain ⟨e, he, rfl⟩ := mem_of_fst ho
    obtain ⟨u, τ, hexec, hu, hr⟩ := floatArithmetic.2.1 e he c s t h hx hq.a hq.b hq.d hfa hfb
    exact hr.runs hexec hu
  · obtain ⟨e, he, rfl⟩ := mem_of_fst ho
    obtain ⟨u, τ, hexec, hu, hr⟩ := floatCompares.1 e he c s t h hx hq.a hq.b hfa hfb
    exact hr.runs hexec hu

theorem fpOne_runs : ∀ e ∈ fpOne, executable s t e.1 c = true → fselFmtOk (fmtA t.pw e.2.2.1 (e.2.1 (etCode e.1 c))) = true →
    RunsTo e.1 c s t (nextPc e.1 c t) := by
  intro e he hx hf
  obtain ⟨u, τ, hexec, hu, hr⟩ := (floatOneResult c s t h hq.a hq.d).1 e he hx hf
  exact hr.runs hexec hu

theorem fsqrt_runs (hx : executable s t .fsqrt c = true) (hf : fselFmtOk (fpFmtA .fsqrt c t) = true) :
    RunsTo .fsqrt c s t (nextPc .fsqrt c t) := by
  obtain ⟨-, hsqrt⟩ := floatArithmetic.2.2 c s t h hq.d
  obtain ⟨u, τ, hexec, hu, hr⟩ := hsqrt hx hq.a hf
  exact hr.runs hexec hu

end

end Sys2Proof.Machine

end

section
/-! PROOFS. Every coded instruction completes: vector instructions, the local window, leases and the ends of threads. -/

namespace Sys2Proof.Machine

section
variable {c : Chain} {s : State} {t : Thread} (h : s.here = some t) (hq : NamesNoPort c)
include h

/-! ### Integer vector instructions -/

theorem vecIntTwo_runs : ∀ o ∈ vecIntTwo.map (·.1), executable s t o c = true → streamless o c t = true →
    RunsTo o c s t (nextPc o c t) := by
  rintro o ho hx hs
  obtain ⟨e, he, rfl⟩ := mem_of_fst ho
  obtain ⟨u, τ, v, hexec, hu, hr, -⟩ := vectorInteger.1 e he c s t h hx hs
  exact hr.runs hexec hu

theorem vecIntOne_runs : ∀ o ∈ vecIntOne.map (·.1), executable s t o c = true → streamless o c t = true →
    RunsTo o c s t (nextPc o c t) := by
  rintro o ho hx hs
  obtain ⟨e, he, rfl⟩ := mem_of_fst ho
  obtain ⟨u, τ, v, hexec, hu, hr, -⟩ := vectorInteger.2 e he c s t h hx hs
  exact hr.runs hexec hu

theorem vecIntCompares_run : ∀ o ∈ vecIntCompares.map (·.1), executable s t o c = true → streamless o c t = true →
    RunsTo o c s t (nextPc o c t) := by
  rintro o ho hx hs
  obtain ⟨e, he, rfl⟩ := mem_of_fst ho
  obtain ⟨u, τ, v, hexec, hu, hr, -⟩ := vectorCompares.1 e he c s t h hx hs
  exact hr.runs hexec hu

theorem maskTwo_runs : ∀ o ∈ maskTwo.map (·.1), executable s t o c = true → RunsTo o c s t (nextPc o c t) := by
  rintro o ho hx
  obtain ⟨e, he, rfl⟩ := mem_of_fst ho
  obtain ⟨htwo, -⟩ := vectorMovesAndMasks.2 c s t h
  obtain ⟨u, τ, hexec, hu, hr⟩ := htwo e he hx
  exact hr.runs hexec hu

theorem vcvtf_runs (hx : executable s t .vcvtf c = true) (hs : streamless .vcvtf c t = true) :
    RunsTo .vcvtf c s t (nextPc .vcvtf c t) := by
  obtain ⟨-, hcvt⟩ := vectorFloat.2.2 c s t (1024 / fw (etCode .vcvtf c)) h
  obtain ⟨u, τ, v, hexec, hu, hr, -⟩ := hcvt hx hs rfl
  exact hr.runs hexec hu

/-- The block conversions, but for MXQ, whose source format is a condition. -/
theorem blocks_run : ∀ o ∈ [Op.mxdq, .tsq, .tsdq], executable s t o c = true → streamless o c t = true →
    RunsTo o c s t (nextPc o c t) := by
  obtain ⟨-, htsq, hmxdq, htsdq⟩ := blockQuantisation c s t h
  simp only [List.forall_mem_cons]
  refine ⟨fun hx hs => ?mxdq, fun hx hs => ?tsq, fun hx hs => ?tsdq, List.forall_mem_nil _⟩
  case mxdq =>
    obtain ⟨u, τ, v, hexec, hu, hr, -⟩ := hmxdq hx hs
    exact hr.runs hexec hu
  case tsq =>
    obtain ⟨u, τ, hexec, hu, hr⟩ := htsq hx hs
    exact hr.runs hexec hu
  case tsdq =>
    obtain ⟨u, τ, v, hexec, hu, hr, -⟩ := htsdq hx hs
    exact hr.runs hexec hu

include hq

theorem vecIntReductions_run : ∀ o ∈ vecIntReductions.map (·.1), executable s t o c = true → streamless o c t = true →
    RunsTo o c s t (nextPc o c t) := by
  rintro o ho hx hs
  obtain ⟨e, he, rfl⟩ := mem_of_fst ho
  obtain ⟨u, τ, hexec, hu, hr⟩ := vectorReductions.1 e he c s t h hx hs hq.d
  exact hr.runs hexec hu

theorem vecMoves_run : ∀ o ∈ vecMoves.map (·.1), executable s t o c = true → streamless o c t = true →
    RunsTo o c s t (nextPc o c t) := by
  rintro o ho hx hs
  obtain ⟨e, he, rfl⟩ := mem_of_fst ho
  obtain ⟨hmove, -⟩ := vectorMovesAndMasks.1 c s t h hq.a
  obtain ⟨u, τ, v, hexec, hu, hr, -⟩ := hmove e he hx hs
  exact hr.runs hexec hu

/-- The chains on single elements and single masks. -/
theorem elements_run : ∀ o ∈ [Op.vins, .vext, .mnot, .mall, .mpop], executable s t o c = true →
    RunsTo o c s t (nextPc o c t) := by
  obtain ⟨-, hvins, hvext⟩ := vectorMovesAndMasks.1 c s t h hq.a
  obtain ⟨-, hmnot, hmall, hmpop⟩ := vectorMovesAndMasks.2 c s t h
  simp only [List.forall_mem_cons]
  refine ⟨fun hx => ?vins, fun hx => ?vext, fun hx => ?mnot, fun hx => ?mall, fun hx => ?mpop, List.forall_mem_nil _⟩
  case vins =>
    obtain ⟨u, τ, v, hexec, hu, hr, -⟩ := hvins hx
    exact hr.runs hexec hu
  case vext =>
    obtain ⟨u, τ, hexec, hu, hr⟩ := hvext hx hq.d
    exact hr.runs hexec hu
  case mnot =>
    obtain ⟨u, τ, hexec, hu, hr⟩ := hmnot hx
    exact hr.runs hexec hu
  case mall =>
    obtain ⟨u, τ, hexec, hu, hr⟩ := hmall hx
    exact hr.runs hexec hu
  case mpop =>
    obtain ⟨u, τ, hexec, hu, hr⟩ := hmpop hx hq.d
    exact hr.runs hexec hu

theorem vectorChains_run : ∀ o ∈ vectorChains, executable s t o c = true → streamless o c t = true →
    RunsTo o c s t (nextPc o c t) := by
  have hcover : ∀ o ∈ vectorChains, o ∈ vecIntTwo.map (·.1) ∨ o ∈ vecIntOne.map (·.1) ∨ o ∈ vecIntCompares.map (·.1) ∨
      o ∈ maskTwo.map (·.1) ∨ o ∈ vecIntReductions.map (·.1) ∨ o ∈ vecMoves.map (·.1) ∨
      o ∈ [Op.vins, .vext, .mnot, .mall, .mpop] ∨ o ∈ [Op.mxdq, .tsq, .tsdq] ∨ o = .vcvtf := by decide
  intro o ho hx hs
  rcases hcover o ho with ho | ho | ho | ho | ho | ho | ho | ho | rfl
  · exact vecIntTwo_runs h o ho hx hs
  · exact vecIntOne_runs h o ho hx hs
  · exact vecIntCompares_run h o ho hx hs
  · exact maskTwo_runs h o ho hx
  · exact vecIntReductions_run h hq o ho hx hs
  · exact vecMoves_run h hq o ho hx hs
  · exact elements_run h hq o ho hx
  · exact blocks_run h o ho hx hs
  · exact vcvtf_runs h hx hs

/-! ### Floating-point vector instructions -/

omit hq in
theorem vecFloatCompares_run : ∀ o ∈ [Op.vcmpeq, .vcmplt, .vcmple, .vcmpun], executable s t o c = true → streamless o c t = true →
    fselFmtOk (fpFmtA o c t) = true → fselFmtOk (fpFmtB o c t) = true →
    (laneCount (max (fw (fpFmtA o c t)) (fw (fpFmtB o c t)))).isSome = true → RunsTo o c s t (nextPc o c t) := by
  intro o ho hx hs hfa hfb hn
  obtain ⟨e, he, rfl⟩ := mem_of_fst (l := vecFloatCompares) ho
  obtain ⟨n, hn⟩ := Option.isSome_iff_exists.mp hn
  obtain ⟨u, τ, v, hexec, hu, hr, -⟩ := vectorCompares.2 e he c s t n h hx hs hfa hfb hn
  exact hr.runs hexec hu

omit hq in
theorem vecFloatTwo_runs : ∀ o ∈ [Op.vadd, .vsub, .vmul, .vdiv, .vmin, .vmax], executable s t o c = true →
    streamless o c t = true → fselFmtOk (vecFmtX o c t) = true → fselFmtOk (vecFmtY o c t) = true →
    (laneCount (max (fw (etCode o c)) (max (fw (vecFmtX o c t)) (fw (vecFmtY o c t))))).isSome = true →
    RunsTo o c s t (nextPc o c t) := by
  intro o ho hx hs hfx hfy hn
  obtain ⟨e, he, rfl⟩ := mem_of_fst (l := vecFloatTwo) ho
  obtain ⟨n, hn⟩ := Option.isSome_iff_exists.mp hn
  obtain ⟨u, τ, v, hexec, hu, hr, -⟩ := vectorFloat.1 e he c s t n h hx hs hfx hfy hn
  exact hr.runs hexec hu

omit hq in
theorem vfma_runs (hx : executable s t .vfma c = true) (hs : streamless .vfma c t = true) (hfa : fselFmtOk (fpFmtA .vfma c t) = true)
    (hfb : fselFmtOk (fpFmtB .vfma c t) = true)
    (hn : (laneCount (max (fw (etCode .vfma c)) (max (fw (fpFmtA .vfma c t)) (fw (fpFmtB .vfma c t))))).isSome = true) :
    RunsTo .vfma c s t (nextPc .vfma c t) := by
  obtain ⟨n, hn⟩ := Option.isSome_iff_exists.mp hn
  obtain ⟨hfma, -⟩ := vectorFloat.2.2 c s t n h
  obtain ⟨u, τ, v, hexec, hu, hr, -⟩ := hfma hx hs hfa hfb hn
  exact hr.runs hexec hu

omit hq in
/-- VSQRT, VABS, VNEG, VCVT and VCVTI run where their source format is permitted and their widest format gives lanes. -/
theorem vecFloatOne_runs : ∀ e ∈ vecFloatOne, executable s t e.1 c = true → streamless e.1 c t = true →
    fselFmtOk (fmtA t.pw e.2.2.1 (e.2.1 (etCode e.1 c))) = true →
    (laneCount (max (e.2.2.2.1 (etCode e.1 c)) (fw (fmtA t.pw e.2.2.1 (e.2.1 (etCode e.1 c)))))).isSome = true →
    RunsTo e.1 c s t (nextPc e.1 c t) := by
  intro e he hx hs hf hn
  obtain ⟨n, hn⟩ := Option.isSome_iff_exists.mp hn
  obtain ⟨u, τ, v, hexec, hu, hr, -⟩ := vectorFloat.2.1 e he c s t n _ _ h hx hs rfl rfl hf hn
  exact hr.runs hexec hu

theorem vecFloatReductions_run : ∀ o ∈ [Op.vrsum, .vrmin, .vrmax], executable s t o c = true → streamless o c t = true →
    fselFmtOk (fmtA t.pw true 1) = true → (laneCount (fw (fmtA t.pw true 1))).isSome = true →
    RunsTo o c s t (nextPc o c t) := by
  intro o ho hx hs hf hn
  obtain ⟨e, he, rfl⟩ := mem_of_fst (l := vecFloatReductions) ho
  obtain ⟨n, hn⟩ := Option.isSome_iff_exists.mp hn
  obtain ⟨u, τ, hexec, hu, hr⟩ := vectorReductions.2 e he c s t n _ h hx hs hq.d rfl hf hn
  exact hr.runs hexec hu

/-! ### The local window -/

theorem windowOps_run : ∀ e ∈ windowOps, executable s t e.1 c = true → streamless e.1 c t = true → ∀ off,
    Loadable s t (addressOf e.1 c t) (e.2.1 (etCode e.1 c)) (e.2.2.1 (etCode e.1 c)) off →
    Storable s t (addressOf e.1 c t) (e.2.1 (etCode e.1 c)) (e.2.2.1 (etCode e.1 c)) off →
    RunsTo e.1 c s t (nextPc e.1 c t) := by
  simp only [windowOps, List.forall_mem_cons]
  refine ⟨fun hx hs off hl hst => ?ldl, fun hx hs off hl hst => ?stl, fun hx hs off hl hst => ?vld, fun hx hs off hl hst => ?vst,
    fun hx hs off hl hst => ?vldm, fun hx hs off hl hst => ?vstm, List.forall_mem_nil _⟩
  case ldl =>
    obtain ⟨hldl, -⟩ := windowLoads.1 c s t off h hq.portless
    obtain ⟨u, τ, hexec, hu, hr⟩ := hldl hx hq.d hl
    exact hr.runs hexec hu
  case stl =>
    obtain ⟨hstl, -⟩ := windowStores.1 c s t off h hq.portless
    obtain ⟨u, τ, hexec, hu, hr⟩ := hstl hx hq.d hst
    exact hr.runs hexec hu
  case vld =>
    obtain ⟨-, hvld, -⟩ := windowLoads.1 c s t off h hq.portless
    obtain ⟨u, τ, hexec, hu, hr⟩ := hvld hx hs hl
    exact hr.runs hexec hu
  case vst =>
    obtain ⟨-, hvst, -⟩ := windowStores.1 c s t off h hq.portless
    obtain ⟨u, τ, hexec, hu, hr⟩ := hvst hx hs hst
    exact hr.runs hexec hu
  case vldm =>
    obtain ⟨-, -, hvldm⟩ := windowLoads.1 c s t off h hq.portless
    obtain ⟨u, τ, hexec, hu, hr⟩ := hvldm hx hl
    exact hr.runs hexec hu
  case vstm =>
    obtain ⟨-, -, hvstm⟩ := windowStores.1 c s t off h hq.portless
    obtain ⟨u, τ, hexec, hu, hr⟩ := hvstm hx hst
    exact hr.runs hexec hu

theorem strides_run (off : Nat → Nat) (hl : ∀ i, i < 16 → Loadable s t (strideAddress c t i) 8 8 (off i))
    (hst : ∀ i, i < 16 → Storable s t (strideAddress c t i) 8 8 (off i)) : ∀ o ∈ [Op.vlds, .vsts], executable s t o c = true →
    streamless o c t = true → RunsTo o c s t (nextPc o c t) := by
  simp only [List.forall_mem_cons]
  refine ⟨fun hx hs => ?vlds, fun hx hs => ?vsts, List.forall_mem_nil _⟩
  case vlds =>
    obtain ⟨hvlds, -⟩ := windowLoads.2 c s t off h
    obtain ⟨u, τ, v, hexec, hu, hr, -⟩ := hvlds hx hs hq.b hl
    exact hr.runs hexec hu
  case vsts =>
    obtain ⟨hvsts, -⟩ := windowStores.2 c s t off h
    obtain ⟨u, τ, p, hexec, hu, hr⟩ := hvsts hx hs hq.b hst
    exact hr.runs hexec hu

omit hq in
theorem indexed_run : ∀ o ∈ [Op.vgath, .vscat], executable s t o c = true → streamless o c t = true → ∀ off : Nat → Nat,
    (∀ i, i < 1024 / etWidth (etCode o c) → laneActive o c t i = true →
      Loadable s t (indexAddress o c t i) (etBytes (etCode o c)) (etBytes (etCode o c)) (off i) ∧
      Storable s t (indexAddress o c t i) (etBytes (etCode o c)) (etBytes (etCode o c)) (off i)) →
    RunsTo o c s t (nextPc o c t) := by
  simp only [List.forall_mem_cons]
  refine ⟨fun hx hs off hok => ?vgath, fun hx hs off hok => ?vscat, List.forall_mem_nil _⟩
  case vgath =>
    obtain ⟨-, hvgath⟩ := windowLoads.2 c s t off h
    obtain ⟨u, τ, v, hexec, hu, hr, -⟩ := hvgath hx hs fun i hi hact => (hok i hi hact).1
    exact hr.runs hexec hu
  case vscat =>
    obtain ⟨-, hvscat⟩ := windowStores.2 c s t off h
    obtain ⟨u, τ, p, hexec, hu, hr⟩ := hvscat hx hs fun i hi hact => (hok i hi hact).2
    exact hr.runs hexec hu

/-! ### YIELD (R108) -/

omit hq in
/-- YIELD leaves the thread at the next chain, ready in a new span or parked last of its queue. -/
theorem yield_completes (hx : executable s t .yield c = true) : ∃ e pc st, exec (.yield c) s = .next e ∧
    (e.here.map fun τ => (τ.pc, τ.status)) = some (pc, st) ∧ pc = nextPc .yield c t ∧ (st = .ready ∨ st = .parked true) := by
  obtain ⟨-, -, -, hparks, hgoes⟩ := threadEnds c s t h
  have hhere : ∀ f : Thread → Thread, ((issuedFor s t .yield c).modHere f).here = some (f (issuedThread s t)) := fun f => by
    rw [modHere_issued .yield c f h, State.here]
    show ((issuedFor s t .yield c).setThread _ _ _).thread? (issuedFor s t .yield c).cur.1 (issuedFor s t .yield c).cur.2 = _
    rw [issuedFor_cur .yield c h, State.thread_setThread]
  by_cases hp : t.pend = []
  · refine ⟨_, nextPc .yield c t, .ready, hgoes hx hp, ?_, rfl, .inl rfl⟩
    exact congrArg (Option.map _) (hhere _)
  · refine ⟨_, nextPc .yield c t, .parked true, hparks hx hp, ?_, rfl, .inr rfl⟩
    exact congrArg (Option.map _) (hhere _)

end

theorem claim_computationCompletes : Claim.ComputationCompletes := by
  intro c s t h ha hb hd
  have hq : NamesNoPort c := ⟨ha, hb, hd⟩
  have hfp := fpOne_runs h hq
  simp only [fpOne, List.forall_mem_cons] at hfp
  obtain ⟨habs, hneg, hclass, hcvt, htoi, hton, hrnd, -⟩ := hfp
  have hvec := vecFloatOne_runs (c := c) h
  simp only [vecFloatOne, List.forall_mem_cons] at hvec
  obtain ⟨hvsqrt, hvabs, hvneg, hvcvt, hvcvti, -⟩ := hvec
  refine ⟨scalarChains_run h hq, fun hx hok => ?wrpw, conditionalBranches_run h, fun hx => ?call, registerBranches_run h hq,
    floatTwo_run h hq, floatPairs_run h hq, ?fpSources, ?fpSigns, hcvt, vectorChains_run h hq,
    vecFloatCompares_run h, vecFloatTwo_runs h, vfma_runs h, hvsqrt, ?vecSigns, ?vecConversions,
    vecFloatReductions_run h hq, fun hx hs hf => ?mxq, fun hx hl hroom hlq => ?vlease, fun hx => ?vfree, windowOps_run h hq,
    strides_run h hq, indexed_run h, fun hx hg hk => ?exit, yield_completes h⟩
  case wrpw =>
    obtain ⟨hwrpw, -⟩ := claim_predicateWordWrites c s t h
    obtain ⟨u, τ, hexec, hu, hr⟩ := hwrpw hx ha hok
    exact hr.runs hexec hu
  case call =>
    obtain ⟨-, -, -, hcall⟩ := claim_relativeBranches c s t h
    obtain ⟨u, τ, hexec, hu, hr, -⟩ := hcall hx hd
    exact hr.runs (o := .call) hexec hu
  case fpSources =>
    simp only [List.forall_mem_cons]
    exact ⟨fsqrt_runs h hq, hclass, htoi, hton, List.forall_mem_nil _⟩
  case fpSigns =>
    simp only [List.forall_mem_cons]
    exact ⟨habs, hneg, hrnd, List.forall_mem_nil _⟩
  case vecSigns =>
    simp only [List.forall_mem_cons]
    exact ⟨fun hx hs hf hn => hvabs hx hs hf (by rwa [id, fmtA, Bool.false_and, if_neg Bool.false_ne_true, max_self]),
      fun hx hs hf hn => hvneg hx hs hf (by rwa [id, fmtA, Bool.false_and, if_neg Bool.false_ne_true, max_self]),
      List.forall_mem_nil _⟩
  case vecConversions =>
    simp only [List.forall_mem_cons]
    exact ⟨hvcvt, hvcvti, List.forall_mem_nil _⟩
  case mxq =>
    obtain ⟨hmxq, -⟩ := blockQuantisation c s t h
    obtain ⟨u, τ, hexec, hu, hr⟩ := hmxq hx hs hf
    exact hr.runs hexec hu
  case vlease =>
    obtain ⟨hlease, -⟩ := vectorLease c s t h
    obtain ⟨u, τ, hexec, hu, hr⟩ := hlease hx hl hroom hlq
    exact hr.runs hexec hu
  case vfree =>
    obtain ⟨-, -, -, hfree, -⟩ := vectorLease c s t h
    exact ⟨_, hfree hx⟩
  case exit =>
    obtain ⟨hexit, -⟩ := threadEnds c s t h
    obtain ⟨u, hexec, hu, -⟩ := hexit hx hg hk
    exact ⟨u, hexec, hu⟩

end Sys2Proof.Machine

end

section
/-! PROOFS. Every coded instruction completes: the engines, the global space, barriers, messages, gates, traps, control
registers and the privileged instructions. -/

namespace Sys2Proof.Machine

section
variable {c : Chain} {s : State} {t : Thread} (h : s.here = some t) (hq : NamesNoPort c)
include h

theorem gret_completes (hx : executable s t .gret c = true) {f : GateFrame} {rest : List GateFrame} (hg : t.gates = f :: rest) :
    ∃ e, exec (.gret c) s = .next (goesTo s t .gret c e f.next) := by
  obtain ⟨-, hgret⟩ := gates.1 c s t h
  obtain ⟨hplain, hhandler⟩ := hgret hx f rest hg
  by_cases hin : t.inHandler = true ∧ t.gates.length = t.entryDepth
  · exact ⟨_, hhandler hin.1 hin.2⟩
  · refine ⟨_, hplain ?_⟩
    rw [← Bool.not_eq_true]
    exact not_and_or.mp hin

include hq

theorem globalLoads_complete : ∀ e ∈ Sys2Proof.globalLoads, executable s t e.1 c = true → ∀ g, Reaches s t e.1 c e.2.1 g →
    AtOwnCore s g → t.atHome = none → ownPending s s.cur.1 t = false →
    (e.2.1 ≠ .ldfe → e.2.1 ≠ .ldff → ∀ old u, performHere (issuedFor s t e.1 c) s.cur.1 t.dom (s.domEntry s.cur.1 t).priv
      (accessOf e.1 c t e.2.1 e.2.2) g none = .ok (old, u) → Ends e.1 c s t) ∧
    (e.2.1 = .ldfe ∨ e.2.1 = .ldff → ∀ h off, regionOf (eaOff g) = .lstore h off →
      feCheck s s.cur.1 t.dom (e.2.1 == .ldfe) off g = none →
      ∃ v r, exec (Instr.ofOp e.1 c) s =
        .next (feThread v s.cur.1 s.cur.2 (if e.2.1 = .ldfe then 0 else 1) off r 0 g)) := by
  intro e he hx g hg hown hat hp
  obtain ⟨hperform, -, -, hsleep, -⟩ := claim_globalLoadsAtHome e he c s t g h hx hq.b hg _ rfl _ rfl
  exact ⟨fun hne hne' old u hu => ⟨_, hperform hown hat hp hne hne' old u hu⟩,
    fun hop r off hr hfe => ⟨_, _, hsleep hown hat hp r off hr hop hfe⟩⟩

omit hq in
theorem sstop_ends (hx : executable s t .sstop c = true) : Ends .sstop c s t := by
  obtain ⟨-, hstop⟩ := streamModes c s t h
  by_cases hlive : ∃ st, t.stream? c.vd = some st ∧ st.pat.sink = false ∧ st.coming ≠ []
  · obtain ⟨st, hst, hsink, hcoming⟩ := hlive
    refine ⟨_, hstop hx (endStream (issuedFor s t .sstop c) st) (fun hidle => ?_) fun st' hst' _ _ => ?_⟩
    · rcases hidle with hnone | ⟨st', hst', hidle⟩
      · rw [hst] at hnone
        cases hnone
      · obtain rfl : st = st' := Option.some.inj (hst.symm.trans hst')
        rcases hidle with hidle | hidle
        · rw [hsink] at hidle
          cases hidle
        · exact absurd hidle hcoming
    · obtain rfl : st = st' := Option.some.inj (hst.symm.trans hst')
      rfl
  · exact ⟨_, hstop hx (issuedFor s t .sstop c) (fun _ => rfl) fun st hst hsink hcoming => absurd ⟨st, hst, hsink, hcoming⟩ hlive⟩

omit hq in
theorem bankDots_end : ∀ o ∈ [Op.bdot, .bdotq], executable s t o c = true → bdcfgOk t.bdcfg = true → t.q3.length < 32 → ∀ off,
    windowCheck (s.domEntry s.cur.1 t) (word (bits t.bdcfg 21 0 + 0x00F0000000000000)) (bdVecBytes t.bdcfg) 1 = .ok off →
    threadConflict s.hereCore false ⟨0, bits t.bdcfg 21 0, bdVecBytes t.bdcfg⟩ = false →
    isWindow (t.scalar c.a) = false → bits (t.scalar c.a) 63 56 = 0 → regionOf (eaOff (t.scalar c.a)) = .dram →
    Ends o c s t := by
  obtain ⟨-, -, hbdot, hbdotq⟩ := bankDotChains c s t h
  simp only [List.forall_mem_cons]
  exact ⟨fun hx hcfg _ off hc hl hw hb hr => ⟨_, hbdot hx hcfg off hc hl hw hb hr⟩,
    fun hx hcfg hlen off hc hl hw hb hr => ⟨_, hbdotq hx hcfg hlen off hc hl hw hb hr⟩, List.forall_mem_nil _⟩

theorem slinv_ends (hx : executable s t .slinv c = true) (hmode : bits (t.scalar c.a) 15 12 < 3)
    (hbad : slinvBad (t.scalar c.a) = false) (hcube : c.scope = .cube ∨ eaCube (t.scalar c.a) = s.logical)
    (hwalk : walking s = false) : Ends .slinv c s t := by
  obtain ⟨hslinv, -⟩ := privilegedChains c s t h hq.a hq.d
  have hmem : ∃ e ∈ invalidations, e.1 = bits (t.scalar c.a) 15 12 := by
    generalize bits (t.scalar c.a) 15 12 = n at hmode
    interval_cases n
    · exact ⟨_, List.mem_cons_self, rfl⟩
    · exact ⟨_, List.mem_cons_of_mem _ List.mem_cons_self, rfl⟩
    · exact ⟨_, List.mem_cons_of_mem _ (List.mem_cons_of_mem _ List.mem_cons_self), rfl⟩
  obtain ⟨e, he, hsel⟩ := hmem
  exact ⟨_, (hslinv e he hx hsel.symm hbad).1 hcube hwalk⟩

theorem setown_ends (hx : executable s t .setown c = true) (hbits : bits (t.scalar c.a) 63 7 = 0)
    (hbar : setownBarred (issuedFor s t .setown c) s.cur.1 s.cur.2 (bits (t.scalar c.a) 6 0) = false) :
    Ends .setown c s t :=
  ⟨_, issueChain_done (body := setownBody) h hx (setownBody_issued .setown c hq.a hbits hbar)⟩

theorem buoys_ends (hx : executable s t .buoys c = true) (hbits : bits (t.scalar c.a) 63 43 = 0)
    (hlt : bits (t.scalar c.a) 42 32 < 1028) (hempty : (s.core (bits (t.scalar c.a) 42 32)).threads = []) :
    Ends .buoys c s t :=
  ⟨_, issueChain_done (body := buoysBody) h hx (buoysBody_issued .buoys c h hq.a hq.d hbits rfl hlt hempty)⟩

end

theorem claim_systemCompletes : Claim.SystemCompletes := by
  intro c s t h ha hb hd
  have hq : NamesNoPort c := ⟨ha, hb, hd⟩
  obtain ⟨htrap, htret, -⟩ := trapAndReturn c s t h
  obtain ⟨hgcall, -⟩ := gates.1 c s t h
  obtain ⟨hctlr, hctlw, -⟩ := controlRegisters c s t h
  have hfences := fences c s t h
  obtain ⟨hbinit, -, harrive, -⟩ := barriers.1 c s t h
  obtain ⟨hsend, -, hrecv, -⟩ := sendAndReceive c s t h ha hd
  obtain ⟨hspawn, htpost, htbind, -⟩ := spawnAndTriggers c s t h ha hd
  obtain ⟨hmcfg, hmgang, hmresume, hmbook, -⟩ := matrixChains c s t h
  obtain ⟨hfopen, hfjoin, -, hfclose, -⟩ := folios c s t h ha hb hd
  obtain ⟨hsmode, -⟩ := streamModes c s t h
  obtain ⟨hcopy, hrowcopy, hrowzero, hmwait⟩ := copyChains c s t h ha hb hd
  obtain ⟨hbdcfg, -⟩ := bankDotChains c s t h
  obtain ⟨-, hsetkey, -, histw, hstart⟩ := privilegedChains c s t h ha hd
  obtain ⟨-, -, hbuoyc, hhaltrq⟩ := buoysAndHalt c s t h ha hd
  obtain ⟨-, hcsave, hcload⟩ := contextChains c s t h ha hd
  have hports := hq.portless
  refine ⟨htrap, ?tret, fun hx hn hok had hlen hdok hwin => ⟨_, hgcall hx hn hok had hlen hdok hwin⟩,
    fun hx f rest => gret_completes h hx, ?ctlr, fun hx e he hsel => ⟨_, hctlw hx ha e he hsel⟩, globalLoads_complete h hq,
    ?messages, fun hx hclear hrec => ⟨_, (hfences hx).1 hclear hrec⟩, fun hx hpos hmax => ⟨_, _, _, hbinit hx ha hpos hmax⟩,
    ?arrivals, ?bwait, fun hx hcore hscope hz hlen => ⟨_, hsend hx hcore hscope hz hlen⟩,
    fun hx m rest off hm hp hw hs => ⟨_, hrecv hx m rest off hm hp hw hs⟩, fun hx off hl hscope => ⟨_, hspawn hx off hl hscope⟩,
    fun hx hbits hscope => ⟨_, htpost hx hbits hscope⟩, fun hx hz => ⟨_, _, _, htbind hx hz⟩,
    fun hx hlt hroom => ⟨_, (hmcfg hx ha hlt).1 hroom⟩, fun hx hlt hcore => ⟨_, hmgang hx ha hlt hcore⟩,
    fun hx hroom off hl => ⟨_, hmresume hx hports hroom off hl⟩, fun hx hz hcore => ⟨_, hmbook hx hports hz hcore⟩,
    fun hx i hcore hpos hmax hpad halign hguard hend hi hfree hlow hlen hseal hconf =>
      ⟨_, hfopen hx i hcore hpos hmax hpad halign hguard hend hi hfree hlow hlen hseal hconf⟩,
    fun hx key f hcore hdie hkey hf hopen hsub hpos hmax hfit =>
      ⟨_, hfjoin hx key f hcore hdie hkey hf hopen hsub hpos hmax hfit⟩,
    fun hx key f hbit hkey hf hprod => ⟨_, hfclose hx key f hbit hkey hf hprod⟩,
    fun hx hst off base hl hbad hbase => ⟨_, hsmode hx hports hst off base hl hbad hbase⟩, fun hx => sstop_ends h hx,
    fun e he hx hroom op hop => ⟨_, (hcopy e he hx op hop).1 hroom⟩,
    fun hx hwd hwa hgd hga hroom => ⟨_, hrowcopy hx hwd hwa hgd hga hroom⟩,
    fun hx hwd hgd hroom => ⟨_, hrowzero hx hwd hgd hroom⟩, fun hx hz => ⟨_, (hmwait hx).1 hz⟩,
    fun hx hok => ⟨_, hbdcfg hx ha hok⟩, bankDots_end h, slinv_ends h hq,
    fun hx off hl hbad hsys => ⟨_, hsetkey hx off hl hbad hsys⟩, setown_ends h hq,
    fun hx hhi hmid hcore => ⟨_, histw hx hhi hmid hcore⟩, fun hx hhi hcore hz => ⟨_, (hstart hx hhi hcore).1 hz⟩,
    buoys_ends h hq, fun hx hbits hsome => ⟨_, hbuoyc hx _ hbits rfl hsome⟩,
    fun hx hne hhi hop => ⟨_, hhaltrq hx _ rfl hne hhi hop _ rfl⟩, ?csave, ?cload⟩
  case tret =>
    intro hx hin hdepth hres hsel hm
    obtain ⟨hready, -⟩ := htret hx hin hdepth hres hsel _ fun _ => rfl
    exact hready hm
  case ctlr =>
    intro hx e he hsel
    obtain ⟨u, τ, hexec, hu, hr⟩ := hctlr hx hd e he hsel
    exact hr.runs hexec hu
  case messages =>
    intro e he hx g hg hf hk hfe
    obtain ⟨hsends, -⟩ := globalMessages e he c s t g h hx hb (.inr hd) hg hf
    exact ⟨_, hsends hk hfe⟩
  case arrivals =>
    intro o ho hx hrs hno
    obtain ⟨e, he, rfl⟩ := mem_of_fst (l := arrivals) ho
    exact ⟨_, _, _, harrive e he hx hrs hno⟩
  case bwait =>
    intro hx a harr hbar hlost hrel
    obtain ⟨hdone, -⟩ := barriers.2 .bwait (.inl rfl) c s t h hx (fun hbaw => by cases hbaw) hd
    exact ⟨_, hdone a harr hbar hlost hrel⟩
  case csave =>
    intro hx tgt homes e u hsel hplace hcube hsave hready hh hu
    obtain ⟨-, hsaves⟩ := hcsave hx 0 tgt hsel hplace _ rfl
    obtain ⟨-, hgoes⟩ := hsaves hsave
    obtain ⟨-, hhere⟩ := hgoes hready
    obtain ⟨hthread, -⟩ := hhere hcube homes e hh
    exact ⟨_, hthread u rfl hu⟩
  case cload =>
    intro hx tgt homes e hsel hplace hcube hh m u hread hfree hok hlease
    obtain ⟨hthread, -⟩ := hcload hx 0 tgt homes e hsel hplace hcube hh m [] u hread
    exact ⟨_, hthread rfl hfree hok rfl hlease⟩

/-- Settles O42: each instruction completes by the statement of its own effect. -/
theorem chainsComplete : Obligations.ChainsComplete := ⟨claim_computationCompletes, claim_systemCompletes⟩

end Sys2Proof.Machine

end

section
/-! PROOFS. Steps without an encoding: queue ports, blocks, leases, results, traps and waits (spec/01 R27, R35, R145, R150,
R176, R178, R202, R215). -/

namespace Sys2Proof.Machine

/-- A step without an encoding answers the state that its function gives. -/
theorem happens_some {row : String} {r : Option State} {u : State} (h : r = some u) : happens row r = .next u := by
  rw [h]; rfl

theorem happens_of {row : String} {r : Option State} {u : State} (h : r = some u) :
    ∃ v, happens row r = .next v := ⟨u, happens_some h⟩

theorem readyThread_of {s : State} {core slot : Nat} {t : Thread} (h : s.thread? core slot = some t)
    (hr : t.isReady = true) : readyThread s core slot = some t := by
  simp only [readyThread, h, hr, if_true]

/-! ### Pushes and pops (R27, R150, R176) -/

/-- An operation whose checks hold is one of the thread that asked for it, in its turn. -/
theorem makeCopy_names {s : State} {core slot : Nat} {t : Thread} {kind : Nat} {gd ga gb : Word} {tag scope : Nat}
    {urg nt : Bool} {op : CopyOp} (h : makeCopy s core slot t kind gd ga gb tag scope urg nt = .ok op) :
    op.uid = t.uid ∧ op.slot = slot ∧ op.seq = t.cseq := by
  unfold makeCopy at h
  split at h
  · cases h
  split at h
  · cases h
  split at h
  · cases h
  cases hd : engineAddr s core (s.domEntry core t) gd (windowExtent kind gb true) with
  | error x => simp only [hd] at h; cases h
  | ok dst =>
    cases hs : engineAddr s core (s.domEntry core t) ga (windowExtent kind gb false) with
    | error x => simp only [hd, hs] at h; cases h
    | ok src =>
      simp only [hd, hs] at h
      cases h
      exact ⟨rfl, rfl, rfl⟩

/-- A push to q1 with room enters one operation of the thread (R145, R176). -/
theorem pushCopy_enters {s : State} {core slot : Nat} {t : Thread} (w : Word) (hroom : copyRoom (s.core core) t = true) :
    ∃ op : CopyOp, op.uid = t.uid ∧ op.slot = slot ∧ op.seq = t.cseq ∧
      pushCopy s core slot t w = some (enterCopy s core slot op) := by
  unfold pushCopy
  simp only [hroom, Bool.not_true, Bool.false_eq_true, if_false]
  split
  · exact ⟨_, rfl, rfl, rfl, rfl⟩
  · split
    · exact ⟨_, rfl, rfl, rfl, rfl⟩
    · next op hmade =>
      obtain ⟨huid, hslot, hseq⟩ := makeCopy_names hmade
      exact ⟨op, huid, hslot, hseq, rfl⟩

section
variable {s : State} {core slot : Nat} {t : Thread} (h : s.thread? core slot = some t)
include h

theorem pushSecond_enters {kind : Nat} {w w0 : Word} (hr : t.isReady = true) (hhalf : t.half = some w0)
    (hkind : bits w0 63 60 = kind) (horder : (s.core core).slice.order.length < 16) (hout : t.out0 < 16) :
    pushSecond s core slot kind w = some (enterMatrix (s.setThread core slot { t with half := none }) core slot
      { t with half := none } .words w0 w true) := by
  have hroom : matrixRoom (s.core core) t = true := by simp [matrixRoom, horder, hout]
  simp only [pushSecond, readyThread_of h hr, hhalf, cmdKind, hkind, beq_self_eq_true, if_true, pushPort, h, pushMatrix, hroom]

/-- A pop of a port that holds an entry makes it pending for the register field (R27). -/
theorem popEntry_pops {port d : BitVec 4} {v : Word} {u : State} (hr : t.isReady = true) (hport : 12 ≤ port.toNat)
    (hpop : popPort s core slot (portOf port) = some (v, u)) :
    popEntry s core slot port d = some (addPend u core slot (gRes d) (some [.g d.toNat v])) := by
  simp only [popEntry, readyThread_of h hr, if_neg (Nat.not_lt.mpr hport), hpop]

/-- A pop of an empty port blocks the thread (R27). -/
theorem popEntry_blocks {port d : BitVec 4} (hr : t.isReady = true) (hport : 12 ≤ port.toNat)
    (hpop : popPort s core slot (portOf port) = none) :
    popEntry s core slot port d =
      some (s.setThread core slot { t with status := .blocked (.pop (portOf port)) (s.core core).cyc }) := by
  simp only [popEntry, readyThread_of h hr, if_neg (Nat.not_lt.mpr hport), hpop, State.cyc]

/-! ### Blocked threads (R27, R122, R251) -/

theorem releaseBlock_finishes {wt : Wait} {since : Nat} {u : State} (hb : t.status = .blocked wt since)
    (hplace : ∀ id r, wt ≠ .area id r) (hs : t.stops = []) (hf : finishWait s core slot = some u) :
    releaseBlock s core slot = some u := by
  cases wt
  case area id r => exact absurd rfl (hplace id r)
  all_goals simp only [releaseBlock, h, hb, hs, List.isEmpty_nil, Bool.not_true, Bool.false_eq_true, if_false, hf]

/-- A wait that no event completes does not end by itself: it can only proceed. -/
theorem finishWait_of_canProceed {wt : Wait} {since : Nat} (hb : t.status = .blocked wt since)
    (hp : canProceed s core slot t wt = true) : finishWait s core slot = none := by
  cases wt
  case mailbox => cases hp
  case recv => cases hp
  case barrierRelease => cases hp
  all_goals simp only [finishWait, h, hb]

theorem releaseBlock_wakes {wt : Wait} {since : Nat} (hb : t.status = .blocked wt since) (hs : t.stops = [])
    (hp : canProceed s core slot t wt = true) : releaseBlock s core slot = some (wake s core slot) := by
  have hf := finishWait_of_canProceed h hb hp
  cases wt
  case area => cases hp
  all_goals simp only [releaseBlock, h, hb, hs, List.isEmpty_nil, Bool.not_true, Bool.false_eq_true, if_false, hf, hp, if_true]

theorem grantLease_grants {n since : Nat} {r : Resume} {rest : List Nat} (hb : t.status = .blocked (.lease n r) since)
    (hs : t.stops = []) (hq : (s.core core).leaseq = slot :: rest) (hroom : leaseRoom (s.core core) n = true) :
    grantLease s core = some (completeChain
      ((s.modCore core fun k => { k with leaseq := rest }).modThread core slot (·.leased n)) core slot r none) := by
  simp only [grantLease, hq, h, hb, hs, List.isEmpty_nil, hroom, Bool.and_self, if_true]
  rfl

end

/-- R27 (spec/01), R122 (spec/05), R150, R176 (spec/06): queue ports, the end of a block and the grant of a lease. -/
theorem claim_queueEvents : Claim.QueueEvents := by
  intro s core slot w t h
  refine ⟨?first, ?second, ?descriptor, ?pops, ?release, ?lease⟩
  case first =>
    intro hr hhalf
    refine happens_some ?_
    simp only [pushFirst, readyThread_of h hr, hhalf, Option.isNone_none, if_true, pushPort, h, pushMatrix]
  case second =>
    simp only [matrixKinds, List.forall_mem_cons]
    refine ⟨?_, ?_, ?_, ?_, List.forall_mem_nil _⟩
    all_goals
      intro w0 hr hhalf hkind horder hout
      exact happens_some (pushSecond_enters h hr hhalf hkind horder hout)
  case descriptor =>
    intro hr hcopies hout
    obtain ⟨op, huid, hslot, hseq, hpush⟩ := pushCopy_enters (slot := slot) (t := t) w
      (by simp [copyRoom, hcopies, hout] : copyRoom (s.core core) t = true)
    refine ⟨op, huid, hslot, hseq, happens_some ?_⟩
    simp only [pushDescriptor, readyThread_of h hr, pushPort, h, hpush]
  case pops =>
    intro d hr
    refine ⟨fun v rest hq => ?_, fun v rest hq => ?_, fun v id rest hq => ?_, fun hq => ?_, fun hq => ?_,
      fun v u hp => ?_, fun hp => ?_, fun hq => ?_⟩
    · exact happens_some (popEntry_pops h hr (by decide) (by simp [popPort, portOf, h, hq]))
    · exact happens_some (popEntry_pops h hr (by decide) (by simp [popPort, portOf, h, hq]))
    · exact happens_some (popEntry_pops h hr (by decide) (by simp [popPort, portOf, h, hq]))
    · exact happens_some (popEntry_blocks h hr (by decide) (by simp [popPort, portOf, h, hq]))
    · exact happens_some (popEntry_blocks h hr (by decide) (by simp [popPort, portOf, h, hq]))
    · exact happens_some (popEntry_pops h hr (by decide) hp)
    · exact happens_some (popEntry_blocks h hr (by decide) hp)
    · exact happens_some (popEntry_blocks h hr (by decide) (by simp [popPort, portOf, h, hq]))
  case release =>
    intro wt since hb hs hp
    exact happens_some (releaseBlock_wakes h hb hs hp)
  case lease =>
    intro n r since rest hb hs hq hroom
    exact happens_some (grantLease_grants h hb hs hq hroom)

/-! ### Results, traps and waits (R35, R107, R178, R202, R205, R208, R215) -/

theorem expired_iff (now since : Nat) (limit : Word) :
    expired now since limit = true ↔ limit ≠ 0 ∧ since + limit.toNat < now := by
  simp [expired]

section
variable {s : State} {core slot : Nat} {t : Thread} (h : s.thread? core slot = some t)
include h

theorem returnResult_lands {p : Pend} {ws : List RegWrite} (hx : t.status ≠ .exiting)
    (hp : (t.pend.find? fun q => q.writes.isSome) = some p) (hws : p.writes = some ws) :
    returnResult s core slot = some (settle (s.setThread core slot
      { t.writes ws with pend := t.pend.filter fun q => q.id != p.id }) core slot) := by
  unfold returnResult
  simp only [h, knownPend, hp, hws, Option.getD_some]

theorem returnResult_passesBeat {q : SinkStrip} {rest : List SinkStrip} (hx : t.status ≠ .exiting)
    (hp : ∀ p ∈ t.pend, p.writes = none) (hbeats : t.beats = q :: rest) :
    returnResult s core slot = some ((s.setThread core slot { t with beats := rest }).modCore core fun k =>
      { k with sinkq := k.sinkq ++ [q] }) := by
  have hnone : (t.pend.find? fun q => q.writes.isSome) = none :=
    List.find?_eq_none.mpr fun p hmem => by simp [hp p hmem]
  unfold returnResult
  simp only [h, knownPend, hnone, passBeat, hbeats]

end

/-- R35 (spec/01), R107 (spec/04), R215 (spec/07), R178 (spec/06), R202: results, traps and the ends of waits. -/
theorem claim_waitEvents : Claim.WaitEvents := by
  intro s core slot t h
  refine ⟨fun hx p ws hp hws => happens_some (returnResult_lands h hx hp hws), ?ends,
    fun q rest hx hp hb => happens_some (returnResult_passesBeat h hx hp hb), ?trap, ?sleep, ?mailLimit, ?mail, ?recv,
    ?barrier, ?stfe⟩
  case ends =>
    intro hx hk
    refine happens_some ?_
    simp only [returnResult, h, hx, hk, if_true]
  case trap =>
    intro x hx hk
    refine happens_some ?_
    simp only [enterTrap, h, hx, hk, if_true]
  case sleep =>
    intro w kind since a d ea hx hlim hlate
    refine happens_some ?_
    simp only [expireSleep, h, hx, (expired_iff _ _ _).mpr ⟨hlim, hlate⟩, if_true]
  case mailLimit =>
    intro g mb e r since hx hlim hlate hmail
    refine happens_some ?_
    simp only [expireMwait, h, hx, (expired_iff _ _ _).mpr ⟨hlim, hlate⟩, hmail, Bool.not_false, Bool.and_self, if_true]
  case mail =>
    intro g mb e r since hx hs hmail
    refine happens_some (releaseBlock_finishes h hx (fun _ _ => Wait.noConfusion) hs ?_)
    simp only [finishWait, h, hx, hmail, if_true]
  case recv =>
    intro o r since hdr u hx hs hrecv
    refine happens_some (releaseBlock_finishes h hx (fun _ _ => Wait.noConfusion) hs ?_)
    simp only [finishWait, h, hx, hrecv]
  case barrier =>
    intro r since a hx hs ha hlost hrel
    refine happens_some (releaseBlock_finishes h hx (fun _ _ => Wait.noConfusion) hs ?_)
    simp only [finishWait, h, hx, ha, hlost, hrel, Bool.false_eq_true, if_false, if_true]
  case stfe =>
    intro id p hid hp
    refine happens_some ?_
    simp only [expireStfe, hid, hp]

/-- Settles O43, from `claim_queueEvents` and `claim_waitEvents`. -/
theorem queueAndWaitEvents : Obligations.QueueAndWaitEvents := ⟨claim_queueEvents, claim_waitEvents⟩

end Sys2Proof.Machine
end

section
/-! PROOFS. Stores to control registers and to the configuration region as steps (spec/07 R221; spec/15 R325, R340; spec/19
R397, R399, R403; spec/20 R417, R420, R422; spec/21 R431, R432). -/

namespace Sys2Proof.Machine

/-! ### Stores that are performed -/

theorem stored_aliasStore (s : State) (k : Nat) (w : Word) : stored (aliasStore s k w) = some (writeAlias s k w) := by
  unfold aliasStore
  dsimp only
  split <;> rfl

theorem writeRoute_routes (s : State) (d : Nat) (w : Word) :
    (writeRoute s d w).routes = tset s.routes d (w &&& 0xFFFFFC0000000000) := by
  unfold writeRoute
  dsimp only
  split <;> rfl

theorem dtabOk_of {w : Word} (hhigh : bits w 63 44 = 0) (hmid : bits w 31 22 = 0) (hlow : bits w 5 0 = 0) :
    dtabOk w = true := by
  simp [dtabOk, hhigh, hmid, hlow]

theorem clearMberr_eq (s : State) (core : Nat) (g : GroupId) (w : Word) :
    clearMberr s core g w = s.modCore core fun k =>
      if (mailSet k g).mberr = 0 then k
      else setMail k g { mailSet k g with mberr := (mailSet k g).mberr &&& ~~~ (BitVec.ofNat 16 w.toNat) } := by
  simp only [clearMberr, beq_iff_eq]

/-- A frame inside its alignment is dropped (spec/20 R422). -/
theorem cacheControl_frame {s : State} {core : Nat} {w : Word} (hop : bits w 63 62 = 1) (hsize : bits w 61 60 ≠ 3)
    (hzero : bits w 59 23 = 0) (halign : bits w 22 0 * 2 ^ 16 % 2 ^ frameBits (bits w 61 60) = 0) :
    cacheControl s core w = .ok (dropLines s core fun l =>
      32 * l.line / 2 ^ frameBits (bits w 61 60) == bits w 22 0 * 2 ^ 16 / 2 ^ frameBits (bits w 61 60)) := by
  unfold cacheControl
  dsimp only
  rw [if_neg (by simp [hsize, hzero, halign, -Nat.reducePow]), hop]
  rfl

/-! ### Words of the configuration region (R258) -/

theorem configWrite_inRegion {s : State} {writer off : Nat} {w : Word} {u : State} (hoff : off < 2 ^ 34) (halign : off % 8 = 0)
    (h : configStore s ⟨writer, writer == commanderEp⟩ off w = .ok u) : configWrite s writer off w = some u := by
  have hin : (decide (2 ^ 34 ≤ off) || off % 8 != 0) = false := by simp [halign, Nat.not_le.mpr hoff, -Nat.reducePow]
  simp only [configWrite, hin, Bool.false_eq_true, if_false, h, stored]

theorem configStore_space {s : State} {by' : Writer} {off : Nat} {w : Word} (hblock : off / 0x100000 = 4)
    (hoff : off % 0x100000 < 0x20000) : configStore s by' off w =
      .ok { s with space := tset s.space (off % 0x100000 / 8) (w &&& spaceMask (off % 0x100000 / 8 % 4)) } := by
  simp only [configStore, hblock, hoff, if_true]

theorem configStore_spillDesc {s : State} {by' : Writer} {off : Nat} {w : Word} (hblock : off / 0x100000 = 14)
    (hoff : off % 0x100000 < 8224) : configStore s by' off w =
      .ok { s with spillDesc := tset s.spillDesc (off % 0x100000 / 8) (w &&& 0xFF00000007FFFFFF) } := by
  have hin : off % 0x100000 < 1028 * 8 := hoff
  simp only [configStore, hblock, hin, if_true]

/-- Settles O44: each store by the function of its row. -/
theorem configEvents : Obligations.ConfigEvents := by
  intro s w
  refine ⟨?dtab, ?frec, ?mberr, ?splitc, ?aliases, ?drain, ?lost, ?route, ?switch, ?paths, ?frame, ?all, ?logical,
    ?word⟩
  case dtab =>
    intro core hcore hhigh hmid hlow
    exact happens_some (by simp only [dtabWrite, hcore, dtabOk_of hhigh hmid hlow, decide_true, Bool.and_self, if_true])
  case frec =>
    intro core slot t h
    exact happens_some (by simp only [frecClear, h])
  case mberr =>
    intro core g hcore
    exact happens_some (by rw [if_pos hcore, clearMberr_eq])
  case splitc => rfl
  case aliases =>
    intro k hk
    exact happens_some (by rw [if_pos hk, stored_aliasStore])
  case drain =>
    intro k p a hp hbody
    exact happens_some (by simp only [aliasDrain, hp, hbody])
  case lost =>
    intro k hk hstate
    exact happens_some (by simp [aliasLost, hk, hstate])
  case route =>
    intro d hd
    exact ⟨writeRoute s d w, happens_some (if_pos hd), writeRoute_routes s d w⟩
  case switch =>
    intro d r hr hbusy
    exact happens_some (by simp [routeSwitch, hr, hbusy])
  case paths =>
    intro i hi
    exact happens_some (if_pos hi)
  case frame =>
    intro core hcore hop hsize hzero halign
    refine happens_some ?_
    simp only [hcDropFrame, hcore, hop, decide_true, beq_self_eq_true, Bool.and_self, if_true,
      cacheControl_frame hop hsize hzero halign, stored]
  case all =>
    intro core hcore
    exact happens_some (if_pos hcore)
  case logical => rfl
  case word =>
    intro writer off hoff halign
    refine ⟨fun u hu => ?_, fun hblock hin => ?_, fun hblock hin => ?_⟩
    · exact happens_some (configWrite_inRegion hoff halign hu)
    · exact happens_some (configWrite_inRegion hoff halign (configStore_space hblock hin))
    · exact happens_some (configWrite_inRegion hoff halign (configStore_spillDesc hblock hin))

end Sys2Proof.Machine
end

section
/-! PROOFS. Translation, table walks, messages at their homes and acknowledgements (spec/00 R2; spec/07 R196-R207; spec/09
R267, R280; spec/15 R338, R339; spec/20 R421). -/

namespace Sys2Proof.Machine

/-! ### Translation slices (R338, R339) -/

/-- A leaf that a slice holds is used as it stands: nothing new is kept. -/
theorem resolveLeaf_held {s : State} {slice dom off src : Nat} {priv r w : Bool} {l : LeafCopy} {x : Xl}
    (hl : heldLeaf s slice dom off = some l) (hmode : bits l.d0 49 48 ≠ 2)
    (hx : leafCheck s slice dom priv off ⟨l.level, l.d0, l.d1, l.entry⟩ r w = .ok x) :
    resolveLeaf s slice dom priv off ⟨l.level, l.d0, l.d1, l.entry⟩ r w src =
      (.ok (x, placement s x.pa (bits l.d0 49 48) (bits l.d0 47 37)), s) := by
  have hfound := List.find?_some hl
  simp only [Bool.and_eq_true, beq_iff_eq] at hfound
  obtain ⟨⟨hslice, hdom⟩, hpage⟩ := hfound
  have hkept : s.leaves.contains (⟨slice, dom, off / 2 ^ pageBits l.level, l.level, l.d0, l.d1, l.entry⟩ : LeafCopy) = true := by
    rw [← hslice, ← hdom, ← hpage, List.contains_iff_mem]
    exact List.mem_of_find?_eq_some hl
  have hmode' : (bits l.d0 49 48 != 2) = true := by simp [hmode]
  have hplace : (bits l.d0 49 48 == 2) = false := by simp [hmode]
  simp only [resolveLeaf, hx, hmode', if_true, hkept, leafHome, hplace, Bool.false_eq_true, if_false]

/-- The checks of a leaf look at its level and its dwords alone. -/
theorem leafCheck_entry (s : State) (slice dom off level n m : Nat) (priv r w : Bool) (d0 d1 : Word) :
    leafCheck s slice dom priv off ⟨level, d0, d1, n⟩ r w = leafCheck s slice dom priv off ⟨level, d0, d1, m⟩ r w := rfl

section
variable {s : State} {pkt : Nat} {p : Packet} (hp : s.packet? pkt = some p)
include hp

section
variable (hstage : p.stage = .slice) (hcube : eaCube p.addr = s.logical) (hclear : clearSlice s p = true)
  (hrow : p.isRow = false) (hhigh : bits p.addr 63 56 = 0) (hdram : regionOf (eaOff p.addr) = .dram)
  {e : State} (he : e = s.useSpace (2000 + sliceOf p.addr) p.dom)
  (hvalid : bit (e.spaceAt (2000 + sliceOf p.addr) p.dom).w0 63 = true)
include hstage hcube hclear hrow hhigh hdram he hvalid

theorem sliceTranslate_held {l : LeafCopy} (hl : heldLeaf e (sliceOf p.addr) p.dom (eaOff p.addr) = some l) :
    sliceTranslate s pkt = some (useLeaf e p ⟨l.level, l.d0, l.d1, l.entry⟩) := by
  subst he
  simp [sliceTranslate, hp, hstage, hcube, hclear, hrow, hhigh, hdram, hvalid, hl]

theorem sliceTranslate_walks (hl : heldLeaf e (sliceOf p.addr) p.dom (eaOff p.addr) = none)
    (hroom : walksAt e (sliceOf p.addr) < 32) : sliceTranslate s pkt = some (e.modPacket pkt fun q =>
      { q with stage := .walk 1 (bits (e.spaceAt (2000 + sliceOf p.addr) p.dom).w0 22 0 * 65536) }) := by
  subst he
  simp [sliceTranslate, hp, hstage, hcube, hclear, hrow, hhigh, hdram, hvalid, hl, hroom]

end

section
variable {level table at' : Nat} (hstage : p.stage = .walk level table) (hat : at' = table + 16 * walkIndex (eaOff p.addr) level)
  {r : (BitVec 256 × BitVec 4) × State} (hr : r = homeReadLine s (spreadHome s 15 at') (at' / 32) 0 false)
include hstage hat hr

/-- The step of a walk reads the entry at its line's home and goes on at the table that it names (R337, R339). -/
theorem walkRead_table {n : Nat} (hkind : entryKind level (word (lineBytes r.1.1 (at' % 32) 8))
    (word (lineBytes r.1.1 (at' % 32 + 8) 8)) = .table n) :
    walkRead s pkt = some (r.2.modPacket pkt fun q => { q with stage := .walk (level + 1) n }) := by
  subst hat hr
  simp only [walkRead, hp, hstage, hkind]

theorem walkRead_bad (hkind : entryKind level (word (lineBytes r.1.1 (at' % 32) 8))
    (word (lineBytes r.1.1 (at' % 32 + 8) 8)) = .bad) :
    walkRead s pkt = some (repairOr r.2 p { cause := cXLATE, detail := 1, remote := true }) := by
  subst hat hr
  simp only [walkRead, hp, hstage, hkind]

end

end

/-- A message that fails at a slice is acknowledged as failed (R196, R339). -/
theorem repairOr_access (s : State) {p : Packet} {a : Access} (hbody : p.body = .access a) (cause detail : Nat) (remote : Bool) :
    repairOr s p { cause := cause, detail := detail, remote := remote } =
      acknowledge (s.dropPacket p.id) p (some ⟨cause, detail, p.addr⟩) := by
  simp only [repairOr, failAtSlice, hbody, failureOf]

/-- The translation of a message leads it to its home (R259). -/
theorem forward_access (s : State) {p : Packet} {a : Access} (hbody : p.body = .access a) (x : Xl) (home : Nat) :
    forward s p x home = s.modPacket p.id fun q => { q with xl := some x, dst := s.logical * 2048 + home, stage := .home } := by
  simp only [forward, hbody]

/-! ### Messages at their homes (R196, R201, R267, R280, R421) -/

theorem holdMessage_room {s : State} {p : Packet} (h : (heldAt s p.dst).length < 32) : holdMessage s p =
    some { s.dropPacket p.id with net := (s.dropPacket p.id).net ++ [{ p with stage := .held }] } := if_pos h

theorem poisonedValue_clean {p : Packet} (a : Access) (h : p.bad = []) : poisonedValue p a = false := by
  simp [poisonedValue, h]

theorem storePoison_clean (s : State) (c : Nat) {p : Packet} (a : Access) (h : p.bad = []) : storePoison s c p a = s := by
  simp [storePoison, h]

/-- A message of a word that is no full/empty word and no configuration word is performed. -/
theorem runMessage_performs {s u : State} {c old : Nat} {p : Packet} {a : Access} (hstfe : a.op ≠ .stfe) (hstff : a.op ≠ .stff)
    (hfeclr : a.op ≠ .feclr) (hbad : p.bad = []) (hconfig : ∀ o, regionOf (eaOff p.addr) ≠ .config o)
    (hdone : homePerform s c a p.addr p.xl = .ok (old, u)) : runMessage s c p a = some (performed u c p) := by
  unfold runMessage
  rw [poisonedValue_clean a hbad, if_neg Bool.false_ne_true]
  split
  · next hop _ => exact absurd hop hstfe
  · next hop _ => exact absurd hop hstff
  · next hop _ => exact absurd hop hfeclr
  · next hregion => exact absurd hregion (hconfig _)
  · simp only [hdone, storePoison_clean u c a hbad]

theorem runMessage_queuesStfe {s : State} {c core o : Nat} {p : Packet} {a : Access} (hop : a.op = .stfe) (hbad : p.bad = [])
    (hregion : regionOf (eaOff p.addr) = .lstore core o) : runMessage s c p a = some (queueStfe s c p o) := by
  simp only [runMessage, poisonedValue_clean a hbad, Bool.false_eq_true, if_false, hop, hregion]

section
variable {s : State} {c : Nat} {p : Packet} {a : Access} (hhandled : handledAt s c p = true)
  (hbehind : behindHeld (heldAt s p.dst) p = false) (hport : heldByPort s p = false)
include hhandled hbehind hport

theorem arriveMessage_repeated {d : DoneId} (hkept : keptId s c p = some d) :
    arriveMessage s c p a = some (repeated s p d) := by
  simp [arriveMessage, hhandled, hbehind, hport, hkept]

section
variable {e : State} (he : e = s.useSpace c p.dom)
include he

theorem arriveMessage_fails (hkept : keptId s c p = none) {t : TrapRec} (hcheck : messageCheck e c p a = some t) :
    arriveMessage s c p a = some (failed e p (failureOf t)) := by
  subst he
  simp [arriveMessage, hhandled, hbehind, hport, hkept, hcheck]

theorem arriveMessage_held (hkept : keptId s c p = none) (hcheck : messageCheck e c p a = none)
    (hlock : homeLocked e c a p.addr p.xl = true) : arriveMessage s c p a = holdMessage e p := by
  subst he
  simp [arriveMessage, hhandled, hbehind, hport, hkept, hcheck, hlock]

theorem arriveMessage_runs (hkept : keptId s c p = none) (hcheck : messageCheck e c p a = none)
    (hlock : homeLocked e c a p.addr p.xl = false) : arriveMessage s c p a = runMessage e c p a := by
  subst he
  simp [arriveMessage, hhandled, hbehind, hport, hkept, hcheck, hlock]

end
end

theorem messagePerform_arrives {s : State} {pkt : Nat} {p : Packet} {a : Access} (harr : arriving s pkt = some p)
    (hbody : p.body = .access a) (hcore : epCore p.dst < 1028) (hop : a.op ≠ .stfe) :
    messagePerform s pkt = arriveMessage s (epCore p.dst) p a := by
  simp [messagePerform, harr, hbody, hcore, hop]

theorem stfeArrive_arrives {s : State} {pkt : Nat} {p : Packet} {a : Access} (harr : arriving s pkt = some p)
    (hbody : p.body = .access a) (hcore : epCore p.dst < 1028) (hop : a.op = .stfe) :
    stfeArrive s pkt = arriveMessage s (epCore p.dst) p a := by
  simp [stfeArrive, harr, hbody, hcore, hop]

/-- The oldest held message of a core that nothing holds back is performed (R280). -/
theorem releaseHeld_runs {s : State} {core : Nat} {p : Packet} {rest : List Packet} {a : Access}
    (hheld : heldAt s (s.ep core) = p :: rest) (hhandled : handledAt s core p = true) (hbody : p.body = .access a)
    (hport : heldByPort s p = false) (hkept : keptId s core p = none) (hlock : homeLocked s core a p.addr p.xl = false)
    (hcheck : messageCheck s core p a = none) : releaseHeld s core = runMessage s core p a := by
  simp [releaseHeld, hheld, behindHeld, hhandled, hbody, hport, hkept, hlock, hcheck]

/-! ### Acknowledgements (R2, R196, R198) -/

theorem ackReceive_ack {s : State} {pkt ref : Nat} {p : Packet} {fail : Option Failure} (harr : arriving s pkt = some p)
    (hcore : epCore p.dst < 1028) (hbody : p.body = .ack ref fail) :
    ackReceive s pkt = some (ackThread (s.dropPacket pkt) (epCore p.dst) p.uid ref fail) := by
  simp only [ackReceive, harr, hbody, hcore, decide_true, if_true]

theorem ackThread_settles {s : State} {c uid ref core slot : Nat} {fail : Option Failure} (hwait : awaiter s uid ref = none)
    (hwhere : s.where? uid = some (core, slot)) : ackThread s c uid ref fail = s.modThread core slot fun u => { u with
      sends := (settleSend u.sends u.frec u.fraddr ref fail).1
      frec := (settleSend u.sends u.frec u.fraddr ref fail).2.1
      fraddr := (settleSend u.sends u.frec u.fraddr ref fail).2.2 } := by
  simp only [ackThread, hwait, hwhere]

theorem ackReceive_reply {s : State} {pkt ref : Nat} {p : Packet} {v : Word} (harr : arriving s pkt = some p)
    (hcore : epCore p.dst < 1028) (hbody : p.body = .reply ref v none) (hbad : p.bad = [])
    (hqueued : queuedResult s p.uid ref = false) :
    ackReceive s pkt = some (answered (s.dropPacket pkt) p.uid ref v none p.addr) := by
  simp [ackReceive, harr, hbody, hcore, hbad, hqueued]

theorem answered_completes {s : State} {uid ref core slot : Nat} {t : Thread} {r : Resume} (v addr : Word)
    (hwait : awaiter s uid ref = some (core, slot, t, r)) :
    answered s uid ref v none addr = completeLong s core slot r v := by
  simp only [answered, hwait]

theorem ackReceive_nowhere {s : State} {pkt ref : Nat} {p : Packet} {fail : Option Failure} (harr : arriving s pkt = some p)
    (hcore : 1028 ≤ epCore p.dst) (hfront : epCore p.dst < 1536 ∨ 1600 ≤ epCore p.dst) (hbody : p.body = .ack ref fail) :
    ackReceive s pkt = some (s.dropPacket pkt) := by
  have hnot : ¬ epCore p.dst < 1028 := Nat.not_lt.mpr hcore
  have hno : frontOf (epCore p.dst) = none := by
    rw [frontOf, if_neg]
    simp only [Bool.and_eq_true, decide_eq_true_eq]
    omega
  simp only [ackReceive, harr, hbody, hnot, decide_false, Bool.false_eq_true, if_false, hno]

/-- Settles O45: each step by the function of its row. -/
theorem memoryEvents : Obligations.MemoryEvents := by
  intro s pkt p a
  refine ⟨?slice, ?walk, ?message, ?release, ?acks, ?nowhere⟩
  case slice =>
    intro hp hstage hcube hclear hrow hhigh hdram e he hvalid
    refine ⟨fun l x hl hbody hmode hx => happens_some ?_, fun hl hroom => happens_some ?_⟩
    · rw [sliceTranslate_held hp hstage hcube hclear hrow hhigh hdram he hvalid hl, useLeaf,
        resolveLeaf_held hl hmode (leafCheck_entry e _ _ _ _ 0 l.entry _ _ _ _ _ ▸ hx)]
      exact congrArg some (forward_access e hbody x _)
    · exact sliceTranslate_walks hp hstage hcube hclear hrow hhigh hdram he hvalid hl hroom
  case walk =>
    intro hp level table hstage at' hat r hr
    refine ⟨fun n hkind => happens_some ?_, fun hkind hbody => happens_some ?_⟩
    · exact walkRead_table hp hstage hat hr hkind
    · rw [walkRead_bad hp hstage hat hr hkind, repairOr_access r.2 hbody]
  case message =>
    intro harr hbody hcore hhandled hbehind hport e he
    refine ⟨fun d hop hkept => happens_some ?_, fun hkept => ⟨fun u old hstfe hstff hfeclr hbad hconfig hcheck hlock hdone => ?_,
      fun t hop hcheck => ?_, fun hop hcheck hlock hroom => ?_, fun c o hop hbad hregion hcheck hlock => ?_⟩⟩
    · rw [messagePerform_arrives harr hbody hcore hop, arriveMessage_repeated hhandled hbehind hport hkept, repeated]
    · refine happens_some ?_
      rw [messagePerform_arrives harr hbody hcore hstfe,
        arriveMessage_runs hhandled hbehind hport he hkept hcheck hlock,
        runMessage_performs hstfe hstff hfeclr hbad hconfig hdone]
    · refine happens_some ?_
      rw [messagePerform_arrives harr hbody hcore hop, arriveMessage_fails hhandled hbehind hport he hkept hcheck, failureOf]
    · refine happens_some ?_
      rw [messagePerform_arrives harr hbody hcore hop, arriveMessage_held hhandled hbehind hport he hkept hcheck hlock,
        holdMessage_room hroom]
    · refine happens_some ?_
      rw [stfeArrive_arrives harr hbody hcore hop, arriveMessage_runs hhandled hbehind hport he hkept hcheck hlock,
        runMessage_queuesStfe hop hbad hregion]
  case release =>
    intro core rest u old hheld hhandled hbody hport hkept hlock hcheck hstfe hstff hfeclr hbad hconfig hdone
    refine happens_some ?_
    rw [releaseHeld_runs hheld hhandled hbody hport hkept hlock hcheck,
      runMessage_performs hstfe hstff hfeclr hbad hconfig hdone]
  case acks =>
    intro harr hcore ref
    refine ⟨fun fail core slot t hbody hwait hwhere ht => happens_some ?_,
      fun v core slot t r hbody hbad hqueued hwait => happens_some ?_⟩
    · rw [ackReceive_ack harr hcore hbody, ackThread_settles hwait hwhere]
    · rw [ackReceive_reply harr hcore hbody hbad hqueued, answered_completes v p.addr hwait]
  case nowhere =>
    intro harr hcore hfront ref fail hbody
    exact happens_some (ackReceive_nowhere harr hcore hfront hbody)

end Sys2Proof.Machine
end

section
/-! PROOFS. Steps of copies, row commands, streams and bank-dot units (spec/06 R147, R169-R185; spec/15 R332, R345). -/

namespace Sys2Proof.Machine

/-! ### Registration home after home (R147) -/

theorem registerStep_all {s : State} {ls : List (Nat × RangeLock)} {homes : List Nat} (h : nextHome ls homes = none) :
    registerStep s ls homes = .all := by
  simp only [registerStep, h]

theorem registerStep_more {s : State} {ls : List (Nat × RangeLock)} {homes : List Nat} {h : Nat} {k : CoreSt}
    (hnext : nextHome ls homes = some h)
    (hreg : registerAll (s.core h) ((ls.filter fun l => l.1 == h).map (·.2)) = some k) :
    registerStep s ls homes = .more h (nextHome ls (homes ++ [h])).isNone (s.setCore h k) := by
  simp only [registerStep, hnext, hreg]

/-! ### Copies (R147, R176, R177, R332) -/

theorem CopyOp.stop_register {op : CopyOp} (h : op.phase = .register) (f : Failure) :
    op.stop f = { op with phase := .faulted f.cause f.detail f.addr op.entry false } := by
  simp only [CopyOp.stop, h]

theorem registerNext_ofCore {core : Nat} (s : State) (id : Nat) (h : core ≠ slicePort) :
    registerNext s core id = registerCopy s core id := by
  simp [registerNext, h]

theorem performRow_ofCore {core : Nat} (s : State) (id : Nat) (h : core ≠ slicePort) :
    performRow s core id = performCopyRow s core id := by
  simp [performRow, h]

section
variable {s : State} {core id : Nat} {op : CopyOp} (hop : s.copyOp? core id = some op)
include hop

section
variable (hphase : op.phase = .register) {v : State}
include hphase

theorem registerCopy_faults {t : TrapRec} (hlocks : chunkLocks s core id op = (.error t, v)) :
    registerCopy s core id =
      some (v.setCopyOp core id { op with phase := .faulted t.cause t.detail t.xaddr op.entry false }) := by
  simp only [registerCopy, hop, hphase, bne_self_eq_false, Bool.false_eq_true, if_false, hlocks, CopyOp.stop_register hphase,
    failureOf]

variable {ls : List (Nat × RangeLock)} (hlocks : chunkLocks s core id op = (.ok ls, v))
include hlocks

theorem registerCopy_begins (hnext : nextHome ls op.homes = none) :
    registerCopy s core id = some (beginChunk v core id op) := by
  simp only [registerCopy, hop, hphase, bne_self_eq_false, Bool.false_eq_true, if_false, hlocks, registerStep_all hnext]

variable {h : Nat} {k : CoreSt} (hnext : nextHome ls op.homes = some h)
  (hreg : registerAll (v.core h) ((ls.filter fun l => l.1 == h).map (·.2)) = some k)
include hnext hreg

theorem registerCopy_more (hlast : nextHome ls (op.homes ++ [h]) ≠ none) :
    registerCopy s core id = some ((v.setCore h k).setCopyOp core id { op with homes := op.homes ++ [h] }) := by
  simp only [registerCopy, hop, hphase, bne_self_eq_false, Bool.false_eq_true, if_false, hlocks,
    registerStep_more hnext hreg, Option.isNone_eq_false_iff.mpr (Option.isSome_iff_ne_none.mpr hlast)]

theorem registerCopy_last (hlast : nextHome ls (op.homes ++ [h]) = none) :
    registerCopy s core id = some (beginChunk (v.setCore h k) core id { op with homes := op.homes ++ [h] }) := by
  simp only [registerCopy, hop, hphase, bne_self_eq_false, Bool.false_eq_true, if_false, hlocks,
    registerStep_more hnext hreg, hlast, Option.isNone_none, if_true]

end

theorem completeCopy_posts {code : Nat} (hphase : op.phase = .done code) (hstuck : ∀ p ∈ op.flying, p ∈ op.stuck)
    (hkind : op.kind ≤ 3 ∨ code ≠ 0) : completeCopy s core id = some (postCopy s core id op code) := by
  have hall : (op.flying.all fun p => op.stuck.contains p) = true := by
    simpa only [List.all_eq_true, List.contains_iff_mem] using hstuck
  have hposts : (decide (op.kind ≤ 3) || code != 0) = true := by simpa using hkind
  simp only [completeCopy, hop, hphase, hall, hposts, Bool.and_self, if_true]

theorem faultCopy_tells {cause detail entry : Nat} {addr : Word} (hphase : op.phase = .faulted cause detail addr entry false) :
    faultCopy s core id = some (engineFault (s.setCopyOp core id
      { op with phase := .faulted cause detail addr entry true }) core 1 op.dom op.task ⟨cause, detail, addr⟩
      (resumeAddr s core entry)) := by
  simp only [faultCopy, hop, hphase]

section
variable {cause detail entry : Nat} {addr : Word} (hphase : op.phase = .faulted cause detail addr entry true)
include hphase

theorem resumeCopy_registers (hflying : op.flying = []) :
    resumeCopy s core id = some (s.setCopyOp core id { op with phase := .register }) := by
  simp only [resumeCopy, hop, hphase, hflying, List.isEmpty_nil, if_true]

theorem resumeCopy_sends (hflying : op.flying ≠ []) (hkind : op.kind ≤ 3) :
    resumeCopy s core id =
      some (sendReads (s.setCopyOp core id { op with phase := .moving, stuck := [] }) core id op op.stuck) := by
  have hsome : op.flying.isEmpty = false := by simpa using hflying
  have hcopy : ¬ 4 ≤ op.kind := by omega
  simp only [resumeCopy, hop, hphase, hsome, Bool.false_eq_true, if_false, hcopy]

theorem abandonCopy_done : abandonCopy s core id = some (s.setCopyOp core id { op with phase := .done 1 }) := by
  simp only [abandonCopy, hop, hphase]

end

/-! ### Row commands (R183-R185) -/

theorem performCopyRow_writes {v : State} {array : Bool} (hkind : 3 < op.kind) (hphase : op.phase = .moving)
    (hflying : op.flying = []) (hrow : writeRow s core op.dom op.priv op.kind op.src op.dst = (.ok array, v)) :
    performCopyRow s core id = some (v.setCopyOp core id { op with path := !array, words := 256, phase := .done 0 }) := by
  have hready : (decide (op.kind ≤ 3) || op.phase != .moving || !op.flying.isEmpty) = false := by
    simp [Nat.not_le.mpr hkind, hphase, hflying]
  simp only [performCopyRow, hop, hready, Bool.false_eq_true, if_false, hrow]

theorem completeRow_posts (hkind : 3 < op.kind) (hphase : op.phase = .done 0) (hroom : mailRoom (s.core core) op.group = true) :
    completeRow s core id = some (postCopy (s.modCore core fun k => addMail k op.group op.tag 256) core id op 0) := by
  have hready : (decide (op.kind ≤ 3) || op.phase != .done 0 || !mailRoom (s.core core) op.group) = false := by
    simp [Nat.not_le.mpr hkind, hphase, hroom]
  simp only [completeRow, hop, hready, Bool.false_eq_true, if_false]

end

theorem writeRow_zeroes {s v : State} {core dom src dst : Nat} {priv : Bool} {to' : List (Xl × Nat)}
    (hdst : rowLines core dom priv dst true (List.range 64) s = (.ok to', v)) :
    writeRow s core dom priv 5 src dst =
      (.ok false, to'.foldl (fun u y => u.setDramLine (y.1.pa / 32) y.1.key 0 0) (prepareRow v [] to')) := by
  simp [writeRow, hdst]

theorem writeRow_copies {s v w : State} {core dom src dst : Nat} {priv : Bool} {from' to' : List (Xl × Nat)} {x y : Xl × Nat}
    (hsrc : rowLines core dom priv src false (List.range 64) s = (.ok from', v))
    (hdst : rowLines core dom priv dst true (List.range 64) v = (.ok to', w)) (hx : from'.head? = some x)
    (hy : to'.head? = some y) {array : Bool}
    (harray : array = (sameArray x.1.pa y.1.pa && x.1.elided.isNone && x.1.key == y.1.key)) :
    writeRow s core dom priv 4 src dst = (.ok array, (from'.zip to').foldl (fun u z => if array then
      cloneLine u (z.1.1.pa / 32) (z.2.1.pa / 32) else bufferLine u z.1.1 z.2.1) (prepareRow w from' to')) := by
  subst harray
  simp [writeRow, hsrc, hdst, hx, hy]

/-! ### Engine packets at their homes (R175, R279, R345) -/

section
variable {s : State} {pkt : Nat} {p : Packet} {g : EngineTag} {q : Piece} (harr : arriving s pkt = some p)
  (hcore : epCore p.dst < 1028) (hhandled : handledAt s (epCore p.dst) p = true)
include harr hcore hhandled

theorem engineReadHere_reads (hbody : p.body = .engineRead g q) {r : List Byte × List Bool} {u : State}
    (hread : readPiece (s.useSpace (epCore p.dst) p.dom) (epCore p.dst) p g q.len = some (.ok (r, u))) :
    engineReadHere s pkt = some (engineAnswer (settlePiece ((u.dropPacket pkt).countPacket p (epCore p.dst))
      (epCore p.dst) g false q) p g (.engineData g q r.1 r.2)) := by
  simp [engineReadHere, harr, hbody, Nat.not_le.mpr hcore, hhandled, hread]

theorem engineReadHere_fails (hbody : p.body = .engineRead g q) {t : TrapRec}
    (hread : readPiece (s.useSpace (epCore p.dst) p.dom) (epCore p.dst) p g q.len = some (.error t)) :
    engineReadHere s pkt = some (engineAnswer ((s.dropPacket pkt).countPacket p (epCore p.dst)) p g
      (.engineAck g q 0 1 (some (failureOf { t with xaddr := p.addr })))) := by
  simp [engineReadHere, harr, hbody, Nat.not_le.mpr hcore, hhandled, hread]

variable {data : List Byte} {bad : List Bool} (hbody : p.body = .landed g q data bad) {c o : Nat}
  (hregion : regionOf (eaOff p.addr) = .lstore c o)
include hbody hregion

theorem landPacket_lstore : landPacket s pkt = landLocal s (epCore p.dst) p g q 0 o data bad := by
  simp [landPacket, harr, hbody, Nat.not_le.mpr hcore, hhandled, hregion]

end

theorem landLocal_drops {s : State} {c store o : Nat} {p : Packet} {g : EngineTag} {q : Piece} {data : List Byte} {bad : List Bool}
    (hkey : p.key ≠ (s.core c).owner) : landLocal s c p g q store o data bad =
      some (engineAnswer (settlePiece ((s.dropPacket p.id).countPacket p c) c g true q) p g (.engineAck g q 0 2 none)) := by
  simp [landLocal, hkey]

theorem landLocal_writes {s : State} {c store o : Nat} {p : Packet} {g : EngineTag} {q : Piece} {data : List Byte} {bad : List Bool}
    (hkey : p.key = (s.core c).owner) (hcount : g.count = false)
    (hfree : engineConflict (s.core c) (freeOwner s g) true [⟨store, o, q.len⟩] = false) :
    landLocal s c p g q store o data bad = some (engineAnswer (settlePiece (((s.setCore c
      (landStore (s.core c) store o data bad)).dropPacket p.id).countPacket p c) c g true q) p g
      (.engineAck g q (q.len / 8) 0 none)) := by
  simp [landLocal, hkey, hcount, hfree]

end Sys2Proof.Machine
end

section
/-! PROOFS. Streams and bank-dot units, and the events of copies (spec/06 R147, R169, R170, R180-R182). -/

namespace Sys2Proof.Machine

/-! ### Streams (R169, R170) -/

/-- A strip of a source stream as it is being fetched: its pieces, the homes that hold its locks, and whether it is asked for. -/
def begunStrip (core slot v : Nat) (st : Stream) (ps : List Piece) (e : State) (homes : List Nat) (asked : Bool) : State :=
  modStream e core slot v st.op fun x => { x with coming := ps.map fun p => (p, none), homes := homes, asked := asked }

section
variable {s u : State} {core slot v : Nat} {t : Thread} {st : Stream} {ps : List Piece}
  (ht : s.thread? core slot = some t) (hst : t.stream? v = some st) (hps : nextStrip st = some ps)
include ht hst hps

theorem fetchStrip_stops {x : TrapRec} (hlocks : pieceLocks (.stream st.op) st.dom st.priv core true false ps [] s = (.error x, u)) :
    fetchStrip s core slot v = some (stopStrip (begunStrip core slot v st ps u st.homes false) core slot v st.op none (failureOf x)) := by
  simp only [fetchStrip, ht, hst, hps, hlocks, begunStrip]

variable {ls : List (Nat × RangeLock)} (hlocks : pieceLocks (.stream st.op) st.dom st.priv core true false ps [] s = (.ok ls, u))
include hlocks

theorem fetchStrip_asks (hnext : nextHome ls st.homes = none) :
    fetchStrip s core slot v = some (askStrip (begunStrip core slot v st ps u st.homes true) core slot v t st ps) := by
  simp only [fetchStrip, ht, hst, hps, hlocks, registerStep_all hnext, begunStrip]

variable {h : Nat} {k : CoreSt} (hnext : nextHome ls st.homes = some h)
  (hreg : registerAll (u.core h) ((ls.filter fun l => l.1 == h).map (·.2)) = some k)
include hnext hreg

theorem fetchStrip_more (hlast : nextHome ls (st.homes ++ [h]) ≠ none) :
    fetchStrip s core slot v = some (begunStrip core slot v st ps (u.setCore h k) (st.homes ++ [h]) false) := by
  simp only [fetchStrip, ht, hst, hps, hlocks, registerStep_more hnext hreg,
    Option.isNone_eq_false_iff.mpr (Option.isSome_iff_ne_none.mpr hlast), Bool.false_eq_true, if_false, begunStrip]

theorem fetchStrip_last (hlast : nextHome ls (st.homes ++ [h]) = none) : fetchStrip s core slot v =
    some (askStrip (begunStrip core slot v st ps (u.setCore h k) (st.homes ++ [h]) true) core slot v t st ps) := by
  simp only [fetchStrip, ht, hst, hps, hlocks, registerStep_more hnext hreg, hlast, Option.isNone_none, if_true, begunStrip]

end

/-- A strip of a sink stream as it is sent: its pieces are under way. -/
def sentStrip (core : Nat) (q : SinkStrip) (ps : List Piece) (v : State) : State :=
  sendSink (modSink v core q.id fun x => { x with flying := some ps }) core q q.id ps

section
variable {s e u : State} {core : Nat} {q0 q : SinkStrip} {ps : List Piece} (hsink : nextSink s core [] (s.core core).sinkq = some q0)
  (hbegin : beginSink s core q0 = (q, e)) (hps : ps = stripPieces q.addr)
include hsink hbegin hps

theorem writeStrip_stops {x : TrapRec} (hlocks : pieceLocks (.stream q.id) q.dom q.priv core false true ps [] e = (.error x, u)) :
    writeStrip s core = some (stopSink u core q.id none (failureOf x)) := by
  subst hps
  simp only [writeStrip, hsink, hbegin, hlocks]

variable {ls : List (Nat × RangeLock)} (hlocks : pieceLocks (.stream q.id) q.dom q.priv core false true ps [] e = (.ok ls, u))
include hlocks

theorem writeStrip_sends (hnext : nextHome ls q.homes = none) : writeStrip s core = some (sentStrip core q ps u) := by
  subst hps
  simp only [writeStrip, hsink, hbegin, hlocks, registerStep_all hnext, sentStrip]

variable {h : Nat} {k : CoreSt} (hnext : nextHome ls q.homes = some h)
  (hreg : registerAll (u.core h) ((ls.filter fun l => l.1 == h).map (·.2)) = some k)
include hnext hreg

theorem writeStrip_more (hlast : nextHome ls (q.homes ++ [h]) ≠ none) :
    writeStrip s core = some (modSink (u.setCore h k) core q.id fun x => { x with homes := x.homes ++ [h] }) := by
  subst hps
  simp only [writeStrip, hsink, hbegin, hlocks, registerStep_more hnext hreg,
    Option.isNone_eq_false_iff.mpr (Option.isSome_iff_ne_none.mpr hlast), Bool.false_eq_true, if_false]

theorem writeStrip_last (hlast : nextHome ls (q.homes ++ [h]) = none) :
    writeStrip s core = some (sentStrip core q ps
      (modSink (u.setCore h k) core q.id fun x => { x with homes := x.homes ++ [h] })) := by
  subst hps
  simp only [writeStrip, hsink, hbegin, hlocks, registerStep_more hnext hreg, hlast, Option.isNone_none, if_true, sentStrip]

end

/-- R147, R169, R170, R175, R176, R177, R185 (spec/06), R332, R345 (spec/15): copies, row commands and streams. -/
theorem claim_copyEvents : Claim.CopyEvents := by
  intro s core id
  refine ⟨fun op hop hcore => ⟨?more, ?begins, ?faults, ?done, ?tells, ?resumes, ?zeroes, ?copies, ?posts⟩,
    fun pkt p g q harr hhome hhandled => ⟨?reads, ?readFails, ?lands⟩, ?fetch, ?send⟩
  case more =>
    intro v ls h k hphase hlocks hnext hreg o ho
    subst ho
    refine ⟨fun hlast => happens_some ?_, fun hlast => happens_some ?_⟩
    · rw [registerNext_ofCore s id hcore, registerCopy_more hop hphase hlocks hnext hreg hlast]
    · rw [registerNext_ofCore s id hcore, registerCopy_last hop hphase hlocks hnext hreg hlast]
  case begins =>
    intro v ls hphase hlocks hnext
    exact happens_some (by rw [registerNext_ofCore s id hcore, registerCopy_begins hop hphase hlocks hnext])
  case faults =>
    intro v t hphase hlocks
    exact happens_some (by rw [registerNext_ofCore s id hcore, registerCopy_faults hop hphase hlocks])
  case done =>
    intro code hphase hstuck hkind
    exact happens_some (completeCopy_posts hop hphase hstuck hkind)
  case tells =>
    intro cause detail addr entry hphase
    exact happens_some (faultCopy_tells hop hphase)
  case resumes =>
    intro cause detail addr entry hphase
    exact ⟨fun hflying => happens_some (resumeCopy_registers hop hphase hflying),
      fun hflying hkind => happens_some (resumeCopy_sends hop hphase hflying hkind), happens_some (abandonCopy_done hop hphase)⟩
  case zeroes =>
    intro v dst hkind hphase hflying hdst
    refine ⟨true, happens_some ?_⟩
    rw [performRow_ofCore s id hcore,
      performCopyRow_writes hop (by omega) hphase hflying (by rw [hkind]; exact writeRow_zeroes hdst)]
    rfl
  case copies =>
    intro v w src dst x y hkind hphase hflying hsrc hdst hx hy inArray harray
    refine happens_some ?_
    rw [performRow_ofCore s id hcore, performCopyRow_writes hop (by omega) hphase hflying
      (by rw [hkind]; exact writeRow_copies hsrc hdst hx hy harray)]
  case posts =>
    intro hkind hphase hroom
    exact happens_some (completeRow_posts hop hkind hphase hroom)
  case reads =>
    intro r u hbody hread
    exact happens_some (engineReadHere_reads harr hhome hhandled hbody hread)
  case readFails =>
    intro t hbody hread
    exact happens_some (engineReadHere_fails harr hhome hhandled hbody hread)
  case lands =>
    intro c o data bad hbody hregion
    refine ⟨fun hkey => happens_some ?_, fun hkey hcount hfree => happens_some ?_⟩
    · rw [landPacket_lstore harr hhome hhandled hbody hregion, landLocal_drops hkey]
    · rw [landPacket_lstore harr hhome hhandled hbody hregion, landLocal_writes hkey hcount hfree]
  case fetch =>
    intro slot v t l st ps u ht hl hget hps begun hbegun
    have hst : t.stream? v = some st := by rw [Thread.stream?, hl]; exact hget
    subst hbegun
    refine ⟨fun x hlocks => happens_some (fetchStrip_stops ht hst hps hlocks), fun ls hlocks =>
      ⟨fun hnext => happens_some (fetchStrip_asks ht hst hps hlocks hnext), fun h k hnext hreg =>
        ⟨fun hlast => happens_some (fetchStrip_more ht hst hps hlocks hnext hreg hlast),
          fun hlast => happens_some (fetchStrip_last ht hst hps hlocks hnext hreg hlast)⟩⟩⟩
  case send =>
    intro q0 q e u hsink hbegin ps hps sent hsent
    subst hsent
    refine ⟨fun x hlocks => happens_some (writeStrip_stops hsink hbegin hps hlocks), fun ls hlocks =>
      ⟨fun hnext => happens_some (writeStrip_sends hsink hbegin hps hlocks hnext), fun h k v hnext hreg hv => ?_⟩⟩
    subst hv
    exact ⟨fun hlast => happens_some (writeStrip_more hsink hbegin hps hlocks hnext hreg hlast),
      fun hlast => happens_some (writeStrip_last hsink hbegin hps hlocks hnext hreg hlast)⟩

/-! ### Bank-dot units (R180-R182) -/

/-- A packet that arrives is at its home, so no request that waits for its lock. -/
theorem arriving_stage {s : State} {pkt : Nat} {p : Packet} (h : arriving s pkt = some p) :
    s.packet? pkt = some p ∧ p.stage = .home := by
  unfold arriving at h
  cases hp : s.packet? pkt with
  | none => simp [hp] at h
  | some q =>
    simp only [hp] at h
    split at h
    · next hready =>
      cases h
      simp only [Bool.and_eq_true, beq_iff_eq] at hready
      exact ⟨rfl, hready.1.1.1⟩
    · cases h

theorem bankDot_locks {s : State} {pkt : Nat} {p : Packet} (harr : arriving s pkt = some p) :
    bankDot s pkt = bankDotLock s pkt := by
  obtain ⟨hp, hstage⟩ := arriving_stage harr
  simp only [bankDot, bankDotRead, hp, hstage]

section
variable {s e : State} {pkt ticket : Nat} {p : Packet} {cfg : Word} {vec : List Byte} {n bad : Bool} {x : Xl}
  (harr : arriving s pkt = some p) (hbody : p.body = .bdot cfg vec ticket n bad) (hxl : p.xl = some x)
  (hcore : epCore p.dst < 1028) (he : e = s.countPacket p (epCore p.dst))
include harr hbody hxl hcore he

theorem bankDotLock_misplaced (hrun : bdBad cfg x.pa = true) :
    bankDotLock s pkt = some (bdotDone e p (epCore p.dst) ticket (bdFailure 4)) := by
  subst he
  simp [bankDotLock, harr, hbody, hxl, Nat.not_le.mpr hcore, hrun]

variable (hrun : bdBad cfg x.pa = false) (helided : x.elided = none)
include hrun helided

theorem bankDotLock_unpinned (hpin : x.pinned = false) :
    bankDotLock s pkt = some (bdotDone e p (epCore p.dst) ticket (bdFailure 3)) := by
  subst he
  simp [bankDotLock, harr, hbody, hxl, Nat.not_le.mpr hcore, hrun, helided, hpin]

theorem bankDotLock_registers (hpin : x.pinned = true) {u : State}
    (hu : u = ((bdReads cfg x.pa).map fun r => r.1 / 32).foldl (fun v l => cleanLine v (epCore p.dst) l) e) {k : CoreSt}
    (hlock : registerLock (u.core (epCore p.dst)) ⟨.packet pkt, false, [⟨2, x.pa, bdRun cfg⟩], []⟩ = some k) :
    bankDotLock s pkt = some ((u.setCore (epCore p.dst) k).modPacket pkt fun q => { q with stage := .queued }) := by
  subst hu he
  have hin : ¬ 1028 ≤ epCore p.dst := Nat.not_le.mpr hcore
  simp only [bankDotLock, harr, hbody, hxl, hin, hrun, helided, hpin, if_false, Bool.false_eq_true, Option.isSome_none,
    Bool.not_true, hlock]

end

/-- A run without poison gives its dot product and exceptions (R180). -/
theorem bdResult_clean {s : State} {cfg : Word} {x : Xl} (vec : List Byte) (h : ∀ r ∈ bdReads cfg x.pa, bdPoison s x r.1 = false) :
    bdResult s cfg x vec false = word ((bdDot s cfg x vec).2.toNat * 2 ^ 59 + (bdDot s cfg x vec).1) := by
  have hclean : ((bdReads cfg x.pa).any fun r => bdPoison s x r.1) = false :=
    List.any_eq_false.mpr fun r hr => by simp [h r hr]
  simp only [bdResult, hclean, Bool.or_self, Bool.false_eq_true, if_false]

theorem bankDot_computes {s : State} {pkt ticket : Nat} {p : Packet} {cfg : Word} {vec : List Byte} {n : Bool} {x : Xl}
    (hp : s.packet? pkt = some p) (hstage : p.stage = .queued) (hbody : p.body = .bdot cfg vec ticket n false)
    (hxl : p.xl = some x) (hbad : p.bad = []) (hcolumn : failedColumn s x.pa = false)
    (hclean : ∀ r ∈ bdReads cfg x.pa, bdPoison s x r.1 = false) :
    bankDot s pkt = some (bdotDone (grantColumn s x.pa) p (epCore p.dst) ticket
      (word ((bdDot s cfg x vec).2.toNat * 2 ^ 59 + (bdDot s cfg x vec).1))) := by
  simp only [bankDot, bankDotRead, hp, hstage, hbody, hxl, hbad, hcolumn, List.isEmpty_nil, Bool.not_true, Bool.or_self,
    bdResult_clean vec hclean]

/-- A reply to a thread's outstanding request of a ticket (R181). -/
theorem deliverResult_enters {s : State} {core slot ticket : Nat} {t : Thread} {p : Packet} {v : Word}
    (ht : s.thread? core slot = some t) (hnext : (t.q3.find? fun e => e.2.isNone).map (·.1) = some ticket)
    (hp : (s.net.find? fun q => q.uid == t.uid && (match q.body with | .reply r _ _ => r == ticket | _ => false)) = some p)
    (harr : arriving s p.id = some p) (hbody : p.body = .reply ticket v none) (hbad : p.bad = []) :
    deliverResult s core slot = some ((s.dropPacket p.id).setThread core slot
      { t with q3 := t.q3.map fun e => if e.1 == ticket then (e.1, some v) else e }) := by
  unfold deliverResult
  simp only [ht, nextResult, hnext]
  erw [hp]
  simp [harr, hbody, hbad]

/-- R180, R181, R182 (spec/06): bank-dot requests at their homes, and the results of q3. -/
theorem claim_bankDotEvents : Claim.BankDotEvents := by
  intro s pkt p
  refine ⟨?locks, ?computes, ?delivers⟩
  case locks =>
    intro cfg vec ticket n bad x harr hbody hxl hcore e he
    refine ⟨fun hrun => happens_some ?_, fun hrun helided hpin => happens_some ?_,
      fun hrun helided hpin u hu k hlock => happens_some ?_⟩
    · rw [bankDot_locks harr, bankDotLock_misplaced harr hbody hxl hcore he hrun]
    · rw [bankDot_locks harr, bankDotLock_unpinned harr hbody hxl hcore he hrun helided hpin]
    · rw [bankDot_locks harr, bankDotLock_registers harr hbody hxl hcore he hrun helided hpin hu hlock]
  case computes =>
    intro cfg vec ticket n bad x hp hstage hbody hxl hgood hbad hcolumn hclean
    subst hgood
    exact happens_some (bankDot_computes hp hstage hbody hxl hbad hcolumn hclean)
  case delivers =>
    intro core slot t ticket v ht hnext hp harr hbody hbad
    exact happens_some (deliverResult_enters ht hnext hp harr hbody hbad)

/-- Settles O46, from `claim_copyEvents` and `claim_bankDotEvents`. -/
theorem copyAndBankDotEvents : Obligations.CopyAndBankDotEvents := ⟨claim_copyEvents, claim_bankDotEvents⟩

end Sys2Proof.Machine
end

section
/-! PROOFS. Steps of a matrix slice and of folios (spec/06 R150-R167). -/

namespace Sys2Proof.Machine

/-! ### The head of a slice's order -/

theorem headCmd_of {s : State} {core : Nat} {m : MCmd} {rest : List MCmd} (h : (s.core core).slice.order = m :: rest) :
    headCmd s core = some m := by
  rw [headCmd, h, List.head?_cons]

/-- A core is one of its quire (R163). -/
theorem mem_quireCores (core : Nat) : core ∈ quireCores core := by
  refine List.mem_map.mpr ⟨core % 16, List.mem_range.mpr (Nat.mod_lt _ (by decide)), ?_⟩
  simp only [quireOf]
  omega

section
variable {s : State} {core : Nat} {m : MCmd} (hm : headCmd s core = some m)
include hm

theorem changeMode_sets {mode : Nat} (hkind : m.kind = .mcfg mode) (hcore : core < 1024) (hstop : cmdStopped s core m = false) :
    changeMode s core = some (s.modCore core fun k =>
      { k with slice := { k.slice with mode := mode, order := k.slice.order.drop 1 } }) := by
  simp only [changeMode, hm, hkind, hstop, Bool.false_eq_true, if_false, Nat.not_le.mpr hcore]

/-! ### The start of a command (R153-R155, R157) -/

section
variable (hcore : core < 1024) (hphase : m.phase = .queued) (hstop : cmdStopped s core m = false)
include hcore hphase hstop

omit hcore in
theorem startCommand_alone (hjoin : joins m = false) : startCommand s core = beginHead s core := by
  simp [startCommand, hm, hphase, hstop, hjoin]

theorem startCommand_gang (hjoin : joins m = true) : startCommand s core = beginGang s core m := by
  simp [startCommand, hm, hphase, hstop, hjoin, hcore]

end

section
variable (hcore : core < 1024) (hkind : m.kind = .words)
include hcore hkind

theorem beginHead_compute (hcmd : cmdKind m.w0 = 1) (herr : computeErr (s.core core) m = none) :
    beginHead s core = beginCompute s core m := by
  simp [beginHead, hm, hkind, Nat.not_le.mpr hcore, hcmd, herr]

theorem beginHead_computeFails (hcmd : cmdKind m.w0 = 1) {code : Nat} (herr : computeErr (s.core core) m = some code) :
    beginHead s core = some (setHead s core { m with phase := .finished code }) := by
  simp [beginHead, hm, hkind, Nat.not_le.mpr hcore, hcmd, herr]

theorem beginHead_acc (hcmd : cmdKind m.w0 ≠ 1) (herr : accErr (s.core core) m = none) :
    beginHead s core = runAcc s core m := by
  simp [beginHead, hm, hkind, Nat.not_le.mpr hcore, hcmd, herr]

theorem beginHead_accFails (hcmd : cmdKind m.w0 ≠ 1) {code : Nat} (herr : accErr (s.core core) m = some code) :
    beginHead s core = some (setHead s core { m with phase := .finished code }) := by
  simp [beginHead, hm, hkind, Nat.not_le.mpr hcore, hcmd, herr]

end
end

theorem beginCompute_runs {s : State} {core : Nat} {m : MCmd} {k : CoreSt} (hlock : registerLock (s.core core)
      ⟨.matrix core, false, (computeSpans m.w0 m.w1).1 ++ (computeSpans m.w0 m.w1).2, []⟩ = some k)
    (hleft : m.kdone < cmdNkb m.w0) :
    beginCompute s core m = some (setHead (s.setCore core k) core { m with phase := .running }) := by
  simp only [beginCompute, lockOwn, hlock, Nat.not_le.mpr hleft, if_false]

theorem runAcc_performs {s : State} {core : Nat} {m : MCmd} {k : CoreSt}
    (hlock : (if cmdKind m.w0 = 2 then some (s.core core)
      else registerLock (s.core core) ⟨.matrix core, cmdKind m.w0 == 4, [accSpan m.w0], []⟩) = some k) :
    runAcc s core m = some (setHead (s.setCore core (accPerform k m).1) core
      { m with flags := (accPerform k m).2.1, phase := .finished (accPerform k m).2.2 }) := by
  simp only [runAcc, lockOwn, beq_iff_eq, hlock]

section
variable {s : State} {core : Nat} {m : MCmd} (hall : gangPresent s core m = true)
  (hstop : ∀ c ∈ quireCores core, ∀ h, headCmd s c = some h → cmdStopped s c h = false)
  {digest : Nat → Option (Nat × Nat)} (hdigest : digest = fun c => (headCmd s c).map (gangDigest (s.core c)))
include hall hstop

/-- A gang whose members are present and not stopped waits for nothing else. -/
theorem gang_ready :
    (!gangPresent s core m || (quireCores core).any fun c => (headCmd s c).any (cmdStopped s c)) = false := by
  have hnone : ((quireCores core).any fun c => (headCmd s c).any (cmdStopped s c)) = false :=
    List.any_eq_false.mpr fun c hc => by
      cases hh : headCmd s c with
      | none => simp
      | some h => simp [hstop c hc h hh]
  rw [hall, hnone]
  rfl

include hdigest

theorem beginGang_starts {u : State} (hsame : ∀ c ∈ quireCores core, digest c = digest core)
    (hbegin : (quireCores core).foldlM beginHead s = some u) : beginGang s core m = some u := by
  have heq : ((quireCores core).all fun c => digest c == digest core) = true :=
    List.all_eq_true.mpr fun c hc => by simp [hsame c hc]
  subst hdigest
  unfold beginGang
  simp only [gang_ready hall hstop, Bool.false_eq_true, if_false, heq, if_true, hbegin]

theorem beginGang_refuses (hdiffer : ∃ c ∈ quireCores core, digest c ≠ digest core) :
    beginGang s core m = some ((quireCores core).foldl (fun u c => match headCmd u c with
      | some h => setHead u c { h with phase := .finished 3 }
      | none => u) s) := by
  have hne : ((quireCores core).all fun c => digest c == digest core) = false := by
    obtain ⟨c, hc, hd⟩ := hdiffer
    exact List.all_eq_false.mpr ⟨c, hc, by simpa using hd⟩
  subst hdigest
  refine (if_neg ?_).trans (if_neg ?_)
  · rw [gang_ready hall hstop]
    exact Bool.false_ne_true
  · rw [hne]
    exact Bool.false_ne_true

end

section
variable {s : State} {core : Nat} {m : MCmd} (hm : headCmd s core = some m)
include hm

theorem gangJoin_arrives (hcore : core < 1024) (hphase : m.phase = .queued) (hjoin : joins m = true) (harr : m.arrived = none)
    (hstop : cmdStopped s core m = false) :
    gangJoin s core = some (setHead s core { resumed m with arrived := some (s.core core).cyc }) := by
  simp [gangJoin, Nat.not_le.mpr hcore, hm, hphase, hjoin, harr, hstop, State.cyc]

theorem gangTimeout_ends {since : Nat} (harr : m.arrived = some since) (hphase : m.phase = .queued)
    (hlim : (s.core core).mglim ≠ 0) (hstop : cmdStopped s core m = false) (hgang : gangPresent s core m = false)
    (hlate : since + (s.core core).mglim.toNat < (s.core core).cyc) :
    gangTimeout s core = some (setHead s core { m with phase := .finished 4 }) := by
  simp only [gangTimeout, hm, harr, hphase, hstop, hgang, State.cyc, (expired_iff _ _ _).mpr ⟨hlim, hlate⟩, beq_self_eq_true,
    Bool.not_false, Bool.and_self, if_true]

/-! ### k-blocks (R152, R153, R166) -/

/-- The command of a core without a gang steps alone. -/
theorem runBlock_alone (hphase : m.phase = .running) (hgang : m.gang = none) : runBlock s core = runOne s core := by
  simp [runBlock, hm, hphase, membersOf, hgang]

theorem runBlock_gang (hphase : m.phase = .running) : runBlock s core = (membersOf s core m).foldlM runOne s := by
  simp [runBlock, hm, hphase]

section
variable (hsplit : m.split = false)
include hsplit

theorem runOne_adds (hfolio : cmdFolio m.w0 = false) (hpoison : kblockPoison (s.core core) m (stepBlocks m) = false) :
    runOne s core = some (addBlocks s core m ((stepBlocks m).map fun j => (j, none))) := by
  simp only [runOne, hm, hsplit, hfolio, hpoison, Bool.false_eq_true, if_false]

theorem runOne_poisoned (hfolio : cmdFolio m.w0 = false) (hpoison : kblockPoison (s.core core) m (stepBlocks m) = true) :
    runOne s core = some (setHead s core { m with phase := .finished 6 }) := by
  simp only [runOne, hm, hsplit, hfolio, hpoison, Bool.false_eq_true, if_false, if_true]

theorem runOne_noFolio (hfolio : cmdFolio m.w0 = true) (hsource : folioBlocks s core m (stepBlocks m).length = .none) :
    runOne s core = some (setHead s core { m with phase := .finished 7 }) := by
  simp only [runOne, hm, hsplit, hfolio, hsource, Bool.false_eq_true, if_false, if_true]

theorem runOne_consumes (hfolio : cmdFolio m.w0 = true) {bs : List (List Byte × List Nat)}
    (hsource : folioBlocks s core m (stepBlocks m).length = .blocks bs)
    (hpoison : kblockPoison (s.core core) m (stepBlocks m) = false) (hclean : ∀ b ∈ bs, ∀ i ∈ b.2, blockNeeds m.w0 ≤ 8 * i) :
    runOne s core = some (consumeBlocks (addBlocks s core m ((stepBlocks m).zip (bs.map fun b => some b.1))) core
      (stepBlocks m).length) := by
  have hblocks : bs.any (blockPoison (blockNeeds m.w0)) = false :=
    List.any_eq_false.mpr fun b hb => by
      simpa only [blockPoison, Bool.not_eq_true, List.any_eq_false, decide_eq_true_eq, Nat.not_lt] using hclean b hb
  simp only [runOne, hm, hsplit, hfolio, hsource, hpoison, hblocks, Bool.or_self, Bool.false_eq_true, if_false, if_true]

end

/-! ### Splits and statuses (R155, R159) -/

/-- What a split leaves of its core where no bookmark address is set: the locks released, the delivered blocks dropped, and the
bookmark kept in the slice. -/
def splitCore (k : CoreSt) (core : Nat) (m : MCmd) : CoreSt :=
  { releaseLocks k (.matrix core) none with
    slice := { k.slice with sub := k.slice.sub.map (fun x => { x with held := [] }), kept := some (m.uid, bookmarkOf k core m) } }

theorem splitCommand_keeps (hphase : m.phase = .running) (hsplit : m.split = true) (hbook : (s.core core).slice.bka = none) :
    splitCommand s core = some (setHead (s.setCore core (splitCore (s.core core) core m)) core
      { m with phase := .finished 1 }) := by
  simp only [splitCommand, hm, hphase, hsplit, bne_self_eq_false, Bool.not_true, Bool.or_self, Bool.false_eq_true, if_false,
    hbook, splitCore, releaseLocks]

theorem postStatus_posts {code : Nat} (hphase : m.phase = .finished code) : postStatus s core = some ((s.modCore core fun k =>
      { releaseLocks k (.matrix core) none with slice := { k.slice with order := k.slice.order.drop 1 } }).modThread
        core m.slot fun t => if t.uid == m.uid && m.kind != .badHalf then { t with q0 := t.q0 ++ [statusEntry m code] } else t) := by
  simp only [postStatus, hm, hphase]

end

/-! ### Folios (R166, R167) -/

theorem deliverBlock_delivers {s : State} {core : Nat} {x y : Subscr} {f : Folio} {o : Nat} {block : List Byte} {bad : List Nat}
    (hsub : (s.core core).slice.sub = some x) (hf : tget s.folios (x.quire * 8 + x.slot) = some f)
    (hpacked : ((headCmd s core).any fun m => m.phase == .running && cmdPacked m.w0) = false) (hroom : x.held.length < x.window)
    (hmore : x.pos + x.held.length < f.nb) (ho : o = f.base + (x.pos + x.held.length) * f.blen)
    (hblock : block = (List.range f.blen).map fun i => BitVec.ofNat 8 ((s.core f.producer).lstore.read o f.blen / 256 ^ i))
    (hbad : bad = (s.core f.producer).poison.filterMap fun w =>
      if w.1 = 0 ∧ o / 8 ≤ w.2 ∧ w.2 < (o + f.blen) / 8 then some (w.2 - o / 8) else none)
    (hy : y = { x with held := x.held ++ [(block, bad)] }) :
    deliverBlock s core = some (s.modCore core fun k => { k with slice := { k.slice with sub := some y } }) := by
  subst hy hbad hblock ho
  simp only [deliverBlock, hsub, hf, hpacked, Bool.false_eq_true, if_false, Nat.not_le.mpr hroom, Nat.not_le.mpr hmore,
    decide_false, Bool.or_self, Bool.and_eq_true, beq_iff_eq, decide_eq_true_eq, and_assoc]

theorem freeFolio_frees {s : State} {quire slot : Nat} {f : Folio} (hf : tget s.folios (quire * 8 + slot) = some f)
    (hclosed : f.closed = true) (hfree : ∀ c ∈ s.cores, ∀ x, c.2.slice.sub = some x → ¬ (x.quire = quire ∧ x.slot = slot)) :
    freeFolio s quire slot = some { s.modCore f.producer (fun k => releaseLocks k (.folio quire slot) none) with
      folios := tdel s.folios (quire * 8 + slot) } := by
  unfold freeFolio
  simp only [hf, hclosed, Bool.not_true, Bool.false_or]
  refine if_neg ?_
  rw [Bool.not_eq_true, List.any_eq_false]
  intro c hc
  cases hx : c.2.slice.sub with
  | none => simp
  | some x => simpa using hfree c hc x hx

/-- Settles O47: each step by the function of its row. -/
theorem matrixEvents : Obligations.MatrixEvents := by
  intro s core
  refine ⟨fun m rest horder => ?head, ?deliver, ?free⟩
  case head =>
    have hm := headCmd_of horder
    refine ⟨?mode, ?compute, ?gang, ?acc, ?join, ?limit, ?block, ?gangBlock, ?split, ?status⟩
    case mode =>
      intro mode hkind hcore hstop
      exact happens_some (changeMode_sets hm hkind hcore hstop)
    case compute =>
      intro hkind hcmd hcore hphase hjoin hstop
      refine ⟨fun k herr hlock hleft => happens_some ?_, fun code herr => happens_some ?_⟩
      · rw [startCommand_alone hm hphase hstop hjoin, beginHead_compute hm hcore hkind hcmd herr, beginCompute_runs hlock hleft]
      · rw [startCommand_alone hm hphase hstop hjoin, beginHead_computeFails hm hcore hkind hcmd herr]
    case gang =>
      intro hcore hphase hjoin hall hstops digest hdigest
      have hstart := startCommand_gang hm hcore hphase (hstops core (mem_quireCores core) m hm) hjoin
      refine ⟨fun hsame u hbegin => happens_some ?_, fun hdiffer => happens_some ?_⟩
      · rw [hstart, beginGang_starts hall hstops hdigest hsame hbegin]
      · exact hstart.trans (beginGang_refuses hall hstops hdigest hdiffer)
    case acc =>
      intro hkind hcmd hcore hjoin hphase hstop
      refine ⟨fun k herr hlock => happens_some ?_, fun code herr => happens_some ?_⟩
      · rw [startCommand_alone hm hphase hstop hjoin, beginHead_acc hm hcore hkind hcmd herr, runAcc_performs hlock]
      · rw [startCommand_alone hm hphase hstop hjoin, beginHead_accFails hm hcore hkind hcmd herr]
    case join =>
      intro hcore hphase hjoin harr hstop
      exact happens_some (gangJoin_arrives hm hcore hphase hjoin harr hstop)
    case limit =>
      intro since harr hphase hlim hstop hgang hlate
      exact happens_some (gangTimeout_ends hm harr hphase hlim hstop hgang hlate)
    case block =>
      intro hphase hgang hsplit
      have halone := runBlock_alone hm hphase hgang
      refine ⟨fun hfolio => ⟨fun hpoison => happens_some ?_, fun hpoison => happens_some ?_⟩,
        fun hfolio => ⟨fun hsource => happens_some ?_, fun bs hsource hpoison hclean => happens_some ?_⟩⟩
      · rw [halone, runOne_adds hm hsplit hfolio hpoison]
      · rw [halone, runOne_poisoned hm hsplit hfolio hpoison]
      · rw [halone, runOne_noFolio hm hsplit hfolio hsource]
      · rw [halone, runOne_consumes hm hsplit hfolio hsource hpoison hclean]
    case gangBlock =>
      intro hphase hgang u hrun
      exact happens_some (by rw [runBlock_gang hm hphase, hrun])
    case split =>
      intro hphase hsplit hbook
      exact ⟨splitCore (s.core core) core m, rfl, rfl, rfl, happens_some (splitCommand_keeps hm hphase hsplit hbook)⟩
    case status =>
      intro code hphase
      exact happens_some (postStatus_posts hm hphase)
  case deliver =>
    intro x f hsub hf hpacked hroom hmore o ho block hblock bad hbad y hy
    exact happens_some (deliverBlock_delivers hsub hf hpacked hroom hmore ho hblock hbad hy)
  case free =>
    intro quire slot f hf hclosed hfree
    exact happens_some (freeFolio_frees hf hclosed hfree)

end Sys2Proof.Machine
end

section
/-! PROOFS. Steps of barrier units and of ferries (spec/07 R203-R206; spec/08 R238-R245, R253). -/

namespace Sys2Proof.Machine

/-! ### Barrier units (R203, R204, R206, R253) -/

section
variable {s e : State} {pkt : Nat} {p : Packet} {b : BarName} (hunit : atUnit s pkt = some p) (he : e = s.dropPacket pkt)
include hunit he

section
variable {fl : Flags} {drop : Bool} (hbody : p.body = .barArrive b fl drop) (hcount : (s.bar b).e ≠ 0) {w : Barrier}
  (hw : w = { s.bar b with
    a := (s.bar b).a + 1, fa := (s.bar b).fa ||| fl, d := if drop then (s.bar b).d + 1 else (s.bar b).d })
include hbody hcount hw

theorem unitArrival_counts (hmore : w.a ≠ w.e) : unitArrival s pkt =
    some ((unitAnswer e p (.barAnswer b pkt (some (s.bar b).phase) none)).setBar b w) := by
  subst he hw
  have hopen : ((s.bar b).e == 0) = false := by simpa using hcount
  have hlast : ((s.bar b).a + 1 == (s.bar b).e) = false := by simpa using hmore
  simp only [unitArrival, hunit, hbody, hopen, hlast, Bool.false_eq_true, if_false]

theorem unitArrival_releases (hlast : w.a = w.e) : unitArrival s pkt =
    some (releasePhase (unitAnswer e p (.barAnswer b pkt (some (s.bar b).phase) none)) b w) := by
  subst he hw
  have hopen : ((s.bar b).e == 0) = false := by simpa using hcount
  have hall : ((s.bar b).a + 1 == (s.bar b).e) = true := by simpa using hlast
  simp only [unitArrival, hunit, hbody, hopen, hall, Bool.false_eq_true, if_false, if_true]

end

theorem unitInit_sets {n : Nat} (hbody : p.body = .barInit b n) (hnone : (s.bar b).a = 0) (hdrop : (s.bar b).d = 0) :
    unitInit s pkt = some (unitAnswer (e.setBar b { e := n }) p (.barAnswer b pkt none none)) := by
  subst he
  simp only [unitInit, hunit, hbody, hnone, hdrop, bne_self_eq_false, Bool.or_self, Bool.false_eq_true, if_false]

section
variable {low ph : BitVec 32} {short : Bool} (hbody : p.body = .barQuery b low short)
  (hph : ph = if short then wholePhase (s.bar b).phase low else low)
include hbody hph

theorem unitQuery_released {h : BitVec 32 × Flags} (hheld : ((s.bar b).history.find? fun h => h.1 == ph) = some h) :
    unitQuery s pkt = some (unitAnswer e p (.barRelease b ph h.2)) := by
  subst he hph
  simp only [unitQuery, hunit, hbody, hheld]

variable (hheld : ((s.bar b).history.find? fun h => h.1 == ph) = none)
include hheld

theorem unitQuery_waits (hahead : 0 ≤ (ph - (s.bar b).phase).toInt) (hroom : (s.bar b).waiters.length < 64) :
    unitQuery s pkt =
      some (e.setBar b { s.bar b with waiters := (s.bar b).waiters ++ [(p.src, p.uid, ph)] }) := by
  subst he hph
  simp only [unitQuery, hunit, hbody, hheld, hahead, decide_true, if_true, hroom]

theorem unitQuery_full (hahead : 0 ≤ (ph - (s.bar b).phase).toInt) (hfull : 64 ≤ (s.bar b).waiters.length) :
    unitQuery s pkt = some (unitAnswer e p (.barReply b low true)) := by
  subst he hph
  simp only [unitQuery, hunit, hbody, hheld, hahead, decide_true, if_true, Nat.not_lt.mpr hfull, if_false]

theorem unitQuery_past (hpast : (ph - (s.bar b).phase).toInt < 0) :
    unitQuery s pkt = some (unitAnswer e p (.barReply b low false)) := by
  subst he hph
  simp only [unitQuery, hunit, hbody, hheld, Int.not_le.mpr hpast, decide_false, Bool.false_eq_true, if_false]

end
end

/-! ### Cores (R204, R205, R251, R253) -/

section
variable {s : State} {pkt : Nat} {p : Packet} {b : BarName} (harr : arriving s pkt = some p)
include harr

theorem barrierAnswer_arrives {ref core slot : Nat} {n : BitVec 32} {t : Thread} {r : Resume}
    (hbody : p.body = .barAnswer b ref (some n) none) (hwait : awaiter (s.dropPacket pkt) p.uid ref = some (core, slot, t, r))
    (hrs : t.rs = false) : barrierAnswer s pkt = some (completeChain ((s.dropPacket pkt).setThread core slot
      { t with arrival := some { bar := b, phase := n, released := false, fa := 0 } }) core slot r none) := by
  simp only [barrierAnswer, harr, hbody, answerArrival, hwait, hrs, Bool.not_false, if_true]

theorem barrierAnswer_inits {ref core slot : Nat} {t : Thread} {r : Resume} (hbody : p.body = .barAnswer b ref none none)
    (hwait : awaiter (s.dropPacket pkt) p.uid ref = some (core, slot, t, r)) :
    barrierAnswer s pkt = some (completeChain (s.dropPacket pkt) core slot r none) := by
  simp only [barrierAnswer, harr, hbody, answerArrival, hwait]

/-- The waits of a core that a release may end are tried, thread by thread. -/
def tryReleased (c : Nat) (e : State) (t : Nat × Thread) : State :=
  match t.2.status with
  | .blocked (.barrierRelease _) _ => tryFinish e c t.1
  | _ => e

theorem deliverRelease_marks {n : BitVec 32} {fa : Flags} {u : State} (hbody : p.body = .barRelease b n fa)
    (hcore : epCore p.dst < 1028) (hu : u = ((s.dropPacket pkt).modCore (epCore p.dst) fun k => { k with
      threads := (k.threads.map fun t => (t.1, releaseRecord b n fa t.2)),
      rel := (if inBarScope s (epCore p.dst) b && p.uid == 0 then k.rel.filter (fun x => x.bar != b) ++ [⟨b, n, fa⟩]
        else k.rel) })) :
    deliverRelease s pkt = some ((u.core (epCore p.dst)).threads.foldl (tryReleased (epCore p.dst)) u) := by
  subst hu
  unfold deliverRelease
  simp only [harr, hbody, Nat.not_le.mpr hcore, if_false]
  rfl

end

theorem retryQuery_asks {s u : State} {core slot n : Nat} {t : Thread} {a : Arrival} (ht : s.thread? core slot = some t)
    (ha : t.arrival = some a) (hretry : a.retry = some n) (hrel : a.released = false) (hlate : n + 1024 ≤ (s.core core).cyc)
    (hu : u = s.setThread core slot { t with arrival := some { a with retry := none } }) :
    retryQuery s core slot = some (u.send (toUnit u core slot t.uid a.bar (.barQuery a.bar a.phase a.short))) := by
  subst hu
  have hready : (a.released || decide (s.cyc core < n + 1024)) = false := by
    simp only [hrel, Bool.false_or, State.cyc]
    exact decide_eq_false (Nat.not_lt.mpr hlate)
  simp only [retryQuery, ht, ha, hretry, hready, Bool.false_eq_true, if_false]

/-- R203, R204, R206 (spec/07), R253 (spec/08): barrier units, their answers and their releases. -/
theorem claim_barrierEvents : Claim.BarrierEvents := by
  intro s pkt p b
  refine ⟨fun hunit e he => ⟨?arrival, ?init, ?query⟩, fun harr => ⟨?arrives, ?inits, ?release⟩, ?retry⟩
  case arrival =>
    intro fl drop hbody hcount w hw u hu
    subst hu
    exact ⟨fun hmore => happens_some (unitArrival_counts hunit he hbody hcount hw hmore),
      fun hlast => happens_some (unitArrival_releases hunit he hbody hcount hw hlast)⟩
  case init =>
    intro n hbody hnone hdrop u hu
    subst hu
    exact happens_some (unitInit_sets hunit he hbody hnone hdrop)
  case query =>
    intro low short ph hbody hph
    refine ⟨fun h hheld => happens_some (unitQuery_released hunit he hbody hph hheld), fun hheld =>
      ⟨fun hahead hroom => ?_, fun hahead hfull => ?_, fun hpast => ?_⟩⟩
    · exact happens_some (unitQuery_waits hunit he hbody hph hheld hahead hroom)
    · exact happens_some (unitQuery_full hunit he hbody hph hheld hahead hfull)
    · exact happens_some (unitQuery_past hunit he hbody hph hheld hpast)
  case arrives =>
    intro ref n core slot t r hbody hwait hrs
    exact happens_some (barrierAnswer_arrives harr hbody hwait hrs)
  case inits =>
    intro ref core slot t r hbody hwait
    exact happens_some (barrierAnswer_inits harr hbody hwait)
  case release =>
    intro n fa u hbody hcore hu
    exact happens_some (deliverRelease_marks harr hbody hcore hu)
  case retry =>
    intro core slot t a n ht ha hretry hrel hlate u hu
    exact happens_some (retryQuery_asks ht ha hretry hrel hlate hu)

/-! ### Ferries (R238, R239, R243, R245) -/

section
variable {s : State} {core slot kind urg : Nat} {t : Thread} {addr : Word} {write : Bool} (ht : s.thread? core slot = some t)
  (hstatus : t.status = .departing kind addr urg write) (hmay : mayDepart t = true)
include ht hstatus hmay

theorem departFerry_traps (hrec : bit t.frec 63 = true) : departFerry s core slot =
    some (takeTrap (s.setThread core slot { t with status := .ready }) core slot (recordTrap t t.pc)) := by
  simp only [departFerry, ht, hstatus, hmay, Bool.not_true, Bool.false_eq_true, if_false, hrec, if_true]

theorem departFerry_leaves (hrec : bit t.frec 63 = false) : departFerry s core slot = some ((s.delThread core slot).post
    { addressed s core slot t.uid urg true addr t.dom (s.domEntry core t).priv (.ferry (ferryOf t kind addr write)) with
      bad := t.parity.filterMap carriedBy }) := by
  simp only [departFerry, ht, hstatus, hmay, Bool.not_true, Bool.false_eq_true, if_false, hrec]

end

/-- Nothing of the thread is outstanding any more: the waits of R238 are over. -/
theorem mayDepart_of {t : Thread} (hstops : t.stops = []) (hpend : t.pend = []) (h0 : t.out0 = t.q0.length)
    (h1 : t.out1 = t.q1.length) (h3 : ∀ e ∈ t.q3, e.2.isSome = true) (hsends : t.sends = []) (hbeats : t.beats = []) :
    mayDepart t = true := by
  have hq3 : (t.q3.all fun e => e.2.isSome) = true := List.all_eq_true.mpr h3
  simp only [mayDepart, hstops, hpend, h0, h1, hsends, hbeats, hq3, List.isEmpty_nil, beq_self_eq_true, Bool.and_self]

section
variable {s e : State} {pkt : Nat} {p : Packet} {f : Ferry} (harr : arriving s pkt = some p) (hbody : p.body = .ferry f)
  (hcore : epCore p.dst < 1028)
  (hopen : (s.core (epCore p.dst)).sealed = true ∨ claimedBy s (epCore p.dst) p = none)
  (he : e = s.modPacket pkt fun q => { q with stage := .queued })
include harr hbody hcore hopen he

/-- A core takes a ferry unless a buoy claims it. -/
theorem arriveFerry_takes : arriveFerry s pkt =
    if (s.core (epCore p.dst)).inbox.length < 8 && (s.core (epCore p.dst)).spill.isEmpty then
      some (e.modCore (epCore p.dst) fun k => { k with inbox := k.inbox ++ [pkt] })
    else if (s.core (epCore p.dst)).spill.length < (spillRing s (epCore p.dst)).2 then
      some ((writeSpill e ((spillRing s (epCore p.dst)).1 +
          128 * ((s.core (epCore p.dst)).spillAt % (spillRing s (epCore p.dst)).2)) (ferryWords p.dst f) p.bad).modCore
        (epCore p.dst) fun k => { k with
          spill := k.spill ++ [(pkt, (s.core (epCore p.dst)).spillAt % (spillRing s (epCore p.dst)).2)],
          spillAt := (s.core (epCore p.dst)).spillAt % (spillRing s (epCore p.dst)).2 + 1 })
    else none := by
  subst he
  have htakes : (decide (1028 ≤ epCore p.dst) || !((s.core (epCore p.dst)).sealed || (claimedBy s (epCore p.dst) p).isNone))
      = false := by
    obtain hseal | hclaim := hopen
    · simp [Nat.not_le.mpr hcore, hseal]
    · simp [Nat.not_le.mpr hcore, hclaim]
  simp only [arriveFerry, harr, hbody, htakes, Bool.false_eq_true, if_false]

theorem arriveFerry_enters (hroom : (s.core (epCore p.dst)).inbox.length < 8) (hspill : (s.core (epCore p.dst)).spill = []) :
    arriveFerry s pkt = some (e.modCore (epCore p.dst) fun k => { k with inbox := k.inbox ++ [pkt] }) := by
  rw [arriveFerry_takes harr hbody hcore hopen he, if_pos (by simp [hroom, hspill])]

theorem arriveFerry_spills (hfull : 8 ≤ (s.core (epCore p.dst)).inbox.length) {base slots i : Nat}
    (hring : spillRing s (epCore p.dst) = (base, slots)) (hroom : (s.core (epCore p.dst)).spill.length < slots)
    (hi : i = (s.core (epCore p.dst)).spillAt % slots) : arriveFerry s pkt =
      some ((writeSpill e (base + 128 * i) (ferryWords p.dst f) p.bad).modCore (epCore p.dst) fun k =>
        { k with spill := k.spill ++ [(pkt, i)], spillAt := i + 1 }) := by
  subst hi
  rw [arriveFerry_takes harr hbody hcore hopen he, if_neg (by simp [Nat.not_lt.mpr hfull]), hring, if_pos hroom]

end

section
variable {s e : State} {core pkt slot : Nat} {p : Packet} {f : Ferry} {y : Ferry × List Nat} {t : Thread}
  (hnext : nextFerry (s.core core) = some pkt) (hslot : freeSlot (s.core core) = some slot) (hp : s.packet? pkt = some p)
  (hbody : p.body = .ferry f) (hseal : (s.core core).sealed = false) (hclaim : claimedBy s core p = none)
  (hmay : mayAdmit s core = true) (hy : y = spilledFerry s core p f) (ht : t = ferryThread s core { p with bad := y.2 } y.1)
  (he : e = ((leaveInbox s core pkt).dropPacket pkt).tick)
include hnext hslot hp hbody hseal hclaim hmay hy ht he

/-- The oldest ferry that nothing claims is seated; a bounced one that runs takes its trap. -/
theorem admitFerry_eq {v : State} (hv : v = seat (if f.kind == 2 then e else e.countPacket p core) core slot t) :
    admitFerry s core = some (if f.kind == 2 && ((v.thread? core slot).any fun r => r.status != .stopped) then
      takeTrap v core slot (bounceTrap f) else v) := by
  subst hv hy ht he
  simp only [admitFerry, hnext, hslot, hp, hbody, hseal, hclaim, hmay, Option.isSome_none, Bool.not_true, Bool.or_self,
    Bool.false_eq_true, if_false]

theorem admitFerry_seats (hkind : f.kind ≠ 2) : admitFerry s core = some (seat (e.countPacket p core) core slot t) := by
  have hback : (f.kind == 2) = false := by simpa using hkind
  rw [admitFerry_eq hnext hslot hp hbody hseal hclaim hmay hy ht he rfl]
  simp only [hback, Bool.false_eq_true, if_false, Bool.false_and]

theorem admitFerry_bounces (hkind : f.kind = 2) {r : Thread} (hr : (seat e core slot t).thread? core slot = some r)
    (hrun : r.status ≠ .stopped) : admitFerry s core = some (takeTrap (seat e core slot t) core slot
      { cause := f.bcause, detail := f.bdetail, remote := true, xaddr := f.addr, xpc := f.pc }) := by
  have hback : (f.kind == 2) = true := by simpa using hkind
  have hruns : (r.status != .stopped) = true := by simpa using hrun
  rw [admitFerry_eq hnext hslot hp hbody hseal hclaim hmay hy ht he rfl]
  simp only [hback, if_true, hr, Option.any_some, hruns, Bool.and_self, bounceTrap]

end

/-- R238, R239, R243, R245 (spec/08): the departure, the arrival and the admission of ferries. -/
theorem claim_ferryEvents : Claim.FerryEvents := by
  intro s core
  refine ⟨?departs, ?arrives, ?admits⟩
  case departs =>
    intro slot t kind addr urg write ht hstatus hstops hpend h0 h1 h3 hsends hbeats
    have hmay := mayDepart_of hstops hpend h0 h1 h3 hsends hbeats
    exact ⟨fun hrec => happens_some (departFerry_traps ht hstatus hmay hrec),
      fun hrec => happens_some (departFerry_leaves ht hstatus hmay hrec)⟩
  case arrives =>
    intro pkt p f harr hbody hcore hopen e he
    exact ⟨fun hroom hspill => happens_some (arriveFerry_enters harr hbody hcore hopen he hroom hspill),
      fun hfull base slots i hring hroom hi =>
        happens_some (arriveFerry_spills harr hbody hcore hopen he hfull hring hroom hi)⟩
  case admits =>
    intro pkt p f slot hnext hslot hp hbody hseal hclaim hmay y t hy ht e he
    exact ⟨fun hkind => happens_some (admitFerry_seats hnext hslot hp hbody hseal hclaim hmay hy ht he hkind),
      fun hkind r hr hrun =>
        happens_some (admitFerry_bounces hnext hslot hp hbody hseal hclaim hmay hy ht he hkind hr hrun)⟩

/-- Settles O48, from `claim_barrierEvents` and `claim_ferryEvents`. -/
theorem barrierAndFerryEvents : Obligations.BarrierAndFerryEvents := ⟨claim_barrierEvents, claim_ferryEvents⟩

end Sys2Proof.Machine
end

section
/-! PROOFS. Steps of front ends, semaphores, exits and tasks (spec/08 R228-R236; spec/14 R302-R317). -/

namespace Sys2Proof.Machine

/-! ### Ports (R302, R303) -/

section
variable {s : State} {f : Nat}

theorem streamWrite_stages {writer off : Nat} (w : Word) (hf : f < 56) (hoff : off < 0x38) (halign : off % 8 = 0)
    (hheld : ((s.fe f).held.any fun h => h.1 == writer) = false) :
    streamWrite s writer f off w = some (s.setFe f { s.fe f with
      staging := tset (s.fe f).staging writer (tset (tgetD (s.fe f).staging writer []) (off / 8) w) }) := by
  have hport : (decide (0x40 ≤ off) || off % 8 != 0 || decide (64 ≤ f)) = false := by
    have hlow : ¬ 0x40 ≤ off := by omega
    have hfront : ¬ 64 ≤ f := by omega
    simp [hlow, hfront, halign]
  have hlast : (off / 8 != 7) = true := by
    have : off / 8 ≠ 7 := by omega
    simpa using this
  simp only [streamWrite, hport, Bool.false_eq_true, if_false, portStore, Nat.not_le.mpr hf, hheld, hlast, if_true]

theorem enterHeld_enters {h : Nat × FePacket} {rest : List (Nat × FePacket)} (hheld : (s.fe f).held = h :: rest)
    (hroom : (s.fe f).queue.length < 32) :
    enterHeld s f = some (s.setFe f { s.fe f with queue := (s.fe f).queue ++ [h.2], held := rest }) := by
  simp only [enterHeld, hheld, hroom, if_true]

theorem leaveStop_of (hstate : (s.fe f).state = 3) : leaveStop s f = s.setFe f { s.fe f with state := 0 } := by
  simp only [leaveStop, hstate, beq_self_eq_true, if_true]

/-! ### Headers (R304, R306, R314) -/

theorem nextPacket_of {p : FePacket} {rest : List FePacket} (hf : f < 64) (hstate : (s.fe f).state ≠ 3) (hcur : (s.fe f).cur = none)
    (hqueue : (s.fe f).queue = p :: rest) : nextPacket s f = some p := by
  have hnext : (decide (64 ≤ f) || (s.fe f).state == 3 || (s.fe f).cur.isSome) = false := by
    simp [Nat.not_le.mpr hf, hstate, hcur]
  simp only [nextPacket, hnext, Bool.false_eq_true, if_false, hqueue, List.head?_cons]

theorem acceptPacket_accepts {p : FePacket}
    (hfree : ∀ r, tget (s.fe f).records ((s.fe f).serial % 256) = some r → r.state = 0) {id : Nat}
    (hid : id = f * 2 ^ 26 + (s.fe f).serial) {r : TaskRec} (hr : r =
      { state := 1, id := id, dom := packetDomain s f p, cplt := p.words.getD 4 0
        spsize := bits (p.words.getD 5 0) 63 56, spbase := bits (p.words.getD 5 0) 55 12 }) :
    acceptPacket s f p = some ((takePacket s f).modFe f fun x => { x with
      state := 1, lastid := id, serial := (x.serial + 1) % 2 ^ 26, cur := some p, work := .placing id 0 []
      records := tset x.records (x.serial % 256) r }) := by
  subst hr hid
  unfold acceptPacket
  cases hold : tget (s.fe f).records ((s.fe f).serial % 256) with
  | none => simp only [hold, Bool.false_eq_true, if_false]
  | some old => simp only [hold, hfree old hold, bne_self_eq_false, Bool.false_eq_true, if_false]

section
variable {spawned : Bool} {p : FePacket} (hkind : 56 ≤ f ↔ spawned = true) (hnext : nextPacket s f = some p)
  (hheader : spawned = false → bits (p.words.headD 0) 63 60 ≠ 3 ∧ bits (p.words.headD 0) 63 60 ≠ 4)
  {e : State} (he : e = feUse s (packetDomain s f p))
include hkind hnext hheader he

theorem takeHeader_refuses {code : Nat}
    (hcode : refusalCode e p.words spawned (feDom e (packetDomain s f p)).system = some code) :
    takeHeader s f spawned = some (refusePacket e f code p) := by
  subst he
  have hport : (decide (56 ≤ f) != spawned) = false := by
    cases spawned <;> simpa using hkind
  have hlaunch : (!spawned && (bits (p.words.headD 0) 63 60 == 3 || bits (p.words.headD 0) 63 60 == 4)) = false := by
    cases spawned with
    | true => rfl
    | false => simpa using hheader rfl
  simp only [takeHeader, hport, hnext, hlaunch, Bool.false_eq_true, if_false, hcode]

theorem takeHeader_accepts (hcode : refusalCode e p.words spawned (feDom e (packetDomain s f p)).system = none) :
    takeHeader s f spawned = acceptPacket e f p := by
  subst he
  have hport : (decide (56 ≤ f) != spawned) = false := by
    cases spawned <;> simpa using hkind
  have hlaunch : (!spawned && (bits (p.words.headD 0) 63 60 == 3 || bits (p.words.headD 0) 63 60 == 4)) = false := by
    cases spawned with
    | true => rfl
    | false => simpa using hheader rfl
  simp only [takeHeader, hport, hnext, hlaunch, Bool.false_eq_true, if_false, hcode]

end

/-! ### Placement (R231-R236) -/

theorem groupPlace_fits {task i c : Nat} {p : FePacket} (hwork : (s.fe f).work = .placing task i [])
    (hcur : (s.fe f).cur = some p) (hgang : hdrGang p.words ≤ hdrPlace p.words)
    (hfit : (permitted (s.fe f) p).find? (fun c => decide (sizeOf p.words i + reservedIn s c ≤ clusterFree s c) &&
      (freeGroup s c).isSome) = some c) : groupPlace s f = placeIn s f task i c [] p := by
  simp only [groupPlace, hwork, hcur, Nat.not_lt.mpr hgang, if_false, hfit]

/-- A group that is no gang is placed on the cores that its cluster deals it. -/
theorem placeIn_places {task i c slot : Nat} {p : FePacket} (hgang : hdrGang p.words ≤ hdrPlace p.words)
    (hslot : freeGroup s c = some slot) {cores : List Nat} (hcores : cores = dealGroup s c (sizeOf p.words i) p.home false)
    (hsize : sizeOf p.words i ≤ cores.length) (hferry : ∀ k ∈ cores, ferryFirst s k = false) {e : Group} (he : e =
      { level := bits (p.words.getD 0 0) 59 56, tickets := bits (p.words.getD 0 0) 55 40, place := hdrPlace p.words
        gangLv := hdrGang p.words, barrier := hdrBarrier p.words, base := bits (p.words.getD 0 0) 30 23
        task := task, live := sizeOf p.words i, opened := true }) {u : State}
    (hu : u = (startRecord (placeThreads p (packetDomain s f p) task (slotGroup s c slot) false cores
        (i * 2 ^ sumTo p.words (hdrPlace p.words)) { s with groups := tset s.groups (groupKey (slotGroup s c slot)) e })
        task (sizeOf p.words i)).modFe f fun x =>
      { x with ptr := if p.home.isNone then (c + 1) % 32 else x.ptr, work := .placing task (i + 1) [] }) :
    placeIn s f task i c [] p = some (if groupCount p.words ≤ i + 1 then allPlaced u f task else u) := by
  subst hu he
  have hnot : decide (hdrPlace p.words < hdrGang p.words) = false := decide_eq_false (Nat.not_lt.mpr hgang)
  have hready : (decide (cores.length < sizeOf p.words i) || cores.any (ferryFirst s)) = false := by
    rw [decide_eq_false (Nat.not_lt.mpr hsize), Bool.false_or]
    exact List.any_eq_false.mpr fun k hk => by simp [hferry k hk]
  unfold placeIn
  dsimp only
  rw [hnot, ← hcores, hslot]
  exact if_neg (by rw [hready]; exact Bool.false_ne_true)

/-! ### Semaphores (R308-R310) -/

theorem nextSemaphore_of {p : FePacket} {kind : Nat} (hf : f < 56) (hnext : nextPacket s f = some p)
    (hkind : bits (p.words.headD 0) 63 60 = kind) : nextSemaphore s f kind = some p := by
  simp only [nextSemaphore, hnext, hf, hkind, decide_true, beq_self_eq_true, Bool.and_self, if_true]

theorem semaphoreWait_reads {p : FePacket} (hnext : nextSemaphore s f 3 = some p) (hgood : semaphoreBad p.words = false) :
    semaphoreWait s f = some (readSemaphore ((takePacket s f).modFe f fun x =>
      { x with state := 2, cur := some p, work := .semaphore s.time s.time none }) f s.time p) := by
  simp only [semaphoreWait, hnext, hgood, Bool.false_eq_true, if_false]

theorem semaphoreSignal_takes {p : FePacket} (hnext : nextSemaphore s f 4 = some p) (hgood : semaphoreBad p.words = false)
    (hidle : (s.fe f).work = .idle) {u : State}
    (hu : u = (takePacket s f).modFe f fun x => { x with cur := some p, work := .signal none }) :
    semaphoreSignal s f = some (if bit (p.words.headD 0) 57 = true ∧ streamQuiet (s.fe f) = false then u
      else sendSignal u f p) := by
  subst hu
  simp only [semaphoreSignal, hidle, hnext, hgood, Bool.false_eq_true, if_false, Bool.and_eq_true, Bool.not_eq_true']

theorem semaphorePoll_reads {p : FePacket} {start last : Nat} (hwork : (s.fe f).work = .semaphore start last none)
    (hcur : (s.fe f).cur = some p) (hlate : last + 256 ≤ s.time) :
    semaphorePoll s f = some (readSemaphore s f start p) := by
  simp only [semaphorePoll, hwork, hcur, hlate, if_true]

theorem semaphoreTimeout_stops {p : FePacket} {start last : Nat} {r : Option Nat} (hwork : (s.fe f).work = .semaphore start last r)
    (hcur : (s.fe f).cur = some p) (hlimit : bits (p.words.headD 0) 35 16 ≠ 0)
    (hlate : start + 1024 * bits (p.words.headD 0) 35 16 ≤ s.time) :
    semaphoreTimeout s f = some (stopStream s f 0x10 (p.words.getD 1 0)) := by
  have hend : (bits (p.words.headD 0) 35 16 != 0 && decide (start + 1024 * bits (p.words.headD 0) 35 16 ≤ s.time)) = true := by
    rw [Bool.and_eq_true, bne_iff_ne, decide_eq_true_eq]
    exact ⟨hlimit, hlate⟩
  simp only [semaphoreTimeout, hwork, hcur, hend, if_true]

end

/-! ### Exits, spawns and messages (R311, R313, R317) -/

section
variable {s : State} {pkt : Nat} {p : Packet} (harr : arriving s pkt = some p)
include harr

theorem exitReported_counts {task : Nat} {g : GroupId} {e : Group} {r : TaskRec} (hbody : p.body = .exitReport task g)
    (he : tget s.groups (groupKey g) = some e) {u : State}
    (hu : u = { s.dropPacket pkt with groups := tset s.groups (groupKey g) { e with live := e.live - 1 } })
    (hr : u.taskRec task = some r) :
    exitReported s pkt = some (checkDone (u.setTaskRec { r with live := r.live - 1 }) task) := by
  subst hu
  have hgroups : (s.dropPacket pkt).groups = s.groups := rfl
  simp only [exitReported, harr, hbody, hgroups, he, hr]

theorem spawnArrive_joins {ws : List Word} {operand : Word} {h k : Nat} {e : State} (hbody : p.body = .spawn ws operand (some h))
    (hhome : h < 1024) (hcore : epCore p.dst < 1028) (hhandled : handledAt s (epCore p.dst) p = true)
    (hk : k = 56 + clusterOf h % 8) (he : e = s.dropPacket pkt) (hroom : (e.fe k).queue.length < 32) :
    spawnArrive s pkt = some ((e.setFe k { e.fe k with queue := (e.fe k).queue ++
      [{ words := ws, dom := p.dom, src := p.src, operand := operand, home := some h }] }).countPacket p (epCore p.dst)) := by
  subst he hk
  have hin : ¬ 1024 ≤ h := Nat.not_le.mpr hhome
  simp only [spawnArrive, harr, hbody, hcore, hhandled, decide_true, Bool.not_true, Bool.and_false, Bool.false_eq_true, if_false,
    Option.getD_some, Option.isNone_some, hin, decide_false, Bool.false_and, Bool.or_self, Nat.not_le.mpr hroom, if_true]

theorem messageDeliver_delivers {task : Nat} {ws : List Word} {g : Option GroupId} {urg : Bool}
    (hbody : p.body = .message task ws g urg none) (hcore : epCore p.dst < 1028) (hhandled : handledAt s (epCore p.dst) p = true) :
    messageDeliver s pkt = some (acknowledge (deliver ((s.dropPacket pkt).countPacket p (epCore p.dst)) task
      (messageOf p ws g urg 0) true) p none) := by
  simp [messageDeliver, harr, hbody, Nat.not_le.mpr hcore, hhandled]

end

/-- A header is refused with its code, or accepted with the record that R314 and R315 give. -/
theorem header_taken {s e : State} {f : Nat} {spawned : Bool} {p : FePacket} {rest : List FePacket} (hf : f < 64)
    (hkind : 56 ≤ f ↔ spawned = true) (hstate : (s.fe f).state ≠ 3) (hcur : (s.fe f).cur = none)
    (hqueue : (s.fe f).queue = p :: rest)
    (hheader : spawned = false → bits (p.words.headD 0) 63 60 ≠ 3 ∧ bits (p.words.headD 0) 63 60 ≠ 4)
    (he : e = feUse s (packetDomain s f p)) :
    (∀ code, refusalCode e p.words spawned (feDom e (packetDomain s f p)).system = some code →
      takeHeader s f spawned = some (refusePacket e f code p)) ∧
    (refusalCode e p.words spawned (feDom e (packetDomain s f p)).system = none →
      (∀ r, tget (s.fe f).records ((s.fe f).serial % 256) = some r → r.state = 0) →
      ∀ id, id = f * 2 ^ 26 + (s.fe f).serial → ∀ r : TaskRec, r =
        { state := 1, id := id, dom := packetDomain s f p, cplt := p.words.getD 4 0
          spsize := bits (p.words.getD 5 0) 63 56, spbase := bits (p.words.getD 5 0) 55 12 } →
      takeHeader s f spawned = some ((takePacket e f).modFe f fun x => { x with
        state := 1, lastid := id, serial := (x.serial + 1) % 2 ^ 26, cur := some p, work := .placing id 0 []
        records := tset x.records (x.serial % 256) r })) := by
  have hnext := nextPacket_of hf hstate hcur hqueue
  have hfe : e.fe f = s.fe f := by rw [he]; rfl
  have hdom : packetDomain e f p = packetDomain s f p := by rw [packetDomain, packetDomain, hfe]
  refine ⟨fun code hcode => takeHeader_refuses hkind hnext hheader he hcode, fun hcode hfree id hid r hr => ?_⟩
  rw [takeHeader_accepts hkind hnext hheader he hcode]
  exact acceptPacket_accepts (by rwa [hfe]) (by rw [hid, hfe]) (by rw [hr, hdom])

/-- Settles O49: each step by the function of its row. -/
theorem frontEvents_hold : Obligations.FrontEvents := by
  intro s f
  refine ⟨?port, ?held, ?go, ?header, ?place, ?semaphore, ?poll, ?limit, ?record, ?packets⟩
  case port =>
    intro writer off w hf hoff halign hheld
    exact happens_some (streamWrite_stages w hf hoff halign hheld)
  case held =>
    intro h rest hheld hroom
    exact happens_some (enterHeld_enters hheld hroom)
  case go =>
    intro hstate
    refine happens_some ?_
    rw [if_pos (by simpa using hstate), leaveStop_of hstate]
  case header =>
    intro spawned i p rest hmem hf hkind hstate hcur hqueue hheader e he
    obtain ⟨hrefuse, haccept⟩ := header_taken hf hkind hstate hcur hqueue hheader he
    simp only [List.mem_cons, Prod.mk.injEq, List.not_mem_nil, or_false] at hmem
    obtain ⟨rfl, rfl⟩ | ⟨rfl, rfl⟩ := hmem
    · exact ⟨fun code hcode => happens_some (hrefuse code hcode),
        fun hcode hfree id hid r hr => happens_some (haccept hcode hfree id hid r hr)⟩
    · exact ⟨fun code hcode => happens_some (hrefuse code hcode),
        fun hcode hfree id hid r hr => happens_some (haccept hcode hfree id hid r hr)⟩
  case place =>
    intro task i p c slot hwork hcur hgang hfit hslot hsize hferry e he u hu
    refine happens_some ?_
    rw [groupPlace_fits hwork hcur hgang hfit, placeIn_places hgang hslot rfl hsize hferry he hu]
  case semaphore =>
    intro p rest hf hstate hcur hqueue hgood
    have hnext := nextPacket_of (by omega) hstate hcur hqueue
    exact ⟨fun hkind => happens_some (semaphoreWait_reads (nextSemaphore_of hf hnext hkind) hgood),
      fun hkind hidle u hu => happens_some (semaphoreSignal_takes (nextSemaphore_of hf hnext hkind) hgood hidle hu)⟩
  case poll =>
    intro p start last hwork hcur hlate
    exact happens_some (semaphorePoll_reads hwork hcur hlate)
  case limit =>
    intro p start last r hwork hcur hlimit hlate
    exact happens_some (semaphoreTimeout_stops hwork hcur hlimit hlate)
  case record =>
    intro slot w hf hslot
    exact happens_some (if_pos (by simp [hf, hslot]))
  case packets =>
    intro pkt p harr
    refine ⟨fun task g e r hbody he hr => happens_some (exitReported_counts harr hbody he rfl hr),
      fun ws operand h hbody hhome hcore hhandled k hk e he hroom => ?_, fun task ws g urg hbody hcore hhandled => ?_⟩
    · exact happens_some (spawnArrive_joins harr hbody hhome hcore hhandled hk he hroom)
    · exact happens_some (messageDeliver_delivers harr hbody hcore hhandled)

end Sys2Proof.Machine
end

section
/-! PROOFS. Steps of triggers, of the instruction store, and of stops and buoys (spec/07 R225; spec/09 R278; spec/14
R321-R323; spec/16 R349-R367). -/

namespace Sys2Proof.Machine

/-! ### Trigger entries (R321-R323) -/

section
variable {s e : State} {pkt : Nat} {p : Packet} (harr : arriving s pkt = some p) (hcore : epCore p.dst < 1028)
  (he : e = (s.dropPacket pkt).countPacket p (epCore p.dst))
include harr hcore he

theorem triggerPost_fires {n : Nat} {d : Word} (hbody : p.body = .tpost n d) (hhandled : handledAt s (epCore p.dst) p = true)
    (hbound : (e.trigger n).state = 1) : triggerPost s pkt = some (fire e n (e.trigger n) d) := by
  subst he
  simp [triggerPost, harr, hbody, Nat.not_le.mpr hcore, hhandled, hbound]

theorem triggerPost_holds {n : Nat} {d : Word} (hbody : p.body = .tpost n d) (hhandled : handledAt s (epCore p.dst) p = true)
    (hfree : (e.trigger n).state ≠ 1) (hroom : (e.trigger n).held.length < 64) :
    triggerPost s pkt = some (e.setTrigger n { e.trigger n with held := (e.trigger n).held ++ [d] }) := by
  subst he
  simp [triggerPost, harr, hbody, Nat.not_le.mpr hcore, hhandled, hfree, holdDatum, hroom]

/-! ### Instruction words (R225, R278) -/

theorem istwPerform_keeps {off : Nat} {x : Word} (hbody : p.body = .istw off x) :
    istwPerform s pkt = some (acknowledge (e.modCore (epCore p.dst) fun k =>
      { k with istNew := k.istNew.filter (fun w => !(w.1 == p.src && w.2.1 == off / 8)) ++ [(p.src, off / 8, x)] }) p none) := by
  subst he
  simp only [istwPerform, harr, hbody, Nat.not_le.mpr hcore, if_false]

section
variable {u : State} (hu : u = acknowledge (e.modCore (epCore p.dst) fun k => visibleWords k p.src) p none)
include hu

theorem startPerform_shows (hbody : p.body = .start none) : startPerform s pkt = some u := by
  subst hu he
  simp only [startPerform, harr, hbody, Nat.not_le.mpr hcore, if_false]

theorem startPerform_spawns {ws : List Word} (hbody : p.body = .start (some ws)) :
    startPerform s pkt = some (u.send { directPacket u p.src
      (frontEp u.logical (56 + clusterOf (epCore p.dst % 1024) % 8)) p.urg p.uid p.slot
        (.spawn ws 0 (some (epCore p.dst))) with dom := p.dom, priv := p.priv, key := p.key }) := by
  subst hu he
  simp only [startPerform, harr, hbody, Nat.not_le.mpr hcore, if_false]

end
end

section
variable {s e : State} {pkt n : Nat} {p : Packet} {ws : Option (List Word)} (hp : s.packet? pkt = some p)
  (hbody : p.body = .tbind n ws)
include hp hbody

theorem triggerBind_rebinds (hstage : p.stage = .queued) {w : List Word} (hws : ws = some w) :
    triggerBind s pkt = some (installTrigger s n p.dom w p) := by
  subst hws
  simp only [triggerBind, hp, hbody, hstage, beq_self_eq_true, if_true, Option.map_some]

variable (hstage : p.stage ≠ .queued) (harr : arriving s pkt = some p)
include hstage harr

theorem triggerBind_refuses (hbound : (s.trigger n).state ≠ 0) (howner : (s.trigger n).owner ≠ p.dom) :
    triggerBind s pkt = some (acknowledge (s.dropPacket pkt) p (some ⟨cPERM, 4, p.addr⟩)) := by
  simp [triggerBind, hp, hbody, hstage, harr, hbound, howner]

variable (he : e = s.countPacket p (epCore p.dst))
include he

theorem triggerBind_installs (hfree : (s.trigger n).state = 0) {w : List Word} (hws : ws = some w) :
    triggerBind s pkt = some (installTrigger e n p.dom w p) := by
  subst he hws
  simp [triggerBind, hp, hbody, hstage, harr, hfree]

variable (hbound : (s.trigger n).state = 1) (howner : (s.trigger n).owner = p.dom)
include hbound howner

theorem triggerBind_waits {w : List Word} (hws : ws = some w) :
    triggerBind s pkt = some ((e.setTrigger n { s.trigger n with state := 2 }).modPacket pkt
      fun q => { q with stage := .queued }) := by
  subst he hws
  simp [triggerBind, hp, hbody, hstage, harr, hbound, howner]

theorem triggerBind_frees (hws : ws = none) : triggerBind s pkt = some (acknowledge ((e.dropPacket pkt).setTrigger n
    { s.trigger n with state := 0, owner := 0, packet := [] }) p none) := by
  subst he hws
  simp [triggerBind, hp, hbody, hstage, harr, hbound, howner]

end

/-- R321, R322, R323 (spec/14), R225 (spec/07), R278 (spec/09): trigger entries, ISTW and START at their targets. -/
theorem claim_triggerEvents : Claim.TriggerEvents := by
  intro s pkt p
  refine ⟨fun n hn => happens_some (if_pos hn), fun harr hcore e he => ⟨?fires, ?holds, ?istw, ?start⟩,
    fun hp hstage harr n ws hbody e he => ⟨?refuses, ?installs, ?bound⟩, ?rebinds⟩
  case fires =>
    intro n d hbody hhandled hbound
    exact happens_some (triggerPost_fires harr hcore he hbody hhandled hbound)
  case holds =>
    intro n d hbody hhandled hfree hroom
    exact happens_some (triggerPost_holds harr hcore he hbody hhandled hfree hroom)
  case istw =>
    intro off x hbody
    exact happens_some (istwPerform_keeps harr hcore he hbody)
  case start =>
    intro u mine hmine hu
    subst hmine
    exact ⟨fun hbody => happens_some (startPerform_shows harr hcore he hu hbody),
      fun ws hbody => happens_some (startPerform_spawns harr hcore he hu hbody)⟩
  case refuses =>
    intro hbound howner
    exact happens_some (triggerBind_refuses hp hbody hstage harr hbound howner)
  case installs =>
    intro hfree w hws
    exact happens_some (triggerBind_installs hp hbody hstage harr he hfree hws)
  case bound =>
    intro hbound howner
    exact ⟨fun w hws => happens_some (triggerBind_waits hp hbody hstage harr he hbound howner hws),
      fun hws => happens_some (triggerBind_frees hp hbody hstage harr he hbound howner hws)⟩
  case rebinds =>
    intro hp hstage n ws hbody
    exact happens_some (triggerBind_rebinds hp hbody hstage rfl)

/-! ### Stops and the halt tree (R349-R354) -/

/-- A stop word of a compute core's block does what its operation says. -/
theorem coreOp_of {s : State} {core slot : Nat} (op : Nat) (hcore : core < 1024) (hslot : slot < 64) :
    coreOp s core op slot = stopOp s core op slot {} := by
  simp [coreOp, Nat.not_le.mpr hcore, Nat.not_le.mpr hslot]

/-- A request of the halt tree that has come to this cube, for a partition. -/
def haltRequest (s : State) (part : Nat) (stop : Bool) (p : Packet) : Bool :=
  epCore p.dst == barrierPort && (match p.body with | .haltReq q t => q == part && t == stop | _ => false) &&
    (arriving s p.id).isSome

theorem haltDeliver_delivers {s : State} {part : Nat} {stop : Bool} {p : Packet}
    (hp : s.net.find? (haltRequest s part stop) = some p) : haltDeliver s part stop =
      some ((partition (s.dropPacket p.id) part).foldl (if stop then haltCore else releaseCore 4) (s.dropPacket p.id)) := by
  unfold haltDeliver
  dsimp only
  erw [hp]

/-! ### Buoys and redirects (R364-R367) -/

theorem buoyForward_forwards {s : State} {pkt n : Nat} {p : Packet} {a : Access} {b : Buoy} (hp : s.packet? pkt = some p)
    (hbody : p.body = .access a) (hstands : standsAt s p = true) (hseal : (s.core (epCore p.dst)).sealed = false)
    (hfirst : firstClaimed s (epCore p.dst) p = true) (hclaim : claimedBy s (epCore p.dst) p = some (n, b)) :
    buoyForward s pkt = some (tellSource (passOn s p (epCore p.dst) b.target) (epCore p.dst) n b p) := by
  simp only [buoyForward, hp, hbody, hstands, hseal, hfirst, hclaim, Bool.not_true, Bool.or_self, Bool.false_eq_true, if_false]

section
variable {s : State} {pkt v key : Nat} {p : Packet} (harr : arriving s pkt = some p)
include harr

theorem relocationNotice_enters {t : Nat} (hbody : p.body = .relocNotice v t key) (hcore : epCore p.dst < 1028)
    {others : List Redirect}
    (hothers : others = (s.core (epCore p.dst)).redirects.filter fun r => !(r.v == v && r.key == key))
    (hroom : others.length < 16) : relocationNotice s pkt = some ([0, 1, 2].foldl (fun u cls =>
        u.send (directPacket u (u.ep (epCore p.dst)) v cls 0 0 (.relocFence v cls key)))
      ((s.dropPacket pkt).modCore (epCore p.dst) fun k => { k with redirects := others ++ [⟨v, t, key, [0, 1, 2]⟩] })) := by
  unfold relocationNotice
  simp only [harr, hbody, Nat.not_le.mpr hcore, if_false, ← hothers, hroom, if_true]
  cases others <;> rfl

theorem relocationAck_acknowledges {cls : Nat} (hbody : p.body = .relocFence v cls key) (hplace : p.dst ≠ v) {e : State}
    (he : e = s.dropPacket pkt) :
    relocationAck s pkt = some (e.send (directPacket e p.dst p.src 2 0 0 (.relocAck v cls key))) := by
  subst he
  simp [relocationAck, harr, hbody, hplace]

theorem relocationAck_releases {cls : Nat} {r : Redirect} (hbody : p.body = .relocAck v cls key)
    (hr : ((s.core (epCore p.dst)).redirects.find? fun r => r.v == v && r.key == key) = some r) :
    relocationAck s pkt = some (releaseWaiting ((s.dropPacket pkt).modCore (epCore p.dst) fun k =>
        { k with redirects := k.redirects.map fun r => if r.v == v && r.key == key then
          { r with fences := r.fences.filter (· != cls) } else r })
      (epCore p.dst) v key (some cls) r.t) := by
  simp only [relocationAck, harr, hbody, hr, Option.map_some, Option.getD_some]

end

theorem buoyRetire_clears {s : State} {core slot : Nat} {b : Buoy} (hb : tget (s.core core).buoys slot = some b)
    (hsplit : bit s.splitc 3 = true) (hlate : b.last + 16777216 ≤ (s.core core).cyc) :
    buoyRetire s core slot = some (s.modCore core fun k => { k with buoys := tdel k.buoys slot }) := by
  simp only [buoyRetire, hb, hsplit, State.cyc, hlate, decide_true, Bool.and_self, if_true]

/-- R349, R350, R353, R354, R365, R366, R367 (spec/16): stops, the halt tree, buoys and redirects. -/
theorem claim_stopEvents : Claim.StopEvents := by
  intro s core slot g hcore
  refine ⟨?thread, ?quire, ?quireFree, ?coreStop, ?coreFree, ?group, ?groupFree, ?halt, ?forward, ?notice, ?fence, ?ack,
    ?retire⟩
  case thread =>
    intro hslot
    exact ⟨happens_some (coreOp_of 0 hcore hslot), happens_some (coreOp_of 4 hcore hslot)⟩
  case quire => exact happens_some (coreOp_of 2 hcore (by decide))
  case quireFree => exact happens_some (coreOp_of 6 hcore (by decide))
  case coreStop => exact happens_some (coreOp_of 3 hcore (by decide))
  case coreFree => exact happens_some (coreOp_of 7 hcore (by decide))
  case group =>
    intro u hu
    exact happens_some hu
  case groupFree => rfl
  case halt =>
    intro part stop p hp
    exact happens_some (haltDeliver_delivers hp)
  case forward =>
    intro pkt p a n b hp hbody hstands hseal hfirst hclaim
    exact happens_some (buoyForward_forwards hp hbody hstands hseal hfirst hclaim)
  case notice =>
    intro pkt p v t key harr hbody hcore others hothers hroom
    exact happens_some (relocationNotice_enters harr hbody hcore hothers hroom)
  case fence =>
    intro pkt p v cls key harr hbody hplace e he
    exact happens_some (relocationAck_acknowledges harr hbody hplace he)
  case ack =>
    intro pkt p v cls key r harr hbody hr
    exact happens_some (relocationAck_releases harr hbody hr)
  case retire =>
    intro b hb hsplit hlate
    exact happens_some (buoyRetire_clears hb hsplit hlate)

/-- Settles O50, from `claim_triggerEvents` and `claim_stopEvents`. -/
theorem triggerAndStopEvents : Obligations.TriggerAndStopEvents := ⟨claim_triggerEvents, claim_stopEvents⟩

end Sys2Proof.Machine
end

section
/-! PROOFS. Soft errors, scrubbing, lost packets, via columns and error logs (spec/20 R411-R415). -/

namespace Sys2Proof.Machine

/-! ### Soft errors (R411-R413) -/

/-- A corrected error of a word of the local store is logged and changes nothing else. -/
theorem softError_lstoreCorrected (s : State) {c w : Nat} (hc : c < 1028) (hw : w < 2 ^ 19) :
    softError s (.lstore c w) true = some (logError s (dieOf c) 2 false c (s.ep c)) :=
  if_neg (by simp [Nat.not_le.mpr hc, Nat.not_le.mpr hw, -Nat.reducePow])

theorem softError_lstoreBroken (s : State) {c w : Nat} (hc : c < 1028) (hw : w < 2 ^ 19) :
    softError s (.lstore c w) false = some (logError (breakWord s c 0 w) (dieOf c) 2 true c ((breakWord s c 0 w).ep c)) :=
  if_neg (by simp [Nat.not_le.mpr hc, Nat.not_le.mpr hw, -Nat.reducePow])

theorem softError_dramCorrected (s : State) {line : Nat} (h : line < 2 ^ 34) :
    softError s (.dram line) true = some (logDram s false line) :=
  if_neg (Nat.not_le.mpr h)

theorem softError_dramBroken (s : State) {line : Nat} (h : line < 2 ^ 34) : softError s (.dram line) false =
    some (logDram { s with
      dramBad := s.dramBad.filter (fun w => w / 4 != line) ++ (List.range 4).map fun i => 4 * line + i } true line) :=
  if_neg (Nat.not_le.mpr h)

theorem softError_greg {s : State} {c slot r : Nat} {t : Thread} (ht : s.thread? c slot = some t) (hr : r < 10) :
    softError s (.greg c slot r) false = some (logError (s.setThread c slot
      { t with parity := .g r :: t.parity.filter (· != .g r) }) (dieOf c) 3 true c 0) := by
  simp only [softError, Bool.false_eq_true, if_false, breakReg, ht, hr, decide_true, if_true]

theorem meshTimeout_reports {s : State} {pkt : Nat} {p : Packet} (hp : s.packet? pkt = some p) (hlost : p.stage = .lost)
    (hlate : p.since + 2 ^ 20 ≤ s.time) : meshTimeout s pkt = some (reportLoss (s.dropPacket pkt) p p.id 2) := by
  have hready : (p.stage != .lost || decide (s.time < p.since + 2 ^ 20)) = false := by
    rw [hlost, decide_eq_false (Nat.not_lt.mpr hlate)]
    rfl
  simp only [meshTimeout, hp, hready, Bool.false_eq_true, if_false]

/-! ### Via columns and error logs (R413-R415) -/

theorem busStep_of {v : Vert} {state nbad : Nat} (hstate : v.state < state) (htwo : state ≤ 2) (hmore : v.nbad ≤ nbad)
    (hspares : 64 < nbad) (hmax : nbad ≤ 1023) : busStep v state nbad 0 = true := by
  simp only [busStep, hstate, htwo, hmore, hspares, hmax, decide_true, beq_self_eq_true, Bool.and_self]

theorem busChange_changes {s : State} {col state nbad : Nat} (hcol : col < 128) (hstep : busStep (tgetD s.vert col {}) state nbad 0 = true) :
    busChange s col state nbad 0 = some (linkEvent (logError
        { s with vert := tset s.vert col ⟨state, nbad, 0, ((tgetD s.vert col {}).nchg + 1) % 2 ^ 32⟩ }
        (Config.columnDie col % 4) 6 (state == 2) col 0) 4 (word col) (word state)) :=
  if_neg (by simp [Nat.not_le.mpr hcol, hstep])

theorem elogRead_frees {s : State} {die : Nat} (hdie : die < 4) (hrecs : (s.log die).recs ≠ []) :
    elogRead s die = some (freeRecord s die) :=
  if_neg (by simp [Nat.not_le.mpr hdie, hrecs])

/-- Settles O51: each step by the function of its row. -/
theorem repairEvents : Obligations.RepairEvents := by
  intro s
  refine ⟨?lstore, ?dram, ?register, ?scrub, ?mesh, ?column, ?log⟩
  case lstore =>
    intro c w hc hw
    refine ⟨happens_some (softError_lstoreCorrected s hc hw), fun u hu => ?_⟩
    subst hu
    exact happens_some (softError_lstoreBroken s hc hw)
  case dram =>
    intro line h
    refine ⟨happens_some (softError_dramCorrected s h), fun bad hbad => ?_⟩
    subst hbad
    exact happens_some (softError_dramBroken s h)
  case register =>
    intro c slot r t ht hr
    exact happens_some (softError_greg ht hr)
  case scrub =>
    intro line h
    exact happens_some (if_pos h)
  case mesh =>
    intro pkt p hp hlost hlate
    exact happens_some (meshTimeout_reports hp hlost hlate)
  case column =>
    intro col state nbad hcol hstate htwo hmore hspares hmax
    exact happens_some (busChange_changes hcol (busStep_of hstate htwo hmore hspares hmax))
  case log =>
    intro die hdie hrecs l hl
    subst hl
    exact happens_some (elogRead_frees hdie hrecs)

end Sys2Proof.Machine
end

section
/-! PROOFS. Steps of a Nerven port (spec/19 R379-R392). -/

namespace Sys2Proof.Machine

section
variable {s : State} {p : Nat} (hp : p < 16)

/-! ### Training, failure and loss of lock (R381) -/

section
include hp

theorem portEnable_trains (hdown : (s.port p).state = 0) :
    portEnable s p = some (startTraining (s.setPort p { s.port p with en := true }) p) :=
  if_pos (by simp [hp, hdown])

theorem trainingComplete_ends {peer : TrainInfo} (hstate : (s.port p).state = 1) (hlanes : peer.lanes = 4 ∨ peer.lanes = 8)
    {y : Port} (hy : y = { s.port p with
      state := 2, lanes := if (s.port p).four then 4 else peer.lanes, peer := peer.cube, pport := peer.port
      pcls := peer.pcls, rxctr := peer.counter.toNat, resend := (s.port p).replay.map (·.seq), bad := 0 }) :
    trainingComplete s p peer =
      some (if y.rxfirst && y.txfirst then portTo (s.setPort p y) p (if y.spent then 4 else 3) else s.setPort p y) := by
  subst hy
  refine if_neg ?_
  obtain h4 | h8 := hlanes
  · simp [Nat.not_le.mpr hp, hstate, h4]
  · simp [Nat.not_le.mpr hp, hstate, h8]

theorem linkLoss_attempt (hstate : (s.port p).state = 1) :
    linkLoss s p = some (s.setPort p { s.port p with tries := (s.port p).tries + 1 }) := by
  have hlive : (decide (16 ≤ p) || (s.port p).state == 0 || (s.port p).state == 5) = false := by
    simp [Nat.not_le.mpr hp, hstate]
  have htraining : ((s.port p).state == 1) = true := by simpa using hstate
  simp only [linkLoss, hlive, Bool.false_eq_true, if_false, htraining, if_true]

theorem linkLoss_retrains (hstate : (s.port p).state = 2 ∨ (s.port p).state = 3 ∨ (s.port p).state = 4) :
    linkLoss s p = some (startTraining s p) := by
  have hlive : (decide (16 ≤ p) || (s.port p).state == 0 || (s.port p).state == 5) = false := by
    obtain h | h | h := hstate <;> simp [Nat.not_le.mpr hp, h]
  have htrained : ((s.port p).state == 1) = false := by
    obtain h | h | h := hstate <;> simp [h]
  simp only [linkLoss, hlive, htrained, Bool.false_eq_true, if_false]

/-! ### Slots (R386, R390-R392) -/

/-- A port whose staged keys are not both ready sends what it has chosen under the counter of its key. -/
theorem transmitSlot_emits (hstate : (s.port p).state = 2 ∨ (s.port p).state = 3) (hkeys : ((s.port p).txst && (s.port p).prst) = false)
    (hspent : (s.port p).spent = false) (hctr : (s.port p).txctr ≠ 2 ^ 48 - 1) {kind : Nat} {f : Option SentFlit}
    {body : List Byte} {x : Port} (hslot : chooseSlot (s.port p) s.time = (kind, f, body, x)) :
    transmitSlot s p = some (emit (s.setPort p x) p kind f body) := by
  have hlive : (decide (16 ≤ p) || ((s.port p).spent && !((s.port p).txst && (s.port p).prst)) ||
      ((s.port p).state != 2 && (s.port p).state != 3 && !((s.port p).state == 4 && ((s.port p).txst && (s.port p).prst))))
      = false := by
    obtain h | h := hstate <;> simp [Nat.not_le.mpr hp, hspent, h]
  have hlast : ((s.port p).txctr == 2 ^ 48 - 1) = false := by simpa [-Nat.reducePow, -Nat.reduceSub] using hctr
  simp only [transmitSlot, hkeys, hlast, hslot, Bool.false_eq_true, if_false]
  exact if_neg (by simpa only [hkeys, Bool.not_eq_true] using hlive)

section
variable {f : Flit} (htrained : 2 ≤ (s.port p).state) (hup : (s.port p).state ≠ 5) (hlength : f.body.length = 240)
  {e : State} (he : e = s.setPort p { s.port p with rxctr := ((s.port p).rxctr + 1) % 2 ^ 48 })
include htrained hup hlength

/-- A trained port that has not failed receives a whole slot. -/
theorem receives : (decide (16 ≤ p) || decide ((s.port p).state < 2) || (s.port p).state == 5 || f.body.length != 240) = false := by
  simp [Nat.not_le.mpr hp, Nat.not_lt.mpr htrained, hup, hlength]

include he

theorem receiveFlit_unread (hfec : f.fec = false) : receiveFlit s p f = some (discardFlit e p) := by
  subst he
  simp only [receiveFlit, receives hp htrained hup hlength, hfec, Bool.false_eq_true, if_false, Bool.not_false, if_true]

theorem receiveFlit_unopened (hfec : f.fec = true) (hopen : openFlit (e.port p) f (s.port p).rxctr = none) :
    receiveFlit s p f = some (discardFlit e p) := by
  subst he
  simp only [receiveFlit, receives hp htrained hup hlength, hfec, Bool.false_eq_true, if_false, Bool.not_true, hopen]

theorem receiveFlit_takes {body : List Byte} {y z z1 : Port} (hfec : f.fec = true)
    (hopen : openFlit (e.port p) f (s.port p).rxctr = some (body, y)) (hheader : badHeader f.hdr = false)
    (hdata : bits f.hdr 63 62 = 0)
    (hz : z = acknowledged { y with bad := 0, needs := false } (bits f.hdr 47 36) (bits f.hdr 35 20)) (hfirst : z.rxfirst = true)
    (hz1 : z1 = takeData z ⟨bits f.hdr 59 48, bits f.hdr 61 60, bits f.hdr 18 14, body, 0⟩ s.time) (hstate : z1.state = 3) :
    receiveFlit s p f = some (e.setPort p z1) := by
  subst he
  have htwo : (z1.state == 2) = false := by simp [hstate]
  simp only [receiveFlit, receives hp htrained hup hlength, hfec, Bool.false_eq_true, if_false, Bool.not_true, hopen, hheader,
    hdata, ← hz, hfirst, if_true, ← hz1, htwo, Bool.false_and]

end
end

/-! ### Timers (R381, R388, R389) -/

theorem trainingFails_fails (hstate : (s.port p).state = 1) (hlate : 3 ≤ (s.port p).tries ∨ (s.port p).began + 3000000 ≤ s.time) :
    trainingFails s p = some (failPort s p) :=
  if_pos (by simpa [hstate] using hlate)

theorem nakTimer_repeats {n : Nat} (hnak : (s.port p).nakAt = some n) (hheld : (s.port p).held ≠ []) (hlate : n + 1024 ≤ s.time) :
    nakTimer s p = some (s.setPort p
      { s.port p with ctl := (s.port p).ctl ++ nakEntries (s.port p), nakAt := some s.time }) := by
  have hready : ((s.port p).held.isEmpty || decide (s.time < n + 1024)) = false := by
    simp [hheld, Nat.not_lt.mpr hlate]
  simp only [nakTimer, hnak, hready, Bool.false_eq_true, if_false]

theorem replayTimeout_resends {n : Nat} {f : SentFlit} (hf : (s.port p).replay.find? (fun g => g.seq == n) = some f)
    (hneeds : (s.port p).needs = false) (hnew : n ∉ (s.port p).resend) (hlate : f.sent + 2048 ≤ s.time) :
    replayTimeout s p n = some (s.setPort p { s.port p with resend := (s.port p).resend ++ [n] }) := by
  have hready : ((s.port p).needs || (s.port p).resend.contains n || decide (s.time < f.sent + 2048)) = false := by
    simp [hneeds, hnew, Nat.not_lt.mpr hlate]
  simp only [replayTimeout, hf, hready, Bool.false_eq_true, if_false]

end

/-- Settles O52: each step by the function of its row. -/
theorem linkEvents : Obligations.LinkEvents := by
  intro s p hp
  refine ⟨?enable, ?retrain, ?keys, ?training, ?failure, ?attempt, ?loss, ?slot, ?flit, ?nak, ?replay⟩
  case enable =>
    intro hdown
    exact happens_some (portEnable_trains hp hdown)
  case retrain => exact happens_some (row := "PORT_RETRAIN") (if_pos hp)
  case keys =>
    intro high w
    exact ⟨happens_some (row := "TXKEY_STAGE") (if_pos hp), happens_some (row := "RXKEY_STAGE") (if_pos hp)⟩
  case training =>
    intro peer hstate hlanes y hy
    exact happens_some (trainingComplete_ends hp hstate hlanes hy)
  case failure =>
    intro hstate hlate
    exact happens_some (trainingFails_fails hstate hlate)
  case attempt =>
    intro hstate
    exact happens_some (linkLoss_attempt hp hstate)
  case loss =>
    intro hstate
    exact happens_some (linkLoss_retrains hp hstate)
  case slot =>
    intro hstate hkeys hspent hctr kind f body x hslot
    exact happens_some (transmitSlot_emits hp hstate hkeys hspent hctr hslot)
  case flit =>
    intro f htrained hup hlength e he
    refine ⟨fun hfec => happens_some (receiveFlit_unread hp htrained hup hlength he hfec),
      fun hfec hopen => happens_some (receiveFlit_unopened hp htrained hup hlength he hfec hopen),
      fun body y hfec hopen hheader hdata z hz hfirst z1 hz1 hstate => ?_⟩
    exact happens_some (receiveFlit_takes hp htrained hup hlength he hfec hopen hheader hdata hz hfirst hz1 hstate)
  case nak =>
    intro n hnak hheld hlate
    exact happens_some (nakTimer_repeats hnak hheld hlate)
  case replay =>
    intro n f hf hneeds hnew hlate
    exact happens_some (replayTimeout_resends hf hneeds hnew hlate)

end Sys2Proof.Machine
end

section
/-! PROOFS. Steps of the edge gateways: transit, retry, forwarding and reduce trees (spec/19 R395-R407; spec/20 R419,
R421). -/

namespace Sys2Proof.Machine

/-! ### Transit and arrival (R396, R398) -/

/-- The first packet of a port's queues goes on where its gateway can do something with it. -/
theorem packetArrive_first {s e u : State} {port : Nat} {l : LinkPkt} {rest : List LinkPkt} (hport : port < 16)
    (hqueue : (s.port port).inq = l :: rest) (he : e = s.modPort port fun x => { x with inq := rest })
    (hgo : processLink e port l = some u) : packetArrive s port = some u := by
  subst he
  simp only [packetArrive, hport, if_true, hqueue, firstIn, List.any_nil, Bool.false_eq_true, if_false, List.nil_append, hgo]

section
variable {e : State} {port : Nat} {l : LinkPkt} (hgood : l.malformed = false) (hord : l.ord ≠ 2)
include hgood hord

theorem processLink_transits {q vc : Nat} (hcube : l.dcube ≠ e.physical) (hhops : l.hops < 30)
    (hleave : leaveBy e l.dcube l.ord l.ucls l.vc (l.since + 256 ≤ e.time) false = .by' q vc) (hport : (e.port q).state ≠ 5) :
    processLink e port l = some (enqueue e q (l.moved vc (l.hops + 1))) := by
  have htree : (l.ord == 2) = false := by simpa using hord
  have haway : (l.dcube == e.physical) = false := by simpa using hcube
  have hlive : ((e.port q).state == 5) = false := by simpa using hport
  simp only [processLink, hgood, htree, haway, Bool.false_eq_true, if_false, transitLink, Nat.not_le.mpr hhops, hleave, hlive]

theorem processLink_accepts (hcube : l.dcube = e.physical) (hwindow : e.forward = none) (htype : l.typ < 10) :
    processLink e port l = some (acceptLink e port l) := by
  have htree : (l.ord == 2) = false := by simpa using hord
  have hhere : (l.dcube == e.physical) = true := by simpa using hcube
  simp only [processLink, hgood, htree, hhere, Bool.false_eq_true, if_false, if_true, hwindow, Nat.not_le.mpr htype]

end

/-! ### Sending from this cube (R395, R398, R401) -/

theorem sendTo_adaptive {s : State} {p : Packet} {d q vc : Nat} {late : Bool} (hord : p.ordered = false)
    (hleave : leaveBy s d 1 p.urg 0 late true = .by' q vc) (hclass : classBarred s q p = false) :
    sendTo s p d late = sendBy (s.dropPacket p.id) q p d 1 vc 0 true := by
  simp only [sendTo, hord, Bool.false_and, Bool.false_eq_true, if_false, hleave, hclass]

theorem sendBy_queues {e : State} {q d ord vc tree : Nat} {p : Packet} (hroom : storeRoom (e.port q) = true)
    (hport : (e.port q).state ≠ 5) {l : LinkPkt} (hl : l = linkOf e q p d ord vc tree) :
    sendBy e q p d ord vc tree true = some (enqueue (e.setPort q { e.port q with
      pid := ((e.port q).pid + 1) % 2 ^ 32
      store := (e.port q).store ++ [{ pid := (e.port q).pid, pkt := p, link := l, sent := e.time }] }) q l) := by
  subst hl
  have hlive : ((e.port q).state == 5) = false := by simpa using hport
  simp only [sendBy, hroom, Bool.not_true, Bool.false_eq_true, if_false, hlive, Bool.or_self]

theorem adaptiveFallback_sends {s : State} {pkt : Nat} {p : Packet} (hp : s.packet? pkt = some p) (hstage : p.stage = .gateway)
    (hord : p.ordered = false) (hlate : p.since + 256 ≤ s.time) : adaptiveFallback s pkt = gatewaySend s p true := by
  simp [adaptiveFallback, hp, hstage, hord, Nat.not_lt.mpr hlate]

/-! ### Retry (R401, R402; spec/20 R421) -/

section
variable {s : State} {pkt port pid : Nat} {p : Packet} (hp : atGateway s pkt = some p)
include hp

section
variable (hbody : p.body = .receipt port pid) {r : Retry} (hr : findRetry (s.dropPacket pkt) port pid = some r)
  (hquery : r.query = false)
include hbody hr hquery

theorem receiptReceive_frees (hreply : expectsReply r.pkt = false) :
    receiptReceive s pkt = some (dropRetry (s.dropPacket pkt) port pid) := by
  simp only [receiptReceive, hp, hbody, hr, hreply, hquery, Bool.false_and, Bool.false_eq_true, if_false]

theorem receiptReceive_waits (hreply : expectsReply r.pkt = true) : receiptReceive s pkt =
    some (modRetry (s.dropPacket pkt) port pid fun r =>
      { r with query := true, away := false, sends := 0, sent := (s.dropPacket pkt).time }) := by
  simp only [receiptReceive, hp, hbody, hr, hreply, hquery, Bool.not_false, Bool.and_self, if_true]
  rfl

end

theorem abandonNotice_marks (hbody : p.body = .abandon port pid) : abandonNotice s pkt =
    some (modRetry (s.dropPacket pkt) port pid fun r => if r.query then r else { r with away := true }) := by
  simp only [abandonNotice, hp, hbody]

end

theorem retryTimeout_loses {s : State} {port pid : Nat} {r : Retry} (hr : findRetry s port pid = some r) (hquery : r.query = false)
    (hdue : r.away = true ∨ r.sent + 2 ^ 20 ≤ s.time) (hfirst : retryFirst (s.port port) r = true) (hsends : 4 ≤ r.sends) :
    retryTimeout s port pid = some (reportLoss (dropRetry s port pid) r.pkt pid 2) := by
  have hnow : (!r.away && decide (s.time < r.sent + 2 ^ 20)) = false := by
    obtain haway | hlate := hdue
    · rw [haway]
      rfl
    · rw [decide_eq_false (Nat.not_lt.mpr hlate), Bool.and_false]
  simp only [retryTimeout, hr, hquery, hnow, hfirst, hsends, Bool.not_true, Bool.false_eq_true, if_false, if_true]

theorem pidExpire_drops {s : State} {n : Nat} {e : Nat × Nat × Nat × Nat} (he : s.pids[n]? = some e)
    (hlate : e.2.2.2 + 2 ^ 22 ≤ s.time) : pidExpire s n = some { s with pids := s.pids.eraseIdx n } := by
  simp only [pidExpire, he, Nat.not_lt.mpr hlate, if_false]

theorem windowExpire_ends {s : State} {k n : Nat} (hk : k < 1024) (hwindow : s.forward = some (k, n)) (hlate : n + 2 ^ 22 ≤ s.time) :
    windowExpire s k = some { s with forward := some (1024, n) } := by
  simp only [windowExpire, hwindow, beq_self_eq_true, hk, hlate, decide_true, Bool.and_self, if_true]

section
variable {s e : State} {pkt src slot uid port pid : Nat} {seq : BitVec 16} {p : Packet} (hp : s.packet? pkt = some p)
  (hbody : p.body = .homeQuery src slot uid seq port pid) (hstage : p.stage = .home) (hcube : epCube p.dst = s.logical)
  (he : e = s.dropPacket pkt) {mine : DoneId → Bool}
  (hmine : mine = fun d => d.src == src && d.slot == slot && d.uid == uid && d.seq == seq)
include hp hbody hstage hcube he hmine

theorem homeQuery_performed (hdone : (s.cores.any fun k => k.2.done.any fun d => mine d && d.performed) = true) :
    homeQuery s pkt = some (e.send { directPacket e p.dst p.src 2 0 0 (.homeReply port pid true) with ordered := false }) := by
  subst he hmine
  simp only [homeQuery, hp, hbody, hstage, hcube, bne_self_eq_false, Bool.or_self, Bool.false_eq_true, if_false, hdone,
    Bool.true_or, if_true]

theorem homeQuery_refuses (hdone : (s.cores.any fun k => k.2.done.any fun d => mine d && d.performed) = false)
    (hcore : epCore p.dst < 1028) {u : State} (hu : u = e.modCore (epCore p.dst) fun k =>
      { k with done := (⟨src, slot, uid, seq, false⟩ :: k.done.filter fun d => !mine d).take 512 }) :
    homeQuery s pkt = some (u.send { directPacket u p.dst p.src 2 0 0 (.homeReply port pid false) with ordered := false }) := by
  subst hu he hmine
  simp only [homeQuery, hp, hbody, hstage, hcube, bne_self_eq_false, Bool.or_self, Bool.false_eq_true, if_false, hdone,
    Nat.not_le.mpr hcore, decide_false]

end

/-! ### Reduce trees (R404-R407) -/

theorem tensorCombine_combines {s : State} {n b : Nat} {x y : Tensor} (hn : n < 64) (hvalid : bit (s.treeWord n 0) 63 = true)
    (huse : bits (s.treeWord n 0) 62 61 = 0) (hpair : nextPair (s.combine n b).parts = some (x, y)) :
    tensorCombine s n b = some (s.setCombine { s.combine n b with
      parts := ((s.combine n b).parts.erase x).erase y ++ [widen (treeLast s n) 7 (combineTwo s x y)] }) := by
  have hready : (decide (64 ≤ n) || !bit (s.treeWord n 0) 63 || bits (s.treeWord n 0) 62 61 != 0) = false := by
    simp [Nat.not_le.mpr hn, hvalid, huse]
  simp only [tensorCombine, hready, Bool.false_eq_true, if_false, hpair]

/-- Settles O53: each step by the function of its row. -/
theorem fabricEvents : Obligations.FabricEvents := by
  intro s
  refine ⟨?arrive, ?adaptive, ?receipt, ?loss, ?record, ?window, ?query, ?tree⟩
  case arrive =>
    intro port l rest e hport hqueue he hgood hord
    refine ⟨fun q vc hcube hhops hleave hlive => ?_, fun hcube hwindow htype => ?_⟩
    · exact happens_some (packetArrive_first hport hqueue he (processLink_transits hgood hord hcube hhops hleave hlive))
    · exact happens_some (packetArrive_first hport hqueue he (processLink_accepts hgood hord hcube hwindow htype))
  case adaptive =>
    intro pkt p d q vc hp hstage hord hlate hup hdown halias haway hleave hclass e he hroom hlive l hl
    subst he
    refine happens_some ?_
    have hroutes : gatewaySend s p true = sendTo s p d true := by simp [gatewaySend, hup, hdown, halias, haway]
    rw [adaptiveFallback_sends hp hstage hord hlate, hroutes, sendTo_adaptive hord hleave hclass,
      sendBy_queues hroom hlive hl]
  case receipt =>
    intro pkt p port pid r hp hr hquery
    exact ⟨fun hbody hreply => happens_some (receiptReceive_frees hp hbody hr hquery hreply),
      fun hbody hreply => happens_some (receiptReceive_waits hp hbody hr hquery hreply),
      fun hbody => happens_some (abandonNotice_marks hp hbody)⟩
  case loss =>
    intro port pid r hr hquery hdue hfirst hsends
    exact happens_some (retryTimeout_loses hr hquery hdue hfirst hsends)
  case record =>
    intro n e he hlate
    exact happens_some (pidExpire_drops he hlate)
  case window =>
    intro k n hk hwindow hlate
    exact happens_some (windowExpire_ends hk hwindow hlate)
  case query =>
    intro pkt p src slot uid seq port pid hp hbody hstage hcube e he mine hmine
    exact ⟨fun hdone => happens_some (homeQuery_performed hp hbody hstage hcube he hmine hdone),
      fun hdone hcore u hu => happens_some (homeQuery_refuses hp hbody hstage hcube he hmine hdone hcore hu)⟩
  case tree =>
    intro n b x y hn hvalid huse hpair
    exact happens_some (tensorCombine_combines hn hvalid huse hpair)

end Sys2Proof.Machine
end

section
/-! PROOFS. Every step without an encoding completes: the events of a thread, of memory and of the engines. -/

namespace Sys2Proof.Machine

/-- A step whose next state a statement names completes. -/
theorem happens_next {i : Instr} {s u : State} (h : exec i s = .next u) : Happens i s := ⟨u, h⟩

/-! ### Threads -/

section
variable {s : State} {core slot : Nat} {t : Thread} (ht : s.thread? core slot = some t)
include ht

/-- A port that holds an entry is popped. -/
theorem queuePortPop_happens {port d : BitVec 4} (hr : t.isReady = true) (hport : 12 ≤ port.toNat)
    (hpop : (popPort s core slot (portOf port)).isSome = true) : Happens (.queuePortPop core slot port d) s := by
  obtain ⟨⟨v, u⟩, hvu⟩ := Option.isSome_iff_exists.mp hpop
  exact happens_next (happens_some (popEntry_pops ht hr hport hvu))

theorem resultReturn_happens (hx : t.status ≠ .exiting) (hknown : ∃ q ∈ t.pend, q.writes.isSome = true) :
    Happens (.resultReturn core slot) s := by
  obtain ⟨p, hp⟩ := Option.isSome_iff_exists.mp (List.find?_isSome.mpr hknown)
  have hsome : p.writes.isSome = true := List.find?_some (p := fun q : Pend => q.writes.isSome) hp
  obtain ⟨ws, hws⟩ := Option.isSome_iff_exists.mp hsome
  exact happens_next (happens_some (returnResult_lands ht hx hp hws))

end

/-- The events of a thread complete, each by the statement that says which state it gives. -/
theorem claim_threadEventsComplete : Claim.ThreadEventsComplete := by
  intro s core slot pkt w t p b ht
  obtain ⟨hfirst, hsecond, hdescriptor, -, hrelease, hlease⟩ := claim_queueEvents s core slot w t ht
  obtain ⟨-, -, -, htrap, hsleep, hmail, -, -, -, hstfe⟩ := claim_waitEvents s core slot t ht
  obtain ⟨-, -, hdeliver⟩ := claim_bankDotEvents s pkt p
  obtain ⟨hdepart, harrive, -⟩ := claim_ferryEvents s core
  obtain ⟨hunit, hcore, hretry⟩ := claim_barrierEvents s pkt p b
  refine ⟨fun hr hh => happens_next (hfirst hr hh), fun e he w0 hr hh hk ho ho' => happens_next (hsecond e he w0 hr hh hk ho ho'), ?descriptor,
    ?pops, fun wt since hb hs hp => happens_next (hrelease wt since hb hs hp),
    fun n r since rest hb hs hq hroom => happens_next (hlease n r since rest hb hs hq hroom),
    fun hx hknown => resultReturn_happens ht hx hknown, fun x hx hk => happens_next (htrap x hx hk),
    fun a kind since r d ea hx hlim hlate => happens_next (hsleep a kind since r d ea hx hlim hlate),
    fun g mb e r since hx hlim hlate hmb => happens_next (hmail g mb e r since hx hlim hlate hmb),
    fun id hid hp => happens_next (hstfe id p hid hp), ?bdotq, ?departs, ?arrives, ?admits, ?unit, ?answers,
    fun a n ha hn hrel hlate => happens_next (hretry core slot t a n ht ha hn hrel hlate _ rfl)⟩
  case descriptor =>
    intro hr hc ho
    obtain ⟨op, -, -, -, hpush⟩ := hdescriptor hr hc ho
    exact happens_next hpush
  case pops =>
    intro d hr
    refine ⟨fun hq => ?_, fun hq => ?_, fun hq => queuePortPop_happens ht hr (by decide) hq, fun v id rest hq => ?_⟩
    · obtain ⟨v, rest, hq⟩ := List.exists_cons_of_ne_nil hq
      exact queuePortPop_happens ht hr (by decide) (by simp [popPort, portOf, ht, hq])
    · obtain ⟨v, rest, hq⟩ := List.exists_cons_of_ne_nil hq
      exact queuePortPop_happens ht hr (by decide) (by simp [popPort, portOf, ht, hq])
    · exact queuePortPop_happens ht hr (by decide) (by simp [popPort, portOf, ht, hq])
  case bdotq =>
    intro ticket v hnext hp harr hbody hbad
    exact happens_next (hdeliver core slot t ticket v ht hnext hp harr hbody hbad)
  case departs =>
    intro kind addr urg write hx hs hpend h0 h1 h3 hsends hbeats hrec
    exact happens_next ((hdepart slot t kind addr urg write ht hx hs hpend h0 h1 h3 hsends hbeats).2 hrec)
  case arrives =>
    intro f harr hbody hhome hopen hroom hspill
    exact happens_next ((harrive pkt p f harr hbody hhome hopen _ rfl).1 hroom hspill)
  case admits =>
    intro c f i hnext hslot hp hbody hkind hseal hclaim hmay
    obtain ⟨-, -, hadmit⟩ := claim_ferryEvents s c
    exact happens_next ((hadmit pkt p f i hnext hslot hp hbody hseal hclaim hmay _ _ rfl rfl _ rfl).1 hkind)
  case unit =>
    intro hat
    obtain ⟨harrival, hinit, hquery⟩ := hunit hat _ rfl
    refine ⟨fun fl drop hbody hcount => ?_, fun n hbody ha hd => happens_next (hinit n hbody ha hd _ rfl),
      fun low short ph hbody hph hheld => ?_⟩
    · obtain ⟨hmore, hlast⟩ := harrival fl drop hbody hcount _ rfl _ rfl
      by_cases hall : (s.bar b).a + 1 = (s.bar b).e
      · exact happens_next (hlast hall)
      · exact happens_next (hmore hall)
    · obtain ⟨h, hh⟩ := Option.isSome_iff_exists.mp hheld
      exact happens_next ((hquery low short ph hbody hph).1 h hh)
  case answers =>
    intro harr
    obtain ⟨hanswer, -, hfree⟩ := hcore harr
    exact ⟨fun ref n r hbody hwait hrs => happens_next (hanswer ref n core slot t r hbody hwait hrs),
      fun n fa hbody hhome => happens_next (hfree n fa _ hbody hhome rfl)⟩

/-! ### Memory and engines -/

/-- The events of memory, copies, streams, bank-dot and the matrix engine complete. -/
theorem claim_engineEventsComplete : Claim.EngineEventsComplete := by
  intro s core id pkt p a
  obtain ⟨hslice, hwalk, hmessage, hheld, hack, -⟩ := memoryEvents s pkt p a
  obtain ⟨hcopy, hpacket, hfetch, hsend⟩ := claim_copyEvents s core id
  obtain ⟨-, hdot, -⟩ := claim_bankDotEvents s pkt p
  obtain ⟨hmatrix, hfolio, hfree⟩ := matrixEvents s core
  refine ⟨?slice, ?walk, ?message, ?held, ?ack, ?packet, ?copy, ?fetch, ?sends, ?dot, ?matrix, ?folio, ?free⟩
  case slice =>
    intro hp hstage hcube hclear hrow hhigh hdram e he hvalid hl hroom
    exact happens_next ((hslice hp hstage hcube hclear hrow hhigh hdram e he hvalid).2 hl hroom)
  case walk =>
    intro level table n r hp hstage hr hkind
    exact happens_next ((hwalk hp level table hstage _ rfl r hr).1 n hkind)
  case message =>
    intro harr hbody hhome hhandled hbehind hport hbad e he hkept hcheck hlock
    obtain ⟨-, hnew⟩ := hmessage harr hbody hhome hhandled hbehind hport e he
    obtain ⟨hperform, -, -, hstfe⟩ := hnew hkept
    exact ⟨fun u old h1 h2 h3 hconfig hdone => happens_next (hperform u old h1 h2 h3 hbad hconfig hcheck hlock hdone),
      fun c o hop hregion => happens_next (hstfe c o hop hbad hregion hcheck hlock)⟩
  case held =>
    intro rest u old hfirst hhandled hbody hport hkept hlock hcheck h1 h2 h3 hbad hconfig hdone
    exact happens_next (hheld core rest u old hfirst hhandled hbody hport hkept hlock hcheck h1 h2 h3 hbad hconfig hdone)
  case ack =>
    intro ref fail c slot t harr hhome hbody hwait hwhere ht
    exact happens_next ((hack harr hhome ref).1 fail c slot t hbody hwait hwhere ht)
  case packet =>
    intro g q harr hhome hhandled
    obtain ⟨hread, -, hland⟩ := hpacket pkt p g q harr hhome hhandled
    exact ⟨fun r u hbody hpiece => happens_next (hread r u hbody hpiece),
      fun c o data bad hbody hregion hkey hcount hconflict => happens_next ((hland c o data bad hbody hregion).2 hkey hcount hconflict)⟩
  case copy =>
    intro op hop hcore
    obtain ⟨-, hbegin, -, hdone, htell, hresume, hzero, -, hpost⟩ := hcopy op hop hcore
    refine ⟨fun v ls hphase hlocks hnext => happens_next (hbegin v ls hphase hlocks hnext),
      fun hphase hstuck hkind => happens_next (hdone 0 hphase hstuck (.inl hkind)),
      fun hphase hkind hroom => happens_next (hpost hkind hphase hroom),
      fun cause detail addr entry hphase => happens_next (htell cause detail addr entry hphase), fun cause detail addr entry hphase => ?_,
      fun v dst hkind hphase hflying hdst => ?_⟩
    · obtain ⟨hregister, -, habandon⟩ := hresume cause detail addr entry hphase
      exact ⟨fun hflying => happens_next (hregister hflying), happens_next habandon⟩
    · obtain ⟨path, hrow⟩ := hzero v dst hkind hphase hflying hdst
      exact happens_next hrow
  case fetch =>
    intro slot v t l st ps u ls ht hl hst hps hlocks hnext
    exact happens_next (((hfetch slot v t l st ps u ht hl hst hps _ rfl).2 ls hlocks).1 hnext)
  case sends =>
    intro q0 q e u ls hsink hbegin hlocks hnext
    exact happens_next (((hsend q0 q e u hsink hbegin _ rfl _ rfl).2 ls hlocks).1 hnext)
  case dot =>
    intro cfg vec ticket n bad x hp hstage hbody hxl hgood hbad hcolumn hclean
    exact happens_next (hdot cfg vec ticket n bad x hp hstage hbody hxl hgood hbad hcolumn hclean)
  case matrix =>
    intro m rest horder
    obtain ⟨hmode, hcompute, -, -, hjoin, hlimit, hblock, -, hsplit, hstatus⟩ := hmatrix m rest horder
    refine ⟨fun mode hkind hcore hstop => happens_next (hmode mode hkind hcore hstop),
      fun k hkind hcmd hcore hphase hj hstop herr hlock hleft =>
        happens_next ((hcompute hkind hcmd hcore hphase hj hstop).1 k herr hlock hleft),
      fun hcore hphase hj harr hstop => happens_next (hjoin hcore hphase hj harr hstop),
      fun since harr hphase hlim hstop hgang hlate => happens_next (hlimit since harr hphase hlim hstop hgang hlate),
      fun hphase hgang hs hf hpoison => happens_next (((hblock hphase hgang hs).1 hf).1 hpoison), fun hphase hs hbook => ?_,
      fun code hphase => happens_next (hstatus code hphase)⟩
    obtain ⟨k, -, -, -, hk⟩ := hsplit hphase hs hbook
    exact happens_next hk
  case folio =>
    intro x f hsub hf hpacked hroom hmore
    exact happens_next (hfolio x f hsub hf hpacked hroom hmore _ rfl _ rfl _ rfl _ rfl)
  case free =>
    intro quire slot f hf hclosed hnone
    exact happens_next (hfree quire slot f hf hclosed hnone)

end Sys2Proof.Machine
end

section
/-! PROOFS. Every step without an encoding completes: front ends, triggers, stops, stores to control and configuration,
links, the fabric, repairs and the boot. -/

namespace Sys2Proof.Machine

/-! ### Front ends, triggers, stops, control and configuration -/

/-- The events of front ends, triggers, stops and buoys, and the stores to control and configuration complete. -/
theorem claim_controlEventsComplete : Claim.ControlEventsComplete := by
  intro s f pkt core slot p g w
  obtain ⟨hport, hheld, hgo, hheader, hplace, hsemaphore, hpoll, hlimit, hrecord, hpackets⟩ := frontEvents_hold s f
  obtain ⟨hovf, htrigger, hbind, -⟩ := claim_triggerEvents s pkt p
  obtain ⟨hdtab, hfrec, hmberr, hsplitc, halias, hdrain, hlost, hroute, hswitch, hpaths, hframe, hall, hlogical, hword⟩ :=
    configEvents s w
  have hstop := claim_stopEvents s
  have hzero := hstop 0 0 g (by decide)
  obtain ⟨-, -, -, -, -, hgroup, hgroupFree, hhalt, hforward, hnotice, hfence, -, -⟩ := hzero
  refine ⟨fun writer off hf ho ha hh => happens_next (hport writer off w hf ho ha hh), ?held, fun hs => happens_next (hgo hs),
    ?header, ?place, ?semaphore, fun q start last hw hc hl => happens_next (hpoll q start last hw hc hl),
    fun q start last r hw hc hn hl => happens_next (hlimit q start last r hw hc hn hl),
    fun hf hs => happens_next (hrecord slot w hf hs), ?packets, fun n hn => happens_next (hovf n hn), ?trigger, ?thread, ?core,
    ?group, happens_next hgroupFree, fun part stop hp => happens_next (hhalt part stop p hp),
    fun a n b hp hbody hstands hseal hfirst hclaim => happens_next (hforward pkt p a n b hp hbody hstands hseal hfirst hclaim),
    fun v t key harr hbody hhome hroom => happens_next (hnotice pkt p v t key harr hbody hhome _ rfl hroom),
    fun v cls key harr hbody hplace => happens_next (hfence pkt p v cls key harr hbody hplace _ rfl), ?retire,
    fun hc h1 h2 h3 => happens_next (hdtab core hc h1 h2 h3), ?frec, fun hc => happens_next (hmberr core g hc),
    happens_next hsplitc, fun k hk => ⟨happens_next (halias k hk), fun hs => happens_next (hlost k hk hs)⟩,
    fun k a hp hbody => happens_next (hdrain k p a hp hbody), ?route,
    fun d r hr hbusy => happens_next (hswitch d r hr hbusy), fun i hi => happens_next (hpaths i hi),
    fun hc h1 h2 h3 h4 => happens_next (hframe core hc h1 h2 h3 h4), fun hc => happens_next (hall core hc),
    happens_next hlogical, ?word⟩
  case held =>
    intro hne hroom
    obtain ⟨h, rest, hh⟩ := List.exists_cons_of_ne_nil hne
    exact happens_next (hheld h rest hh hroom)
  case header =>
    intro spawned i q rest hmem hf hkind hstate hcur hqueue hhead e he hcode hfree
    exact happens_next
      ((hheader spawned i q rest hmem hf hkind hstate hcur hqueue hhead e he).2 hcode hfree _ rfl _ rfl)
  case place =>
    intro task i q c k hwork hcur hgang hfit hslot hsize hferry
    exact happens_next (hplace task i q c k hwork hcur hgang hfit hslot hsize hferry _ rfl _ rfl)
  case semaphore =>
    intro q rest hf hstate hcur hqueue hgood
    obtain ⟨hwait, hsignal⟩ := hsemaphore q rest hf hstate hcur hqueue hgood
    exact ⟨fun hkind => happens_next (hwait hkind), fun hkind hidle => happens_next (hsignal hkind hidle _ rfl)⟩
  case packets =>
    intro harr
    obtain ⟨hexit, hspawn, hdeliver⟩ := hpackets pkt p harr
    exact ⟨fun task gr e r hbody he hr => happens_next (hexit task gr e r hbody he hr),
      fun ws operand h hbody hh hhome hhandled hroom =>
        happens_next (hspawn ws operand h hbody hh hhome hhandled _ rfl _ rfl hroom),
      fun task ws gr urg hbody hhome hhandled => happens_next (hdeliver task ws gr urg hbody hhome hhandled)⟩
  case trigger =>
    intro harr hhome
    obtain ⟨hfires, -, histw, hstart⟩ := htrigger harr hhome _ rfl
    exact ⟨fun n d hbody hhandled hbound => happens_next (hfires n d hbody hhandled hbound),
      fun n ws hbody hp hstage hfree =>
        happens_next ((hbind hp hstage harr n (some ws) hbody _ rfl).2.1 hfree ws rfl),
      fun off x hbody => happens_next (histw off x hbody), fun hbody => happens_next ((hstart _ _ rfl rfl).1 hbody)⟩
  case thread =>
    intro hc hs
    obtain ⟨hthread, -⟩ := hstop core slot g hc
    exact ⟨happens_next (hthread hs).1, happens_next (hthread hs).2⟩
  case core =>
    intro hc
    obtain ⟨-, hquire, hquireFree, hcore, hcoreFree, -⟩ := hstop core slot g hc
    exact ⟨happens_next hquire, happens_next hquireFree, happens_next hcore, happens_next hcoreFree⟩
  case group =>
    intro hsome
    obtain ⟨u, hu⟩ := Option.isSome_iff_exists.mp hsome
    exact happens_next (hgroup u hu)
  case retire =>
    intro b hc hb hsplit hlate
    obtain ⟨-, -, -, -, -, -, -, -, -, -, -, -, hretire⟩ := hstop core slot g hc
    exact happens_next (hretire b hb hsplit hlate)
  case frec =>
    intro hsome
    obtain ⟨t, ht⟩ := Option.isSome_iff_exists.mp hsome
    exact happens_next (hfrec core slot t ht)
  case route =>
    intro d hd
    obtain ⟨u, hu, -⟩ := hroute d hd
    exact happens_next hu
  case word =>
    intro writer off hoff hal hblock hin
    exact happens_next ((hword writer off hoff hal).2.1 hblock hin)

/-! ### The port to the commander and the boot (spec/21 R434-R439) -/

theorem ucieOff_of {d : Word} {o : Nat} (hlow : 0x3FC00000000 ≤ bits d 41 0) (halign : bits d 41 0 % 8 = 0)
    (ho : o = bits d 41 0 - 0x3FC00000000) : ucieOff d = some o := by
  rw [ho]
  exact if_pos (by simp [hlow, halign])

section
variable {s : State} {d : Word} {o : Nat} (hup : s.ucieUp = true) (hzero : bits d 47 42 = 0) (ho : ucieOff d = some o)
include hup hzero ho

/-- A read of a word outside the error logs answers its value (R439). -/
theorem ucieRead_answers (hop : bits d 63 60 = 1) (hlog : o / 0x100000 ≠ 7) {v : Word} (hv : configLoad s true o = some v) :
    ucieRead s d = some (readData s d v) := by
  simp [ucieRead, hup, ucieBad, hop, hzero, ho, hv, hlog]

theorem ucieWrite_stores {x : Word} (hop : bits d 63 60 = 2) {u : State} (hstore : configStore s commander o x = .ok u) :
    ucieWrite s d x = some u := by
  simp [ucieWrite, hup, ucieBad, hop, hzero, ho, hstore]

end

/-- The link to the commander goes down (R434). -/
theorem ucieDown_of {s : State} (hup : s.ucieUp = true) (hhard : bits s.splitc 6 0 = 0x7F) :
    ucieDown s = some { s with ucieUp := false, splitc := 0x7F } := by
  simp [ucieDown, hup, hhard]

/-! ### Links, the fabric, repairs and the boot -/

/-- The events of a Nerven port complete. -/
theorem linkEvents_complete (s : State) (n : Nat) (hn : n < 16) :
    ((s.port n).state = 0 → Happens (.portEnable n) s) ∧ Happens (.portRetrain n) s ∧
    (∀ w high, Happens (.txkeyStage n high w) s ∧ Happens (.rxkeyStage n high w) s) ∧
    (∀ peer : TrainInfo, (s.port n).state = 1 → peer.lanes = 4 ∨ peer.lanes = 8 → Happens (.trainingComplete n peer) s) ∧
    ((s.port n).state = 1 → 3 ≤ (s.port n).tries ∨ (s.port n).began + 3000000 ≤ s.time → Happens (.portFail n) s) ∧
    ((s.port n).state = 1 ∨ (s.port n).state = 2 ∨ (s.port n).state = 3 ∨ (s.port n).state = 4 → Happens (.linkLoss n) s) ∧
    ((s.port n).state = 2 ∨ (s.port n).state = 3 → ((s.port n).txst && (s.port n).prst) = false →
      (s.port n).spent = false → (s.port n).txctr ≠ 2 ^ 48 - 1 → Happens (.flitSlotTransmit n) s) ∧
    (∀ f : Flit, 2 ≤ (s.port n).state → (s.port n).state ≠ 5 → f.body.length = 240 → f.fec = false →
      Happens (.flitReceive n f) s) ∧
    (∀ k, (s.port n).nakAt = some k → (s.port n).held ≠ [] → k + 1024 ≤ s.time → Happens (.nakTimer n) s) ∧
    (∀ k f, (s.port n).replay.find? (fun g => g.seq == k) = some f → (s.port n).needs = false → k ∉ (s.port n).resend →
      f.sent + 2048 ≤ s.time → Happens (.replayTimeout n k) s) := by
  obtain ⟨henable, hretrain, hkeys, htrained, hfail, hattempt, hloss, hslot, hflit, hnak, hreplay⟩ := linkEvents s n hn
  refine ⟨fun hs => happens_next (henable hs), happens_next hretrain,
    fun w high => ⟨happens_next (hkeys high w).1, happens_next (hkeys high w).2⟩,
    fun peer hs hl => happens_next (htrained peer hs hl _ rfl), fun hs hl => happens_next (hfail hs hl), ?loss,
    fun hs hk hsp hc => happens_next (hslot hs hk hsp hc _ _ _ _ rfl),
    fun fl h2 h5 hb hf => happens_next ((hflit fl h2 h5 hb _ rfl).1 hf), fun k hk hh hl => happens_next (hnak k hk hh hl),
    fun k fl hf hnd hr hl => happens_next (hreplay k fl hf hnd hr hl)⟩
  rintro (h1 | hup)
  · exact happens_next (hattempt h1)
  · exact happens_next (hloss hup)

/-- The events of links, the fabric, the repair of errors and the boot complete. -/
theorem claim_fabricEventsComplete : Claim.FabricEventsComplete := by
  intro s n pkt port pid p w x
  obtain ⟨hlink, hadaptive, hreceipt, hloss, hrecord, hwindow, hquery, htree⟩ := fabricEvents s
  obtain ⟨hlstore, -, -, hscrub, hmesh, hcolumn, hlog⟩ := repairEvents s
  refine ⟨fun hn => ?port, ?arrive, ?adaptive, ?receipt, fun r hr hq hdue hf h4 => happens_next (hloss port pid r hr hq hdue hf h4),
    fun e he hl => happens_next (hrecord n e he hl), fun k at' hk hf hl => happens_next (hwindow k at' hk hf hl), ?query,
    fun b y z hn hv hu hp => happens_next (htree n b y z hn hv hu hp), ?sram, fun hn => happens_next (hscrub n hn),
    fun hp hs hl => happens_next (hmesh pkt p hp hs hl),
    fun state nbad hn h1 h2 h3 h4 h5 => happens_next (hcolumn n state nbad hn h1 h2 h3 h4 h5),
    fun hn hr => happens_next (hlog n hn hr _ rfl), ?ucie, fun hup hhard => happens_next (happens_some (ucieDown_of hup hhard)),
    ?linkUp, fun _ => happens_next rfl, ?report, ?power, happens_next rfl⟩
  case port =>
    obtain ⟨h1, h2, h3, h4, h5, h6, h7, h8, h9, h10⟩ := linkEvents_complete s n hn
    exact ⟨h1, h2, h3 w, h4, h5, h6, h7, h8, h9, h10⟩
  case arrive =>
    intro l rest hport hqueue hgood hord hcube hforward htype
    exact happens_next ((hlink port l rest _ hport hqueue rfl hgood hord).2 hcube hforward htype)
  case adaptive =>
    intro d q vc hp hstage hord hlate hup hdown hal haway hleave hclass hroom hlive
    exact happens_next (hadaptive pkt p d q vc hp hstage hord hlate hup hdown hal haway hleave hclass _ rfl hroom hlive _ rfl)
  case receipt =>
    intro r hp hr hq
    obtain ⟨hfree, hwait, hmark⟩ := hreceipt pkt p port pid r hp hr hq
    refine ⟨fun hbody => ?_, fun hbody => happens_next (hmark hbody)⟩
    cases hreply : expectsReply r.pkt with
    | false => exact happens_next (hfree hbody hreply)
    | true => exact happens_next (hwait hbody hreply)
  case query =>
    intro src slot uid seq hp hbody hstage hcube hhome
    obtain ⟨hdone, hlate⟩ := hquery pkt p src slot uid seq port pid hp hbody hstage hcube _ rfl _ rfl
    cases hhit : s.cores.any fun k => k.2.done.any fun d =>
        (d.src == src && d.slot == slot && d.uid == uid && d.seq == seq) && d.performed with
    | true => exact happens_next (hdone hhit)
    | false => exact happens_next (hlate hhit hhome _ rfl)
  case sram =>
    intro c k hc hk
    obtain ⟨hfine, hbroken⟩ := hlstore c k hc hk
    exact ⟨happens_next hfine, happens_next (hbroken _ rfl)⟩
  case ucie =>
    intro hup hzero hlow hal o ho
    have hoff := ucieOff_of hlow hal ho
    refine ⟨fun hop hl hload => ?_, fun u hop hstore => ?_⟩
    · obtain ⟨v, hv⟩ := Option.isSome_iff_exists.mp hload
      exact happens_next (happens_some (ucieRead_answers hup hzero hoff hop hl hv))
    · exact happens_next (happens_some (ucieWrite_stores hup hzero hoff hop hstore))
  case linkUp =>
    intro hon hdown
    exact happens_next (happens_some (row := "UCIE_LINK_UP") (if_pos (by simp [hon, hdown])))
  case report =>
    intro hbusy
    exact happens_next (happens_some (row := "ATTEST_REPORT") (if_pos hbusy))
  case power =>
    intro hon
    exact happens_next (happens_some (row := "POWER_LOSS") (if_pos hon))

/-- Settles O55, from the four statements of its parts. -/
theorem eventsComplete : Obligations.EventsComplete :=
  ⟨claim_threadEventsComplete, claim_engineEventsComplete, claim_controlEventsComplete, claim_fabricEventsComplete⟩

end Sys2Proof.Machine
end
